-- ==== Sys2Proof/Word.lean ====
section
/-!
DEFINITION. Word.lean: the word types of the block and their plainest arithmetic.
-/
namespace Sys2Proof

/-- A register or memory word of 64 bits (R34). -/
abbrev W64 := BitVec 64

/-- A byte of memory. -/
abbrev Byte := BitVec 8

/-- A master ID (R37). -/
abbrev Mid := BitVec 10

end Sys2Proof
end

