-- ==== Sys2Proof/Syntax.lean ====
section
/-!
DEFINITION. Syntax.lean: the commands of the block, one constructor of `Instr` per row of spec/opcode_table.json,
and the types of their operands.
-/
namespace Sys2Proof

/-- The fields of one Dziys instruction (R77, R81) as the command carries them: the base word's fields, the extension
word, and `upset`: whether the unit's own check found a mismatch while it ran (R71, R73). CLASS and OP are the
constructor's. Which words the sequencer fetched is left open by R78, so the command names them (log entry 1). -/
structure Issue where
  dst : BitVec 6
  src1 : BitVec 6
  src2 : BitVec 6
  aux : BitVec 6
  fmta : BitVec 4
  fmtb : BitVec 4
  fmtd : BitVec 4
  pred : BitVec 3
  x : Bool
  rnd : BitVec 2
  strict : Bool
  sat : Bool
  imm8 : BitVec 8
  ext : BitVec 64
  upset : Bool
  deriving DecidableEq, Repr

/-- What the self-checks of a kiln find while it folds one operand (R73, R171). -/
inductive KilnCheck where
  | ok | residue | cellUe
  deriving DecidableEq, Repr

/-- An injection point of R242, and the kiln complex on port 18 (R227). -/
inductive InjPoint where
  | cluster (n : Fin 128) | apc | fw | kiln
  deriving DecidableEq, Repr

/-- The stack's error-severity report of R357, R358. -/
inductive StackReport where
  | none | corrected | uncorrectable
  deriving DecidableEq, Repr

/-- A 64 B access at an HBM controller (R357): a read, a write of the bytes of `mask`, or the atomic OR of R369. -/
inductive HbmOp where
  | read
  | write (mask : BitVec 64) (data : BitVec 512)
  | orWord (word : Fin 8) (value : BitVec 64)
  deriving DecidableEq, Repr

/-- A firmware processor (R27, R385). -/
inductive Proc where
  | sec | pwr | sch | ccc (n : Fin 128)
  deriving DecidableEq, Repr

/-- The management transports of R414 and R428: I3C, and fabric MGMT messages of MTYPE MCTP. -/
inductive Transport where
  | i3c | fabric
  deriving DecidableEq, Repr

/-- The sensors of R414 and R463. -/
inductive PldmSensor where
  | vin | iin | pin | tmax | hmax | inlet | outlet | flow | stackTemp (k : Fin 8) | moduleState
  deriving DecidableEq, Repr

/-- The emergency sources of R456. -/
inductive EmSrc where
  | undervoltage | outOfRange | overcurrent | coolant | flow | junction
  deriving DecidableEq, Repr

/-- A unit with power states (R444). -/
inductive PUnit where
  | cluster (n : Fin 128) | stack (k : Fin 8) | link (i : Fin 14)
  deriving DecidableEq, Repr

/-- The result of the boot self-tests of R458. -/
inductive BootTest where
  | pass | clusterFail (n : Fin 128) | diePortFail (p : Fin 4)
  deriving DecidableEq, Repr

/-- The commands: one constructor per row of spec/opcode_table.json. -/
inductive Instr where
  /-- CX_NOP (R97): Control instruction that does nothing for one cycle. -/
  | cxNop (cl : Fin 128) (i : Issue)
  /-- CX_JMP (R97): Unconditional jump to a relative or absolute target, raising FETCH on a bad target. -/
  | cxJmp (cl : Fin 128) (i : Issue)
  /-- CX_BZ (R97): Branch when a scalar register is zero. -/
  | cxBz (cl : Fin 128) (i : Issue)
  /-- CX_BNZ (R97): Branch when a scalar register is non-zero. -/
  | cxBnz (cl : Fin 128) (i : Issue)
  /-- CX_BLT (R97): Branch when one scalar is less than another, signed. -/
  | cxBlt (cl : Fin 128) (i : Issue)
  /-- CX_LOOP (R97): Decrement a scalar and branch while it is non-zero. -/
  | cxLoop (cl : Fin 128) (i : Issue)
  /-- CX_CALL (R97): Save the next offset in a scalar and jump. -/
  | cxCall (cl : Fin 128) (i : Issue)
  /-- CX_RET (R97): Jump to the offset held in a scalar. -/
  | cxRet (cl : Fin 128) (i : Issue)
  /-- CX_WAITCONE (R98): Wait until the cone count reaches a value, completing at once with OK_LATE when it has passed. -/
  | cxWaitcone (cl : Fin 128) (i : Issue)
  /-- WAITCONE_DUE (R98): The cone count reaches the value a waiting CX.WAITCONE named, and the instruction completes. -/
  | waitconeDue (cl : Fin 128)
  /-- CX_FENCE (R97): Wait for every older instruction and its acknowledged writes, optionally discarding fetched instructions, and report failed asynchronous operations. -/
  | cxFence (cl : Fin 128) (i : Issue)
  /-- CX_MODE (R76): Change default rounding, STRICT or the stochastic seed for later instructions, raising ILLEGAL for a seed write under DETERMINISTIC. -/
  | cxMode (cl : Fin 128) (i : Issue)
  /-- CX_RDMODE (R97): Copy CL.MODE into a scalar register. -/
  | cxRdmode (cl : Fin 128) (i : Issue)
  /-- CX_HALT (R141): Stop the cluster once the window drains and no collective is in flight, entering HALTED. -/
  | cxHalt (cl : Fin 128) (i : Issue)
  /-- CX_BRK (R97): Raise the BREAK exception. -/
  | cxBrk (cl : Fin 128) (i : Issue)
  /-- CX_TRAP (R97): Raise the SERVICE exception for a firmware service. -/
  | cxTrap (cl : Fin 128) (i : Issue)
  /-- SX_ADD (R99): Add two scalars modulo 2^64. -/
  | sxAdd (cl : Fin 128) (i : Issue)
  /-- SX_ADDI (R99): Add an immediate to a scalar. -/
  | sxAddi (cl : Fin 128) (i : Issue)
  /-- SX_SUB (R99): Subtract two scalars. -/
  | sxSub (cl : Fin 128) (i : Issue)
  /-- SX_MUL (R99): Low 64 bits of a scalar product. -/
  | sxMul (cl : Fin 128) (i : Issue)
  /-- SX_MULH (R99): High 64 bits of a signed scalar product. -/
  | sxMulh (cl : Fin 128) (i : Issue)
  /-- SX_AND (R99): Bitwise AND of two scalars. -/
  | sxAnd (cl : Fin 128) (i : Issue)
  /-- SX_OR (R99): Bitwise OR of two scalars. -/
  | sxOr (cl : Fin 128) (i : Issue)
  /-- SX_XOR (R99): Bitwise XOR of two scalars. -/
  | sxXor (cl : Fin 128) (i : Issue)
  /-- SX_SHL (R99): Shift a scalar left. -/
  | sxShl (cl : Fin 128) (i : Issue)
  /-- SX_SHR (R99): Shift a scalar right logically. -/
  | sxShr (cl : Fin 128) (i : Issue)
  /-- SX_SRA (R99): Shift a scalar right arithmetically. -/
  | sxSra (cl : Fin 128) (i : Issue)
  /-- SX_SLT (R99): Set a scalar to 1 when one scalar is less than another, signed. -/
  | sxSlt (cl : Fin 128) (i : Issue)
  /-- SX_LDI (R99): Load an immediate into a scalar. -/
  | sxLdi (cl : Fin 128) (i : Issue)
  /-- SX_LD (R99): Load 8 bytes from a local address, raising ACCESS or ALIGN on failure. -/
  | sxLd (cl : Fin 128) (i : Issue)
  /-- SX_ST (R99): Store 8 bytes to a local address. -/
  | sxSt (cl : Fin 128) (i : Issue)
  /-- SX_CONE (R99): Read the cone count into a scalar. -/
  | sxCone (cl : Fin 128) (i : Issue)
  /-- SX_JSTEP (R99): Read CL.JSTEP into a scalar. -/
  | sxJstep (cl : Fin 128) (i : Issue)
  /-- SX_STEPCHK (R325): Serialising check that raises STEP_SKEW when a scalar differs from CL.JSTEP. -/
  | sxStepchk (cl : Fin 128) (i : Issue)
  /-- VX_ADD (R100): Element-wise vector addition. -/
  | vxAdd (cl : Fin 128) (i : Issue)
  /-- VX_SUB (R100): Element-wise vector subtraction. -/
  | vxSub (cl : Fin 128) (i : Issue)
  /-- VX_MUL (R100): Element-wise vector multiplication. -/
  | vxMul (cl : Fin 128) (i : Issue)
  /-- VX_FMA (R100): Element-wise fused multiply-add with one rounding. -/
  | vxFma (cl : Fin 128) (i : Issue)
  /-- VX_DIV (R100): Element-wise division. -/
  | vxDiv (cl : Fin 128) (i : Issue)
  /-- VX_SQRT (R100): Element-wise square root. -/
  | vxSqrt (cl : Fin 128) (i : Issue)
  /-- VX_RCP (R100): Element-wise reciprocal. -/
  | vxRcp (cl : Fin 128) (i : Issue)
  /-- VX_RSQRT (R100): Element-wise reciprocal square root. -/
  | vxRsqrt (cl : Fin 128) (i : Issue)
  /-- VX_EXP2 (R100): Element-wise power of two. -/
  | vxExp2 (cl : Fin 128) (i : Issue)
  /-- VX_LOG2 (R100): Element-wise base-2 logarithm. -/
  | vxLog2 (cl : Fin 128) (i : Issue)
  /-- VX_TANH (R100): Element-wise hyperbolic tangent. -/
  | vxTanh (cl : Fin 128) (i : Issue)
  /-- VX_MAX (R48): Element-wise IEEE maximum. -/
  | vxMax (cl : Fin 128) (i : Issue)
  /-- VX_MIN (R48): Element-wise IEEE minimum. -/
  | vxMin (cl : Fin 128) (i : Issue)
  /-- VX_MAXNUM (R48): Element-wise maximumNumber. -/
  | vxMaxnum (cl : Fin 128) (i : Issue)
  /-- VX_MINNUM (R48): Element-wise minimumNumber. -/
  | vxMinnum (cl : Fin 128) (i : Issue)
  /-- VX_CMP (R100): Element-wise comparison into a predicate register. -/
  | vxCmp (cl : Fin 128) (i : Issue)
  /-- VX_SEL (R100): Element-wise select under a predicate. -/
  | vxSel (cl : Fin 128) (i : Issue)
  /-- VX_AND (R100): Bitwise AND of integer vectors. -/
  | vxAnd (cl : Fin 128) (i : Issue)
  /-- VX_OR (R100): Bitwise OR of integer vectors. -/
  | vxOr (cl : Fin 128) (i : Issue)
  /-- VX_XOR (R100): Bitwise XOR of integer vectors. -/
  | vxXor (cl : Fin 128) (i : Issue)
  /-- VX_SHL (R100): Element-wise left shift of integer vectors. -/
  | vxShl (cl : Fin 128) (i : Issue)
  /-- VX_SHR (R100): Element-wise logical right shift of integer vectors. -/
  | vxShr (cl : Fin 128) (i : Issue)
  /-- VX_SRA (R100): Element-wise arithmetic right shift of integer vectors. -/
  | vxSra (cl : Fin 128) (i : Issue)
  /-- VX_CVT (R100): Element-wise format conversion. -/
  | vxCvt (cl : Fin 128) (i : Issue)
  /-- VX_LD (R101): Load 1 KiB from the cluster store into a vector register. -/
  | vxLd (cl : Fin 128) (i : Issue)
  /-- VX_ST (R101): Store a vector register as 1 KiB into the cluster store, optionally folding a digest. -/
  | vxSt (cl : Fin 128) (i : Issue)
  /-- VX_BCAST (R100): Broadcast a scalar to every element. -/
  | vxBcast (cl : Fin 128) (i : Issue)
  /-- VX_PMASK (R100): Build a predicate mask of leading ones. -/
  | vxPmask (cl : Fin 128) (i : Issue)
  /-- VX_RED (R101): Reduce the predicated elements by a fixed pairwise tree into a scalar. -/
  | vxRed (cl : Fin 128) (i : Issue)
  /-- VX_SCANBITS (R102): Write the indices of set bits of a vector register into lanes and count them. -/
  | vxScanbits (cl : Fin 128) (i : Issue)
  /-- VX_RED_AR (R129): Launch a fused vector all-reduce collective. -/
  | vxRedAr (cl : Fin 128) (i : Issue)
  /-- MX_AZERO (R103): Clear an accumulator tile set and tag it EMPTY. -/
  | mxAzero (cl : Fin 128) (i : Issue)
  /-- MX_ALD (R103): Load an accumulator tile set from a tensor with a type tag. -/
  | mxAld (cl : Fin 128) (i : Issue)
  /-- MX_AMOV (R103): Round an accumulator tile set into a tensor. -/
  | mxAmov (cl : Fin 128) (i : Issue)
  /-- MX_MMA (R104): Matrix multiply-accumulate into an accumulator set or tensor, with checksum. -/
  | mxMma (cl : Fin 128) (i : Issue)
  /-- MX_RMAX (R103): Row maximum of a tensor. -/
  | mxRmax (cl : Fin 128) (i : Issue)
  /-- MX_MMA_RS (R129): Matrix multiply fused with a reduce-scatter collective. -/
  | mxMmaRs (cl : Fin 128) (i : Issue)
  /-- MX_MMA_AR (R129): Matrix multiply fused with an all-reduce collective. -/
  | mxMmaAr (cl : Fin 128) (i : Issue)
  /-- TX_MOV (R106): Asynchronous tensor move with conversion and layout change. -/
  | txMov (cl : Fin 128) (i : Issue)
  /-- TX_GATHER (R106): Asynchronous row gather by an index tensor. -/
  | txGather (cl : Fin 128) (i : Issue)
  /-- TX_SCATTER (R106): Asynchronous row scatter by an index tensor. -/
  | txScatter (cl : Fin 128) (i : Issue)
  /-- TX_LDT (R105): Load a tensor descriptor from the store. -/
  | txLdt (cl : Fin 128) (i : Issue)
  /-- TX_STT (R105): Store a tensor descriptor to the store. -/
  | txStt (cl : Fin 128) (i : Issue)
  /-- TX_TSET (R106): Write one field of a tensor descriptor from a scalar. -/
  | txTset (cl : Fin 128) (i : Issue)
  /-- TX_WAIT (R90): Wait until a move handle has finished, raising HANDLE or ASYNC. -/
  | txWait (cl : Fin 128) (i : Issue)
  /-- TX_MIRROR (R309): Asynchronously send a tensor as MIRROR packets to the buddy's ward region. -/
  | txMirror (cl : Fin 128) (i : Issue)
  /-- TX_AG (R129): Launch a fused all-gather collective. -/
  | txAg (cl : Fin 128) (i : Issue)
  /-- DX_DIGEST (R345): Fold every element of a tensor into a digest slot. -/
  | dxDigest (cl : Fin 128) (i : Issue)
  /-- DX_DRD (R107): Read one field of a digest slot. -/
  | dxDrd (cl : Fin 128) (i : Issue)
  /-- DX_DCLR (R107): Clear a digest slot. -/
  | dxDclr (cl : Fin 128) (i : Issue)
  /-- DX_DPUB (R346): Publish a digest slot to the digest engine, which adds it into a layer entry and may close it. -/
  | dxDpub (cl : Fin 128) (i : Issue)
  /-- DX_HASH (R348): Asynchronously SHA-384 hash a tensor into DIG.HRES. -/
  | dxHash (cl : Fin 128) (i : Issue)
  /-- QX_SEND (R108): Asynchronously send a tensor as one MSG packet. -/
  | qxSend (cl : Fin 128) (i : Issue)
  /-- QX_POLL (R108): Read the number of ready slots of a queue. -/
  | qxPoll (cl : Fin 128) (i : Issue)
  /-- QX_RECV (R108): Wait for, copy and release the oldest ready slot of a queue. -/
  | qxRecv (cl : Fin 128) (i : Issue)
  /-- QX_SUBMIT (R393): Submit a 64 B command to an SCH command queue. -/
  | qxSubmit (cl : Fin 128) (i : Issue)
  /-- QX_NOTIFY (R108): Post a 32 B record to the host completion ring through SCH. -/
  | qxNotify (cl : Fin 128) (i : Issue)
  /-- FX_PLAN (R121): Load and check a plan descriptor and reserve its contexts and cells. -/
  | fxPlan (cl : Fin 128) (i : Issue)
  /-- FX_PFREE (R123): Release a plan and its reservation. -/
  | fxPfree (cl : Fin 128) (i : Issue)
  /-- FX_BCAST (R126): Launch a fused broadcast collective from a root. -/
  | fxBcast (cl : Fin 128) (i : Issue)
  /-- FX_A2A (R126): Launch a fused all-to-all collective. -/
  | fxA2a (cl : Fin 128) (i : Issue)
  /-- FX_WAIT (R136): Wait until a collective has completed, raising COLL on stall or failure. -/
  | fxWait (cl : Fin 128) (i : Issue)
  /-- FX_TEST (R136): Test whether a collective has completed. -/
  | fxTest (cl : Fin 128) (i : Issue)
  /-- FX_FENCE (R133): Wait until every collective of the cluster has completed. -/
  | fxFence (cl : Fin 128) (i : Issue)
  /-- ASYNC_OP_FINISH (R90): An asynchronous move, mirror, hash or send finishes, writing its second completion record and freeing or holding its slot. -/
  | asyncOpFinish (cl : Fin 128) (slot : Fin 64)
  /-- CCC_EXCEPTION_RESPONSE (R94): The CCC handles a cluster exception by cause: resume, skip, self-test, service or report to SCH. -/
  | cccExceptionResponse (cl : Fin 128)
  /-- UNIT_SELFTEST_DONE (R94): A cluster unit self-test started after a repeated check failure ends, fencing the module on failure. -/
  | unitSelftestDone (cl : Fin 128) (pass : Bool)
  /-- CL_START (R114): CL.CMD START sets PC to ENTRY and runs the cluster. -/
  | clStart (mid : BitVec 10) (cl : Fin 128)
  /-- CL_RESUME (R114): CL.CMD RESUME re-issues undone window entries and runs the cluster. -/
  | clResume (mid : BitVec 10) (cl : Fin 128)
  /-- CL_SKIP (R114): CL.CMD SKIP resumes with the faulting instruction counted as done. -/
  | clSkip (mid : BitVec 10) (cl : Fin 128)
  /-- CL_STOP (R114): CL.CMD STOP cancels unissued entries, cancels collectives and halts the cluster. -/
  | clStop (mid : BitVec 10) (cl : Fin 128)
  /-- CL_PAUSE (R115): CL.CMD PAUSE stops issue and brings the cluster to PAUSED. -/
  | clPause (mid : BitVec 10) (cl : Fin 128)
  /-- PAUSE_AT_DUE (R115): The cone count reaches CL.PAUSE_AT with PAT_EN set, pausing the cluster or setting PAUSE_PEND. -/
  | pauseAtDue (cl : Fin 128)
  /-- CONTRIBUTION_INJECT (R138): A queued contribution obtains a credit and is injected from the fabric interface source queue. -/
  | contributionInject (cl : Fin 128) (plan : Fin 64)
  /-- RED (R159): A RED packet reaches the kiln complex and is matched, opens or folds into a context. -/
  | red (chk : KilnCheck)
  /-- RED_PART (R159): A RED_PART packet reaches the kiln complex and is matched or folded. -/
  | redPart (chk : KilnCheck)
  /-- RED_RES (R161): A RED_RES reaches the kiln complex and is landed, passed on as a lower-phase result and its RES bit set. -/
  | redRes
  /-- DONE_FINALITY (R162): A finality DONE marks a chunk settled at this member. -/
  | doneFinality
  /-- DONE_CREDIT (R173): A credit DONE updates RET of a credit counter from its RCUM or is dropped as stale. -/
  | doneCredit
  /-- REPAIR_CONTRIBUTION (R168): A contribution REPAIR is answered with a RED from the held source or HELD sum. -/
  | repairContribution
  /-- REPAIR_RESULT (R169): A result REPAIR is answered by the owner from its HELD context or held source. -/
  | repairResult
  /-- CONTEXT_DEADLINE (R167): An OPEN context reaches its DEADLINE and sends a repair round. -/
  | contextDeadline (idx : Fin 1048576)
  /-- WATCH_DEADLINE (R169): A watch entry reaches its DEADLINE and sends result REPAIRs for unsettled chunks. -/
  | watchDeadline (idx : Fin 1048576)
  /-- RES_HOLD_EXPIRY (R176): A HELD result context is released after RES_HOLD. -/
  | resHoldExpiry (idx : Fin 1048576)
  /-- COLL_STALL (R143): A collective's stall timer fires, logging a missing-member report. -/
  | collStall (cl : Fin 128) (plan : Fin 64) (seq : Fin 64)
  /-- LANDING_ACK (R177): A landing and its touch-bitmap OR are acknowledged, releasing cells and allowing the RES bit. -/
  | landingAck
  /-- KLN_TOUCH_CLR (R179): A write of 1 to KLN.TOUCH_CTRL.CLR starts clearing the touch bitmap. -/
  | klnTouchClr (mid : BitVec 10)
  /-- TOUCH_CLEAR_DONE (R179): The bitmap clear finishes, BUSY falls and waiting bit settings are applied. -/
  | touchClearDone
  /-- FLIT_RECEIVE (R194): A flit is decoded, checked and accepted in order or discarded, with ACK and CRED taken. -/
  | flitReceive (link : Fin 14) (flit : BitVec 2048)
  /-- NAK (R195): A good NAK starts a replay of unacknowledged flits. -/
  | nak (link : Fin 14)
  /-- REPLAY_TMO_EXPIRY (R195): The oldest unacknowledged flit waits REPLAY_TMO and a replay starts. -/
  | replayTmoExpiry (link : Fin 14)
  /-- IDENT (R203): An IDENT frame is accepted, moving BISQUE to VERIFY or updating the peer slice. -/
  | ident (link : Fin 14)
  /-- RATE_REQ (R199): A rate step request from the leader is answered with RATE_ACK. -/
  | rateReq (link : Fin 14)
  /-- RATE_ACK (R199): The follower's acknowledgement lets the rate step drain and retrain. -/
  | rateAck (link : Fin 14)
  /-- RATE_RES (R199): A rate step result of pass or fail is received. -/
  | rateRes (link : Fin 14)
  /-- LANE_CHECK_DONE (R199): The 200 µs lane check of a rate step ends with pass or fail. -/
  | laneCheckDone (link : Fin 14) (pass : Bool)
  /-- RATE_STEP_TIMEOUT (R199): A rate step not finished within 60 ms fails back to the last passed rate. -/
  | rateStepTimeout (link : Fin 14)
  /-- FE_REQ (R221): A far-end loop request is accepted with FE_ACK or refused. -/
  | feReq (link : Fin 14)
  /-- FE_ACK (R221): The peer accepts a far-end loop. -/
  | feAck (link : Fin 14)
  /-- FE_REFUSE_TIMEOUT (R221): No FE_ACK within 10 ms sets REASON FE_REFUSED. -/
  | feRefuseTimeout (link : Fin 14)
  /-- DOWN_NOTE (R196): A DOWN_NOTE from the peer takes the link DOWN with REASON PEER. -/
  | downNote (link : Fin 14)
  /-- LOSS_OF_SIGNAL (R196): Optical power falls below threshold on a lane, taking the link DOWN in the states that watch it. -/
  | lossOfSignal (link : Fin 14)
  /-- CLOCK_LOCK_LOSS (R196): The clock lane loses lock, taking the link DOWN in the states that watch it. -/
  | clockLockLoss (link : Fin 14)
  /-- DOWN_HOLD_EXPIRY (R197): DOWN_HOLD ends and the link enters DISABLED or DARK. -/
  | downHoldExpiry (link : Fin 14)
  /-- LIGHT_PRESENT (R198): All 17 lanes have been above threshold for 100 µs and DARK moves to SIGNAL. -/
  | lightPresent (link : Fin 14)
  /-- CLOCK_LOCKED (R198): The clock lane locks and the link passes CLOCK into WEDGE. -/
  | clockLocked (link : Fin 14)
  /-- FRAMING_FOUND (R198): Eight aligned alignment flits on every lane move WEDGE to BISQUE. -/
  | framingFound (link : Fin 14)
  /-- SIGNAL_TIMEOUT (R201): SIGNAL times out and the link returns to DARK. -/
  | signalTimeout (link : Fin 14)
  /-- WEDGE_TIMEOUT (R201): WEDGE times out and the link returns to DARK. -/
  | wedgeTimeout (link : Fin 14)
  /-- BISQUE_TIMEOUT (R201): BISQUE times out and the link returns to DARK. -/
  | bisqueTimeout (link : Fin 14)
  /-- LNK_ENABLE (R198): A write of EN = 1 brings a link out of DISABLED, or into TEST with LOOP set. -/
  | lnkEnable (mid : BitVec 10) (link : Fin 14)
  /-- LNK_DISABLE (R196): A write of EN = 0 takes a link to DOWN with REASON DISABLED or to DISABLED. -/
  | lnkDisable (mid : BitVec 10) (link : Fin 14)
  /-- LNK_LOOP_SET (R220): A write of LOOP selects a test loop, or LOOP = 0 leaves TEST for DARK. -/
  | lnkLoopSet (mid : BitVec 10) (link : Fin 14) (loop : BitVec 2)
  /-- LNK_RETRAIN (R200): A write of RETRAIN drains the link and starts a fast retrain or full bring-up. -/
  | lnkRetrain (mid : BitVec 10) (link : Fin 14)
  /-- RETRAIN_DRAIN_TIMEOUT (R200): Flits remain unacknowledged 10 µs after a retrain request and the retrain is abandoned. -/
  | retrainDrainTimeout (link : Fin 14)
  /-- LNK_EYE_START (R223): A write of LNK.EYE.START measures one eye-margin point. -/
  | lnkEyeStart (mid : BitVec 10) (link : Fin 14) (lane : BitVec 5) (voff hoff : BitVec 8)
  /-- EYE_POINT_DONE (R223): The 100 µs eye-margin measurement ends and BUSY clears. -/
  | eyePointDone (link : Fin 14) (errs : BitVec 32)
  /-- SERVICE_PORT_INGRESS (R283): A packet from a host on an open service port is stamped SLICE 0xFFE and injected, or discarded. -/
  | servicePortIngress (sv : Fin 2)
  /-- PACKET_HEADER_ARRIVE (R266): A packet header arrives and the router delivers it or chooses an output and VOQ. -/
  | packetHeaderArrive (port : Fin 20)
  /-- OUTPUT_GRANT (R230): An output at a packet boundary grants a class and VOQ head, ageing, hop limit and CM marking applied. -/
  | outputGrant (port : Fin 20)
  /-- PACKET_TX_DONE (R244): The last flit of a copy is sent or delivered and its cell references are released. -/
  | packetTxDone (port : Fin 20)
  /-- AGEING_SWEEP (R239): The periodic sweep discards aged VOQ heads. -/
  | ageingSweep
  /-- ESC_WAIT_EXPIRY (R267): A VOQ head waits ESC_WAIT for credit and moves to an escape output. -/
  | escWaitExpiry (inp out : Fin 20) (cls : Fin 8) (vc : Fin 2)
  /-- PACKET_INJECT (R250): A local packet obtains its cells, credits and throttle allowance and is injected. -/
  | packetInject (point : InjPoint)
  /-- THROTTLE_WINDOW (R242): A CWIN ends without a marked answer and a destination's rate is raised. -/
  | throttleWindow
  /-- SPREAD_WINDOW (R270): A 1 ms parallel-link window ends and imbalance is judged and latched. -/
  | spreadWindow
  /-- WRITE (R296): A WRITE is filtered for duplicates, applied and answered with DONE. -/
  | write (port : Fin 20)
  /-- READ_REQ (R215): A READ_REQ is performed and answered with READ_RSP. -/
  | readReq (port : Fin 20)
  /-- READ_RSP (R298): A READ_RSP is matched to its request or discarded as DUP_ANS. -/
  | readRsp (port : Fin 20)
  /-- DONE (R298): A DONE answer outside C2 is matched to its request and applies CM throttling. -/
  | done (port : Fin 20)
  /-- MSG (R109): A MSG is written to its queue slot and marks it ready, or is dropped. -/
  | msg (port : Fin 20)
  /-- MIRROR (R310): A MIRROR is written by the mirror engine into the ward region or restore window, or refused. -/
  | mirror
  /-- TEST (R214): A TEST packet is counted and its payload checked. -/
  | test
  /-- MGMT_CMD (R400): A MGMT CMD message is queued by the submit engine and later acknowledged with CMD_ACK. -/
  | mgmtCmd
  /-- MGMT_TO_HOST (R285): A bridge sends a MGMT packet marked TO_HOST out of a service port. -/
  | mgmtToHost
  /-- CONE_SYNC (R334): A CONE_SYNC message updates link delay and offset and drives the cone count state. -/
  | coneSync
  /-- CONE_SYNC_PERIOD (R333): PERIOD elapses and a CONE_SYNC is sent on each GLOST torus link. -/
  | coneSyncPeriod
  /-- ROUTE_UPD_LOAD (R286): A ROUTE_UPD LOAD writes route entries into a bank. -/
  | routeUpdLoad
  /-- ROUTE_UPD_KEY (R286): A ROUTE_UPD KEY writes a bank's SPREAD_KEY. -/
  | routeUpdKey
  /-- ROUTE_UPD_COMMIT (R287): A ROUTE_UPD COMMIT checks the bank CRC and makes it LOADED. -/
  | routeUpdCommit
  /-- ROUTE_UPD_COORD (R258): A ROUTE_UPD COORD assigns the coordinate, reloads LNK.EXPECT and retrains links. -/
  | routeUpdCoord
  /-- ROUTE_UPD_TOPO (R258): A ROUTE_UPD TOPO loads a topology table and retrains links. -/
  | routeUpdTopo
  /-- ROUTE_ENT_WRITE (R289): A write of ROUTE.ENT sets a route entry and leaves its bank LOADING. -/
  | routeEntWrite (mid : BitVec 10) (value : BitVec 64)
  /-- ROUTE_KEY_WRITE (R289): A write of ROUTE.KEY_A or KEY_B sets a bank key and returns it to LOADING. -/
  | routeKeyWrite (mid : BitVec 10) (bank : Bool) (value : BitVec 64)
  /-- ALARM_FLIP (R274): An ACTION 2 alarm switches injection to the other bank, making it ACTIVE and applying a pending re-key. -/
  | alarmFlip
  /-- BANK_RETIRE (R274): At C + L + 1 ms the DRAINING bank becomes IDLE. -/
  | bankRetire
  /-- FAULT_NOTE (R301): A LINK_DOWN, LINK_UP or FENCED note is deduplicated and logged. -/
  | faultNote
  /-- PROBE (R303): A PROBE note is answered with PROBE_ACK by the port-19 unit. -/
  | probe
  /-- PROBE_ACK (R303): A PROBE_ACK ends a suspicion without a declaration. -/
  | probeAck
  /-- PROBE_PERIOD (R303): Every 250 µs of suspicion a PROBE note is sent to the suspected neighbour. -/
  | probePeriod (dir : Fin 6)
  /-- LOST_TIME_EXPIRY (R304): No PROBE_ACK by LOST_TIME, so the neighbour is declared lost and MODULE_LOST fans out. -/
  | lostTimeExpiry (dir : Fin 6)
  /-- MODULE_LOST (R305): A MODULE_LOST note is accepted and fault pending is set. -/
  | moduleLost
  /-- REQUEST_RETRANSMIT (R298): A request unanswered for AGE_LIMIT + 1 ms is retransmitted with the same TAG and PSEQ. -/
  | requestRetransmit (tag : BitVec 12) (pseq : BitVec 24)
  /-- GENERATION_CLOSE (R311): Every mirror of a closing generation has finished, so the half header and status block are written. -/
  | generationClose
  /-- RESTORE_REQ (R315): A buddy accepts a RESTORE_REQ and pushes the half's data as MIRROR packets. -/
  | restoreReq
  /-- RESTORE_END (R315): RESTORE_END closes the restore window and sets the generation state. -/
  | restoreEnd
  /-- RESTORE_TIMEOUT (R316): No MIRROR or RESTORE_END for 10 ms completes RESTORE with E_FAULT. -/
  | restoreTimeout
  /-- CONE_SET (R331): A write of CONE.SET sets the root's count in BOOTING or READY. -/
  | coneSet (mid : BitVec 10) (value : BitVec 64)
  /-- CONE_ALARM_ENABLE (R338): A write enabling an alarm arms it, firing at once with LATE when AT has passed. -/
  | coneAlarmEnable (mid : BitVec 10) (k : Fin 8) (action : BitVec 2)
  /-- ALARM_INTERRUPT (R338): An ACTION 0 alarm fires and interrupts SCH. -/
  | alarmInterrupt (k : Fin 8)
  /-- ALARM_START (R338): An ACTION 1 alarm writes START to every selected cluster. -/
  | alarmStart (k : Fin 8)
  /-- HBM_ACCESS (R501): A 64 B access is performed at an HBM controller with the module's code and stack report combined. -/
  | hbmAccess (mid : BitVec 10) (addr : BitVec 48) (op : HbmOp) (rpt : StackReport)
  /-- PATROL_READ (R366): The patrol scrubber reads the next 64 B unit and writes back corrections. -/
  | patrolRead (stack : Fin 8) (rpt : StackReport)
  /-- HBM_REFRESH (R357): A stack is refreshed at the rate its temperature requires. -/
  | hbmRefresh (stack : Fin 8)
  /-- HBM_TEMP_POLL (R357): Every 1 ms PWR reads each stack temperature. -/
  | hbmTempPoll (stack : Fin 8) (temp : BitVec 8)
  /-- HBM_IMBALANCE_WINDOW (R361): A 1 ms pseudo-channel window ends and imbalance is judged and latched. -/
  | hbmImbalanceWindow (stack : Fin 8)
  /-- HBM_INJECT_ARM (R384): A write of HBM.INJECT arms an error injection on the next whole-word write. -/
  | hbmInjectArm (mid : BitVec 10) (stack : Fin 8) (value : BitVec 64)
  /-- ACC_HOLD_SET (R377): SCH sets ACC.CTRL.HOLD and accesses wait unchecked. -/
  | accHoldSet
  /-- ACC_HOLD_CLEAR (R377): SCH clears HOLD and waiting accesses are checked against the new tables. -/
  | accHoldClear
  /-- ACC_HOLD_TIMEOUT (R377): HOLD set for 10 ms is cleared by hardware, TORN is set and ACC_HOLD_TMO logged. -/
  | accHoldTimeout
  /-- MEMORY_CLEAR_DONE (R370): Clearing of HBM, stores and SRAMs at boot or UNBIND finishes. -/
  | memoryClearDone
  /-- COMMAND_SUBMIT (R393): A write to word 7 of SCH.SUBq submits a command to a queue. -/
  | commandSubmit (mid : BitVec 10) (q : Fin 64) (value : BitVec 64)
  /-- BIND (R397): Bind a job: set the slice, load access tables and the mirror binding. -/
  | bind (q : Fin 64)
  /-- UNBIND (R397): Release plans, clear slice and binding, reset cores, clear memory and load default tables. -/
  | unbind (q : Fin 64)
  /-- LOAD_PROGRAM (R396): Copy a program into selected clusters and set entry, seeds and landing registers. -/
  | loadProgram (q : Fin 64)
  /-- START (R397): Start the selected clusters. -/
  | start (q : Fin 64)
  /-- START_AT (R397): Arm a free ACTION 1 alarm to start clusters at a cone count. -/
  | startAt (q : Fin 64)
  /-- PAUSE (R150): Set CL.PAUSE_AT and PAT_EN on every cluster for a slice-wide pause. -/
  | pause (q : Fin 64)
  /-- RESUME (R395): RESUME mode 0 resumes paused clusters and clears fault pending. -/
  | resume (q : Fin 64)
  /-- RESUME_CLUSTERS (R395): RESUME mode 1 writes RESUME to clusters of the mask in EXCEPTION. -/
  | resumeClusters (q : Fin 64)
  /-- SKIP_CLUSTERS (R395): RESUME mode 2 writes SKIP to clusters of the mask in EXCEPTION. -/
  | skipClusters (q : Fin 64)
  /-- STOP_CLUSTERS (R395): RESUME mode 3 writes STOP to clusters of the mask in EXCEPTION. -/
  | stopClusters (q : Fin 64)
  /-- DRAIN (R397): Arm alarm 7 to stop every cluster at a cone count. -/
  | drain (q : Fin 64)
  /-- FENCE (R397): Fence the module ahead of every queue. -/
  | fence (q : Fin 64)
  /-- UNFENCE (R397): Clear, re-test the fenced unit and return to READY. -/
  | unfence (q : Fin 64)
  /-- SNAPSHOT (R311): Close the current mirror generation and advance GEN. -/
  | snapshot (q : Fin 64)
  /-- RESTORE (R315): Open a restore window and request the buddy's snapshot. -/
  | restore (q : Fin 64)
  /-- SET_ROUTES_HBM (R273): Load a route bank from an HBM buffer and commit it. -/
  | setRoutesHbm (q : Fin 64)
  /-- SET_ROUTES_IMAGE (R478): Load a route bank from the image's initial route tables. -/
  | setRoutesImage (q : Fin 64)
  /-- SET_ROUTES_BOX (R262): Load a route bank with standard entries from ROUTE.BOX. -/
  | setRoutesBox (q : Fin 64)
  /-- FLIP_EPOCH (R274): Arm alarm 6 to flip the route bank at a cone count. -/
  | flipEpoch (q : Fin 64)
  /-- ACCEPT_OBSERVED (R206): Copy observed peers into LNK.EXPECT and repeat VERIFY on the named links. -/
  | acceptObserved (q : Fin 64)
  /-- ACTIVATE_FW (R406): Verify a firmware slot and restart the named processor from it. -/
  | activateFw (q : Fin 64)
  /-- ACTIVATE_FW_DEFERRED_RUN (R407): A held activation executes 1 s after EMERGENCY clears. -/
  | activateFwDeferredRun (proc : Fin 4)
  /-- SET_LATENCY_TOL (R445): Set the latency tolerance and move units into enabled power states. -/
  | setLatencyTol (q : Fin 64)
  /-- SET_POLICY (R397): Set DETERMINISTIC, orphan policy, heartbeat timeout or EXPERT_EN under a token. -/
  | setPolicy (q : Fin 64)
  /-- BIND_STEP (R323): Evaluate the schedule table, optionally clear the bitmap and write CL.JSTEP in every cluster. -/
  | bindStep (q : Fin 64)
  /-- READ_LOG_COUNTERS (R412): Write and clear the recovery counter record. -/
  | readLogCounters (q : Fin 64)
  /-- READ_LOG_RECORDS (R412): Copy log records to a destination. -/
  | readLogRecords (q : Fin 64)
  /-- ATTEST_PROVENANCE (R352): Hash named ranges, sign and write a provenance record. -/
  | attestProvenance (q : Fin 64)
  /-- ATTEST_CERTS (R430): Write the slot-0 certificate chain. -/
  | attestCerts (q : Fin 64)
  /-- ATTEST_MEASURE (R430): Write a signed GET_MEASUREMENTS transcript. -/
  | attestMeasure (q : Fin 64)
  /-- ATTEST_ENROLL (R430): Blow an owner key hash into OWNER_HASH once. -/
  | attestEnroll (q : Fin 64)
  /-- ZEROISE_EPHEMERAL (R434): ZEROISE scope 0 zeroises the AK and DRBG and regenerates them. -/
  | zeroiseEphemeral (q : Fin 64)
  /-- ZEROISE_PERMANENT (R434): ZEROISE scope 1 additionally bars every read of the IDK under a token. -/
  | zeroisePermanent (q : Fin 64)
  /-- HEARTBEAT (R404): Restart the heartbeat timer and clear ORPHANED. -/
  | heartbeat (q : Fin 64)
  /-- HEARTBEAT_TIMEOUT (R404): No HEARTBEAT within HB_TMO sets ORPHANED and applies the orphan policy. -/
  | heartbeatTimeout
  /-- HRING_TAIL_WRITE (R403): A write of SCH.HRING_TAIL frees ring slots and posts waiting records. -/
  | hringTailWrite (mid : BitVec 10) (value : BitVec 64)
  /-- WATCHDOG_EXPIRY (R385): A firmware processor's watchdog expires and it is reset, or enters FW_FAULT. -/
  | watchdogExpiry (p : Proc)
  /-- FW_RESTART_DONE (R385): A restarted firmware processor runs again from its active slot. -/
  | fwRestartDone (p : Proc)
  /-- APC_RUN_WRITE (R418): A write of APC.CTRL.RUN releases or holds application cores. -/
  | apcRunWrite (mid : BitVec 10) (run : BitVec 32)
  /-- REGISTER_WRITE (R34): A write to a register without a row of its own, checked and applied or ignored and logged. -/
  | registerWrite (mid : BitVec 10) (addr : BitVec 48) (size : BitVec 8) (value : BitVec 64)
  /-- REGISTER_READ_CLEAR (R34): A read of a register holding RC fields returns and clears them, with the 32-bit split rule. -/
  | registerReadClear (mid : BitVec 10) (addr : BitVec 48) (size : BitVec 8)
  /-- SEC_CHAL_GEN (R425): A write of SEC.CHAL_GEN.GEN draws a new 32 B challenge. -/
  | secChalGen (mid : BitVec 10)
  /-- SEC_DBG_CLOSE (R439): A write of SEC.DBG.CLOSE closes the debug session. -/
  | secDbgClose (mid : BitVec 10)
  /-- CHALLENGE_EXPIRY (R425): A challenge becomes invalid 60 s after it was drawn. -/
  | challengeExpiry
  /-- DRBG_RESEED (R431): The DRBG reseeds at its request or time limit. -/
  | drbgReseed
  /-- ENTROPY_HEALTH_FAIL (R437): A continuous health or pairwise test fails and SEC enters the error state. -/
  | entropyHealthFail (pairwise : Bool)
  /-- FUSE_WRITE_RESUME (R423): A pending SVN raise or owner enrolment blows its fuses once EMERGENCY clears. -/
  | fuseWriteResume (readBack : Bool)
  /-- GET_VERSION (R428): SPDM GET_VERSION, resetting the transport's connection state. -/
  | getVersion (tr : Transport)
  /-- GET_CAPABILITIES (R428): SPDM GET_CAPABILITIES. -/
  | getCapabilities (tr : Transport)
  /-- NEGOTIATE_ALGORITHMS (R428): SPDM NEGOTIATE_ALGORITHMS. -/
  | negotiateAlgorithms (tr : Transport) (p384 sha384 : Bool)
  /-- GET_DIGESTS (R428): SPDM GET_DIGESTS. -/
  | getDigests (tr : Transport)
  /-- GET_CERTIFICATE (R428): SPDM GET_CERTIFICATE for slot 0. -/
  | getCertificate (tr : Transport) (slot : BitVec 8) (offset length : BitVec 16)
  /-- CHALLENGE (R428): SPDM CHALLENGE signed with the AK. -/
  | challenge (tr : Transport) (slot : BitVec 8) (nonce : BitVec 256)
  /-- GET_MEASUREMENTS (R429): SPDM GET_MEASUREMENTS returning the measurement blocks. -/
  | getMeasurements (tr : Transport) (index : BitVec 8) (sign : Bool) (slot : BitVec 8) (nonce : BitVec 256)
  /-- SET_ENDPOINT_ID (R414): MCTP control Set Endpoint ID. -/
  | setEndpointId (tr : Transport) (eid : BitVec 8)
  /-- GET_ENDPOINT_ID (R414): MCTP control Get Endpoint ID. -/
  | getEndpointId (tr : Transport)
  /-- GET_MCTP_VERSION_SUPPORT (R414): MCTP control Get MCTP Version Support. -/
  | getMctpVersionSupport (tr : Transport)
  /-- GET_MESSAGE_TYPE_SUPPORT (R414): MCTP control Get Message Type Support. -/
  | getMessageTypeSupport (tr : Transport)
  /-- GET_TID (R414): PLDM base GetTID. -/
  | getTid (tr : Transport)
  /-- GET_PLDM_VERSION (R414): PLDM base GetPLDMVersion. -/
  | getPldmVersion (tr : Transport)
  /-- GET_PLDM_TYPES (R414): PLDM base GetPLDMTypes. -/
  | getPldmTypes (tr : Transport)
  /-- GET_PLDM_COMMANDS (R414): PLDM base GetPLDMCommands. -/
  | getPldmCommands (tr : Transport)
  /-- PLDM_SENSOR_READ (R414): A PLDM monitoring request reads a numeric or state sensor. -/
  | pldmSensorRead (tr : Transport) (sensor : PldmSensor)
  /-- REQUEST_UPDATE (R471): PLDM RequestUpdate claims the image engine or is refused while it is busy. -/
  | requestUpdate (tr : Transport) (proc : Fin 4) (slotB : Bool)
  /-- PLDM_FIRMWARE_TRANSFER (R414): PLDM Firmware Update data writes one inactive slot, resetting the module after recovery. -/
  | pldmFirmwareTransfer (tr : Transport) (data : List (BitVec 8)) (last : Bool)
  /-- ENTDAA (R491): I3C dynamic address assignment. -/
  | entdaa (addr : BitVec 7)
  /-- RSTDAA (R491): I3C reset of the dynamic address. -/
  | rstdaa
  /-- ENEC (R491): I3C enable events. -/
  | enec (events : BitVec 8)
  /-- DISEC (R491): I3C disable events. -/
  | disec (events : BitVec 8)
  /-- GETPID (R491): I3C read of the provisional ID. -/
  | getpid
  /-- GETBCR (R491): I3C read of BCR. -/
  | getbcr
  /-- GETDCR (R491): I3C read of DCR. -/
  | getdcr
  /-- GETSTATUS (R491): I3C read of target status. -/
  | getstatus
  /-- GETMWL (R491): I3C read of maximum write length. -/
  | getmwl
  /-- SETMWL (R491): I3C set of maximum write length. -/
  | setmwl (len : BitVec 16)
  /-- GETMRL (R491): I3C read of maximum read length. -/
  | getmrl
  /-- SETMRL (R491): I3C set of maximum read length. -/
  | setmrl (len : BitVec 16)
  /-- JTAG_BYPASS (R438): Debug BYPASS instruction. -/
  | jtagBypass (tdi : Bool)
  /-- JTAG_IDCODE (R492): Debug IDCODE returns 0xB4A0_7593. -/
  | jtagIdcode
  /-- JTAG_EXTEST (R438): Boundary-scan EXTEST while RST_N is asserted. -/
  | jtagExtest (cells : List Bool)
  /-- JTAG_SAMPLE_PRELOAD (R438): Boundary-scan SAMPLE/PRELOAD while RST_N is asserted. -/
  | jtagSamplePreload (cells : List Bool)
  /-- JTAG_CHAL (R438): Read the challenge, drawing one when none is valid. -/
  | jtagChal
  /-- JTAG_TOKEN (R427): A token shifted in is checked at Update-DR and may open a debug session. -/
  | jtagToken (token : BitVec 2048)
  /-- JTAG_DSTATUS (R438): Read debug session status. -/
  | jtagDstatus
  /-- JTAG_DCLOSE (R439): Close the debug session at Update-DR. -/
  | jtagDclose
  /-- JTAG_DMEM (R438): One aligned 8-byte access as master 0x3FF inside a session. -/
  | jtagDmem (dr : BitVec 128)
  /-- CAPPING_LOOP (R450): Every 100 µs the capping loop adjusts f_cap from mean input power. -/
  | cappingLoop (vin iin pin : BitVec 16)
  /-- SENSOR_SAMPLE (R453): Every 100 µs the junction sensors are read. -/
  | sensorSample (temps : List Int) (inlet outlet flow : BitVec 16)
  /-- THERMAL_LOOP (R453): Every 1 ms the thermal loop adjusts each f_therm. -/
  | thermalLoop
  /-- LIMITER_SAMPLE (R451): Every 100 ns the current limiter measures input power and enters or releases a stage. -/
  | limiterSample (pin iin : BitVec 16)
  /-- VOLTAGE_SETTLED (R449): A raised operating point's voltage settles and the frequency rises. -/
  | voltageSettled (cl : Fin 128)
  /-- THROTTLE_NOTICE_INTERVAL (R452): A throttle INTERVAL ends and PWR_THROTTLE or PWR_THROTTLE_END is logged. -/
  | throttleNoticeInterval
  /-- THERMTRIP (R454): A junction reaches 115 °C, THERMTRIP_N asserts and the core rails are removed. -/
  | thermtrip (sensor : Fin 160)
  /-- EMERG_SET (R456): An emergency source becomes active and its action is taken. -/
  | emergSet (src : EmSrc)
  /-- EMERG_CLEAR (R456): An emergency source clears, and the overlay clears with the last. -/
  | emergClear (src : EmSrc)
  /-- UNIT_IDLE_DWELL (R444): A unit unused for its dwell time enters a deeper enabled power state. -/
  | unitIdleDwell (u : PUnit)
  /-- UNIT_WAKE_DONE (R446): A unit finishes its exit latency and the waiting access completes. -/
  | unitWakeDone (u : PUnit)
  /-- START_AT_WAKE (R446): PWR wakes the selected clusters 20 µs before a START_AT count. -/
  | startAtWake (k : Fin 8)
  /-- LSLEEP_AT_DUE (R448): At PWR.LSLEEP_AT links enter optics sleep or fast-retrain out of it. -/
  | lsleepAtDue
  /-- LSLEEP_DRAIN_TIMEOUT (R448): UNACK not zero within 10 µs refuses a sleep and logs LSLEEP_REFUSED. -/
  | lsleepDrainTimeout (link : Fin 14)
  /-- INPUT_IN_RANGE (R458): The 48 V input reaches the operating range and the start hold begins. -/
  | inputInRange
  /-- PWR_OK_ASSERT (R458): The input has held in range and PWR_OK is asserted. -/
  | pwrOkAssert
  /-- POWER_REMOVED (R389): The 48 V input is removed and the module enters OFF. -/
  | powerRemoved
  /-- RST_N_ASSERT (R461): RST_N asserted for 10 µs puts the module in OFF. -/
  | rstNAssert
  /-- RST_N_RELEASE (R458): RST_N release samples SLOT_ID and ramps the core rails. -/
  | rstNRelease (slotPins : BitVec 6)
  /-- RAILS_RAMPED (R421): The core rails are up and SEC starts its self-tests and boot verification. -/
  | railsRamped (failedTest : Fin 7)
  /-- SEC_BOOT_DONE (R421): SEC ends boot verification, releasing PWR, SCH and CCCs or failing boot. -/
  | secBootDone
  /-- HBM_TRAINING_DONE (R459): HBM training ends, falling back to full training or fencing on failure. -/
  | hbmTrainingDone (refused failed : BitVec 8) (chan : BitVec 8)
  /-- CLUSTER_SELFTEST_DONE (R458): Boot cluster and die-port self-tests end, fencing on failure. -/
  | clusterSelftestDone (result : BootTest)
  /-- READY_ENTRY (R460): Links reach BISQUE or 1 s passes and the module enters READY. -/
  | readyEntry
  /-- IMG_ERASE (R469): IMG.CTRL OP 1 erases a range of a region. -/
  | imgErase (mid : BitVec 10) (region : BitVec 4) (off : BitVec 32)
  /-- IMG_PROGRAM (R469): IMG.CTRL OP 2 programs a range of a region from HBM. -/
  | imgProgram (mid : BitVec 10) (region : BitVec 4) (off : BitVec 32)
  /-- IMG_CAL_SAVE (R477): IMG.CTRL OP 3 rewrites the HBM calibration sections. -/
  | imgCalSave (mid : BitVec 10)
  /-- IMG_HELD_START (R471): A held image operation starts when EMERGENCY clears. -/
  | imgHeldStart
  /-- IMG_OP_DONE (R470): An image engine operation ends and IMG_OP is logged with its result. -/
  | imgOpDone (verified : Bool)
  /-- CHECKER_LOCK (R219): A PRBS checker in TEST locks to the incoming sequence by itself, and LNK.TEST.LOCK reads 1 once every enabled checker is locked. -/
  | checkerLock (link : Fin 14)
  /-- FW_LOAD_WINDOW (R413): A 10 ms busy-time window ends; SYS.FW_LOAD is updated and PWR's telemetry STRETCH doubles or halves. -/
  | fwLoadWindow (sec pwr sch ccc : BitVec 8) (cccIdx : BitVec 7)
  /-- PROVENANCE_DONE (R352): The digest and hash engine finishes hashing the named ranges, SEC signs, the record is written at OUT and DIG.PROV.BUSY clears. -/
  | provenanceDone
  /-- PROGRAM_COPY_DONE (R388): The engine copy of LOAD_PROGRAM bytes into the selected cluster stores ends, and the command completes. -/
  | programCopyDone
  /-- TRST_N_ASSERT (R488): TRST_N driven low holds the IEEE 1149.1 debug port in reset. -/
  | trstNAssert
  deriving DecidableEq, Repr

end Sys2Proof
end

