-- ==== Sys2Proof/Config.lean ====
section
/-!
DEFINITION. Config.lean: what an implementation fixes and the free values: opaque constants without a body, so that
nothing can be proved of a value the spec leaves open (log entry 11).
-/
namespace Sys2Proof

/-- The free value number `k`, of `w` bits: nothing constrains it (log entry 11). -/
opaque Config.freeBits (w k : Nat) : BitVec w

/-- An error pattern of a (72,64) codeword outside the classes of R362: 0 the reader receives DATAERR, 1 wrong data
counted as corrected, 2 wrong data uncounted. The module does not state which (log entry 17). -/
opaque Config.eccOutcome (pattern : BitVec 72) : Fin 3

/-- The word read after a miscorrection or as another valid codeword (R362, log entry 17). -/
opaque Config.eccWrong (pattern : BitVec 72) (data : BitVec 64) : BitVec 64

/-- The fixed hash of (COLL, CHUNK) that chooses a context's kiln (R152): the spec does not state it (log entry 18). -/
opaque Config.kilnOf (coll : BitVec 12) (chunk : BitVec 24) : Fin 16

/-- Fast-mode division, square root and reciprocal, and the transcendental operations (R56, R100): how many units in the
last place the result lies from the correctly rounded one, within the stated bound. The operands are the opcode, the
format code and the operand codes; results are bit-identical on every JK7 (log entry 14). -/
opaque Config.ulpOff (op fmt : Nat) (a b : BitVec 64) : Int

/-- The KIND of the locator for the logarithm of a negative number: R64 names none (log entry 14). -/
opaque Config.logKind : BitVec 4

/-- SCH's cosine and integer power (R321): the same for the firmware's evaluation (log entry 15). -/
opaque Config.schUlpOff (op : Nat) (a b : BitVec 64) : Int

/-- The SEC ROM's SHA-384 (R429, block 1): a fixed value of the part that the spec does not state (log entry 8). -/
opaque Config.romHash : BitVec 384

/-- FW_VERSION of IDENT frames (R202): the firmware that the module runs, which the spec does not state (log entry 8). -/
opaque Config.fwVersion : BitVec 32

/-- The encoding of an X.509 certificate of `w` bits holding `key` and `serial`, signed with (r, s): SPDM 1.3's
encoding is not restated by the spec (log entry 23). -/
opaque Config.akCertBytes (key : BitVec 768) (serial : BitVec 64) (r s : BitVec 384) : List (BitVec 8)

/-- The bytes of SPDM, MCTP or PLDM message number `msg` with the given content: those standards' encodings are not restated by the
spec (log entry 23). -/
opaque Config.stdBytes (msg : Nat) (content : List (BitVec 8)) : List (BitVec 8)

/-- The digest that SPDM 1.3 signs for a transcript (R428, R430, log entry 23). -/
opaque Config.spdmDigest (transcript : List (BitVec 8)) : BitVec 384

end Sys2Proof
end

