-- ==== Sys2Proof/Machine/RegMap.lean ====
section
/-!
DEFINITION. Machine/RegMap.lean: the register map of R35, R36, R111-R113, R144, R181-R182, R222-R223, R252-R255,
R288-R289, R353-R356, R381-R384, R415-R418, R440-R441, R462-R463, R480-R481: for every register its block, offset,
instances, the masks of its field types (R10) and its value at reset, and one named field constant per field.
-/
namespace Sys2Proof.Machine

/-- The kinds of register block of R35. LNK, HBM and CL stand for 14, 8 and 128 blocks. -/
inductive Blk where
  | sys | cone | pwr | sec | sch | fab | route | pool | kln | dig | acc | img | log | apc | lnk | hbm | cl
  deriving DecidableEq, Repr

/-- One row of a register map: `count` registers of one layout at `off`, `off + stride`, ...
The masks name the bits of each field type of R10 (a bit in none of them is RO or reserved); `img` names the
RW and RWL bits whose Reset column names source I (R473); `rst` is the value at reset. -/
structure RegDesc where
  off : Nat
  stride : Nat
  count : Nat
  rw : Nat
  rw1c : Nat
  rc : Nat
  rwl : Nat
  wo : Nat
  img : Nat
  rst : Nat
  deriving DecidableEq, Repr

/-- A field: the key of its register (block index * 2^20 + offset), its lowest bit and its width. -/
structure Field where
  key : Nat
  lo : Nat
  wid : Nat
  deriving DecidableEq, Repr

/-- The registers of block kind SYS in offset order of the spec's table. -/
def regsSys : List RegDesc :=
  [⟨0x0, 0x0, 1, 0x0, 0x0, 0x0, 0x0, 0x0, 0x0, 0x4a4b0007b0070000⟩,
   ⟨0x8, 0x0, 1, 0x0, 0x0, 0x0, 0x0, 0x0, 0x0, 0x0⟩,
   ⟨0x100, 0x0, 1, 0x0, 0x0, 0x0, 0x0, 0x0, 0x0, 0x1000000000000000⟩,
   ⟨0x108, 0x0, 1, 0x0, 0x0, 0x200000, 0x0, 0x0, 0x0, 0x0⟩,
   ⟨0x110, 0x0, 1, 0xff, 0x0, 0x0, 0x0, 0x0, 0xff, 0x0⟩,
   ⟨0x118, 0x0, 1, 0x0, 0x0, 0x0, 0x0, 0x0, 0x0, 0x3200000000⟩,
   ⟨0x120, 0x0, 1, 0x0, 0x0, 0x0, 0x0, 0x0, 0x0, 0x0⟩,
   ⟨0x128, 0x0, 1, 0x0, 0x0, 0x0, 0x0, 0x0, 0x0, 0x0⟩,
   ⟨0x130, 0x0, 1, 0x0, 0x0, 0x0, 0x0, 0x0, 0x0, 0x0⟩,
   ⟨0x138, 0x0, 1, 0x0, 0x0, 0xffffffff, 0x0, 0x0, 0x0, 0x0⟩,
   ⟨0x140, 0x8, 4, 0xffffffffffffffff, 0x0, 0x0, 0x0, 0x0, 0xffffffffffffffff, 0x0⟩]

/-- The registers of block kind CONE in offset order of the spec's table. -/
def regsCone : List RegDesc :=
  [⟨0x0, 0x0, 1, 0x0, 0x0, 0x0, 0x0, 0x0, 0x0, 0x0⟩,
   ⟨0x8, 0x0, 1, 0x0, 0x0, 0xffff00000000, 0x0, 0x0, 0x0, 0xf00000000000000⟩,
   ⟨0x10, 0x0, 1, 0x3fff80ff, 0x0, 0x0, 0x0, 0x0, 0xff, 0xa⟩,
   ⟨0x18, 0x0, 1, 0x0, 0x0, 0x0, 0x0, 0xffffffffffffffff, 0x0, 0x0⟩,
   ⟨0x40, 0x20, 8, 0xffffffffffffffff, 0x0, 0x0, 0x0, 0x0, 0x0, 0x0⟩,
   ⟨0x48, 0x20, 8, 0x8300000000000000, 0x6000000000000000, 0x0, 0x0, 0x0, 0x0, 0x0⟩,
   ⟨0x50, 0x20, 8, 0xffffffffffffffff, 0x0, 0x0, 0x0, 0x0, 0x0, 0x0⟩,
   ⟨0x58, 0x20, 8, 0xffffffffffffffff, 0x0, 0x0, 0x0, 0x0, 0x0, 0x0⟩,
   ⟨0x140, 0x8, 12, 0x0, 0x0, 0x0, 0x0, 0x0, 0x0, 0x0⟩]

/-- The registers of block kind PWR in offset order of the spec's table. -/
def regsPwr : List RegDesc :=
  [⟨0x0, 0x0, 1, 0x0, 0x200000000000000, 0x0, 0x0, 0x0, 0x0, 0x7d0⟩,
   ⟨0x8, 0x0, 1, 0x0, 0x0, 0x0, 0x0, 0x0, 0x0, 0x0⟩,
   ⟨0x10, 0x0, 1, 0xfff, 0x0, 0x0, 0x0, 0x0, 0xfff, 0x7d0⟩,
   ⟨0x18, 0x0, 1, 0xfff, 0x0, 0x0, 0x0, 0x0, 0xfff, 0x7d0⟩,
   ⟨0x20, 0x0, 1, 0x0, 0x0, 0x0, 0x0, 0x0, 0x0, 0x0⟩,
   ⟨0x28, 0x0, 1, 0x0, 0x0, 0x0, 0x0, 0x0, 0x0, 0x0⟩,
   ⟨0x30, 0x0, 1, 0x0, 0x0, 0x0, 0x0, 0x0, 0x0, 0x0⟩,
   ⟨0x38, 0x0, 1, 0xffff, 0x0, 0x0, 0x0, 0x0, 0xffff, 0x64⟩,
   ⟨0x40, 0x0, 1, 0x3fff, 0x0, 0x0, 0x0, 0x0, 0x0, 0x0⟩,
   ⟨0x48, 0x0, 1, 0xffffffffffffffff, 0x0, 0x0, 0x0, 0x0, 0x0, 0x0⟩,
   ⟨0x50, 0x0, 1, 0x0, 0x0, 0xffffffffffffffff, 0x0, 0x0, 0x0, 0x0⟩,
   ⟨0x100, 0x8, 128, 0x1fff000000000, 0x0, 0x0, 0x0, 0x0, 0x0, 0x7d00007d0⟩]

/-- The registers of block kind SEC in offset order of the spec's table. -/
def regsSec : List RegDesc :=
  [⟨0x0, 0x0, 1, 0x0, 0x0, 0x0, 0x0, 0x0, 0x0, 0x0⟩,
   ⟨0x8, 0x0, 1, 0x0, 0x0, 0x0, 0x0, 0x0, 0x0, 0x0⟩,
   ⟨0x10, 0x0, 1, 0x0, 0x0, 0x0, 0x0, 0x0, 0x0, 0x0⟩,
   ⟨0x18, 0x0, 1, 0x0, 0x0, 0x0, 0x0, 0x80, 0x0, 0x0⟩,
   ⟨0x20, 0x0, 1, 0x0, 0x0, 0x0, 0x0, 0x1, 0x0, 0x0⟩,
   ⟨0x48, 0x0, 1, 0x0, 0x0, 0xffffffffffffffff, 0x0, 0x0, 0x0, 0x0⟩,
   ⟨0x28, 0x8, 4, 0x0, 0x0, 0x0, 0x0, 0x0, 0x0, 0x0⟩]

/-- The registers of block kind SCH in offset order of the spec's table. -/
def regsSch : List RegDesc :=
  [⟨0x0, 0x8, 64, 0x80000000, 0x0, 0xffffffff00000000, 0x0, 0x0, 0x80000000, 0x80000000⟩,
   ⟨0x200, 0x0, 1, 0xfffffffff01f, 0x0, 0x0, 0x0, 0x0, 0xfffffffff01f, 0x7ffe00000a⟩,
   ⟨0x208, 0x0, 1, 0x0, 0x0, 0xffff000000000000, 0x0, 0x0, 0x0, 0x0⟩,
   ⟨0x210, 0x0, 1, 0xffffffff, 0x0, 0x0, 0x0, 0x0, 0x0, 0x0⟩,
   ⟨0x1000, 0x8, 512, 0x0, 0x0, 0x0, 0x0, 0xffffffffffffffff, 0x0, 0x0⟩]

/-- The registers of block kind FAB in offset order of the spec's table. -/
def regsFab : List RegDesc :=
  [⟨0x0, 0x0, 1, 0xffffffffff, 0x0, 0x0, 0x0, 0x0, 0xffffffffff, 0x320a0a0a0a⟩,
   ⟨0x8, 0x8, 2, 0xffffffffffffff, 0x0, 0x0, 0x0, 0x0, 0xffffffffffffff, 0x0⟩,
   ⟨0x18, 0x0, 1, 0xffff, 0x0, 0x0, 0x0, 0x0, 0xffff, 0x40⟩,
   ⟨0x20, 0x0, 1, 0x7ffff, 0x0, 0x0, 0x0, 0x0, 0x7ffff, 0xc350⟩,
   ⟨0x28, 0x0, 1, 0xffffffff0f, 0x0, 0x0, 0x0, 0x0, 0xffffffff0f, 0x200640402⟩,
   ⟨0x30, 0x0, 1, 0x171f1f, 0x0, 0x0, 0x0, 0x0, 0x0, 0x0⟩,
   ⟨0x38, 0x0, 1, 0x0, 0x0, 0xffffffff00000000, 0x0, 0x0, 0x0, 0x0⟩,
   ⟨0xc0, 0x0, 1, 0x0, 0x0, 0xffffffffffffffff, 0x0, 0x0, 0x0, 0x0⟩,
   ⟨0xc8, 0x0, 1, 0x0, 0x0, 0xffffffffffffffff, 0x0, 0x0, 0x0, 0x0⟩,
   ⟨0xd0, 0x0, 1, 0x0, 0x0, 0xffffffffffffffff, 0x0, 0x0, 0x0, 0x0⟩,
   ⟨0xd8, 0x0, 1, 0x0, 0x0, 0xffffffffffffffff, 0x0, 0x0, 0x0, 0x0⟩,
   ⟨0x40, 0x8, 8, 0xffffffff, 0x0, 0x0, 0x0, 0x0, 0xffffffff, 0x0⟩,
   ⟨0x80, 0x8, 8, 0x0, 0x0, 0xffffffffffffffff, 0x0, 0x0, 0x0, 0x0⟩]

/-- The registers of block kind ROUTE in offset order of the spec's table. -/
def regsRoute : List RegDesc :=
  [⟨0x0, 0x0, 1, 0x0, 0x0, 0x0, 0x0, 0x0, 0x0, 0x0⟩,
   ⟨0x8, 0x0, 1, 0x0, 0x0, 0x0, 0x0, 0x0, 0x0, 0x0⟩,
   ⟨0x10, 0x0, 1, 0xfff, 0x0, 0x0, 0x0, 0x0, 0x0, 0x0⟩,
   ⟨0x18, 0x0, 1, 0x0, 0x0, 0x0, 0x0, 0x0, 0x0, 0x0⟩,
   ⟨0x20, 0x0, 1, 0x0, 0x0, 0x0, 0x0, 0x0, 0x0, 0x0⟩,
   ⟨0x28, 0x0, 1, 0xffffffffffffffff, 0x0, 0x0, 0x0, 0x0, 0xffffffffffffffff, 0x0⟩,
   ⟨0x30, 0x0, 1, 0xffffffffffffffff, 0x0, 0x0, 0x0, 0x0, 0xffffffffffffffff, 0x0⟩,
   ⟨0x38, 0x0, 1, 0xffff07ff, 0x0, 0x0, 0x0, 0x0, 0xffff07ff, 0xa140010⟩,
   ⟨0x40, 0x0, 1, 0x800000000fffffff, 0x0, 0x0, 0x0, 0x0, 0x800000000fffffff, 0x0⟩,
   ⟨0x48, 0x0, 1, 0x3, 0x0, 0x0, 0x0, 0x0, 0x3, 0x0⟩,
   ⟨0x70, 0x0, 1, 0x0, 0x3f, 0x0, 0x0, 0x0, 0x0, 0x0⟩,
   ⟨0x78, 0x0, 1, 0x7fff, 0x0, 0x0, 0x0, 0x0, 0x0, 0x0⟩,
   ⟨0x80, 0x0, 1, 0xffffffffffffffff, 0x0, 0x0, 0x0, 0x0, 0x0, 0x0⟩,
   ⟨0xc0, 0x0, 1, 0x0, 0x0, 0xffffffffffffffff, 0x0, 0x0, 0x0, 0x0⟩,
   ⟨0xc8, 0x0, 1, 0x0, 0x0, 0xffffffffffffffff, 0x0, 0x0, 0x0, 0x0⟩,
   ⟨0xd0, 0x0, 1, 0x0, 0x0, 0xffffffffffffffff, 0x0, 0x0, 0x0, 0x0⟩,
   ⟨0xd8, 0x0, 1, 0x0, 0x0, 0xffffffffffffffff, 0x0, 0x0, 0x0, 0x0⟩,
   ⟨0xe0, 0x0, 1, 0x0, 0x0, 0xffffffffffffffff, 0x0, 0x0, 0x0, 0x0⟩,
   ⟨0xe8, 0x0, 1, 0x0, 0x0, 0xffffffffffffffff, 0x0, 0x0, 0x0, 0x0⟩,
   ⟨0xf0, 0x0, 1, 0x0, 0x0, 0xffffffffffffffff, 0x0, 0x0, 0x0, 0x0⟩,
   ⟨0x50, 0x8, 4, 0xe000000000003fff, 0x0, 0x0, 0x0, 0x0, 0xe000000000003fff, 0x0⟩]

/-- The registers of block kind POOL in offset order of the spec's table. -/
def regsPool : List RegDesc :=
  [⟨0x0, 0x0, 1, 0xffffffffffff, 0x0, 0x0, 0x0, 0x0, 0xffffffffffff, 0x10008002000⟩,
   ⟨0x8, 0x8, 4, 0x0, 0x0, 0x7ffff00000000, 0x0, 0x0, 0x0, 0x0⟩,
   ⟨0x28, 0x0, 1, 0x0, 0x0, 0x0, 0x0, 0x0, 0x0, 0x0⟩,
   ⟨0x30, 0x0, 1, 0x0, 0x8000000000000000, 0x0, 0x0, 0x0, 0x0, 0x0⟩,
   ⟨0x38, 0x0, 1, 0x3ffff, 0x0, 0x0, 0x0, 0x0, 0x0, 0x0⟩,
   ⟨0x40, 0x0, 1, 0x0, 0x0, 0x0, 0x0, 0x0, 0x0, 0x0⟩,
   ⟨0x80, 0x0, 1, 0x0, 0x0, 0xffffffffffffffff, 0x0, 0x0, 0x0, 0x0⟩,
   ⟨0x88, 0x0, 1, 0x0, 0x0, 0xffffffffffffffff, 0x0, 0x0, 0x0, 0x0⟩,
   ⟨0x90, 0x0, 1, 0x0, 0x0, 0xffffffffffffffff, 0x0, 0x0, 0x0, 0x0⟩,
   ⟨0x98, 0x0, 1, 0x0, 0x0, 0xffffffffffffffff, 0x0, 0x0, 0x0, 0x0⟩]

/-- The registers of block kind KLN in offset order of the spec's table. -/
def regsKln : List RegDesc :=
  [⟨0x0, 0x0, 1, 0xffffffff, 0x0, 0x0, 0x0, 0x0, 0xffffffff, 0x1900064⟩,
   ⟨0x8, 0x0, 1, 0x1fffff, 0x0, 0x0, 0x0, 0x0, 0x1fffff, 0x100000⟩,
   ⟨0x10, 0x0, 1, 0x0, 0x0, 0x0, 0x0, 0x0, 0x0, 0x0⟩,
   ⟨0x18, 0x0, 1, 0xfffffffff000, 0x0, 0x0, 0x0, 0x0, 0x0, 0x0⟩,
   ⟨0x20, 0x0, 1, 0xfffffff, 0x0, 0x0, 0x0, 0x0, 0x0, 0x0⟩,
   ⟨0x28, 0x0, 1, 0xfffffffff000, 0x0, 0x0, 0x0, 0x0, 0x0, 0x0⟩,
   ⟨0x30, 0x0, 1, 0x1, 0x0, 0x0, 0x0, 0x2, 0x0, 0x0⟩,
   ⟨0x38, 0x0, 1, 0x1fff, 0x0, 0x0, 0x0, 0x0, 0x0, 0x0⟩,
   ⟨0x40, 0x0, 1, 0x0, 0x0, 0x0, 0x0, 0x0, 0x0, 0x0⟩,
   ⟨0x48, 0x0, 1, 0x0, 0x8000000000000000, 0x0, 0x0, 0x0, 0x0, 0x0⟩,
   ⟨0x50, 0x0, 1, 0x0, 0x0, 0xffffffffffffffff, 0x0, 0x0, 0x0, 0x0⟩,
   ⟨0x80, 0x0, 1, 0x0, 0x0, 0xffffffffffffffff, 0x0, 0x0, 0x0, 0x0⟩,
   ⟨0x88, 0x0, 1, 0x0, 0x0, 0xffffffffffffffff, 0x0, 0x0, 0x0, 0x0⟩,
   ⟨0x90, 0x0, 1, 0x0, 0x0, 0xffffffffffffffff, 0x0, 0x0, 0x0, 0x0⟩,
   ⟨0x98, 0x0, 1, 0x0, 0x0, 0xffffffffffffffff, 0x0, 0x0, 0x0, 0x0⟩,
   ⟨0xa0, 0x0, 1, 0x0, 0x0, 0xffffffffffffffff, 0x0, 0x0, 0x0, 0x0⟩,
   ⟨0xa8, 0x0, 1, 0x0, 0x0, 0xffffffffffffffff, 0x0, 0x0, 0x0, 0x0⟩,
   ⟨0xb0, 0x0, 1, 0x0, 0x0, 0xffffffffffffffff, 0x0, 0x0, 0x0, 0x0⟩,
   ⟨0xb8, 0x0, 1, 0x0, 0x0, 0xffffffffffffffff, 0x0, 0x0, 0x0, 0x0⟩,
   ⟨0xc0, 0x0, 1, 0x0, 0x0, 0xffffffffffffffff, 0x0, 0x0, 0x0, 0x0⟩]

/-- The registers of block kind DIG in offset order of the spec's table. -/
def regsDig : List RegDesc :=
  [⟨0x0, 0x0, 1, 0xffffffffffffffff, 0x0, 0x0, 0x0, 0x0, 0x0, 0x0⟩,
   ⟨0x8, 0x0, 1, 0x1, 0x0, 0x0, 0x0, 0x0, 0x1, 0x0⟩,
   ⟨0x10, 0x0, 1, 0x1ffff, 0x0, 0x0, 0x0, 0x0, 0x1ffff, 0x0⟩,
   ⟨0x18, 0x0, 1, 0xfffffffff01f, 0x0, 0x0, 0x0, 0x0, 0x0, 0x0⟩,
   ⟨0x20, 0x0, 1, 0x0, 0x0, 0xffff000000000000, 0x0, 0x0, 0x0, 0x0⟩,
   ⟨0x28, 0x0, 1, 0x0, 0x0, 0x0, 0x0, 0x0, 0x0, 0x0⟩,
   ⟨0x30, 0x0, 1, 0x0, 0x0, 0x0, 0x0, 0x0, 0x0, 0x0⟩,
   ⟨0x40, 0x8, 4, 0x0, 0x0, 0xffffffffffffffff, 0x0, 0x0, 0x0, 0x0⟩,
   ⟨0x2000, 0x8, 1024, 0x0, 0x0, 0x0, 0x0, 0x0, 0x0, 0x0⟩]

/-- The registers of block kind ACC in offset order of the spec's table. -/
def regsAcc : List RegDesc :=
  [⟨0x0, 0x0, 1, 0x1, 0x0, 0x0, 0x0, 0x0, 0x0, 0x0⟩,
   ⟨0x8, 0x0, 1, 0xffff, 0x0, 0x0, 0x0, 0x0, 0x0, 0x0⟩,
   ⟨0x10, 0x0, 1, 0xffffffffffffffff, 0x0, 0x0, 0x0, 0x0, 0x0, 0x0⟩,
   ⟨0x18, 0x0, 1, 0x0, 0x8000000000000000, 0x0, 0x0, 0x0, 0x0, 0x0⟩,
   ⟨0x20, 0x0, 1, 0x0, 0x0, 0xffffffffffffffff, 0x0, 0x0, 0x0, 0x0⟩,
   ⟨0x28, 0x0, 1, 0x0, 0x0, 0xffffffffffffffff, 0x0, 0x0, 0x0, 0x0⟩,
   ⟨0x100, 0x10, 64, 0x8000fffffffff000, 0x0, 0x0, 0x0, 0x0, 0x0, 0x0⟩,
   ⟨0x108, 0x10, 64, 0xfffffffff000, 0x0, 0x0, 0x0, 0x0, 0x0, 0x0⟩]

/-- The registers of block kind IMG in offset order of the spec's table. -/
def regsImg : List RegDesc :=
  [⟨0x0, 0x0, 1, 0xffffffff0f00, 0x0, 0x0, 0x0, 0xf, 0x0, 0x0⟩,
   ⟨0x8, 0x0, 1, 0xffffffffffff, 0x0, 0x0, 0x0, 0x0, 0x0, 0x0⟩,
   ⟨0x10, 0x0, 1, 0xffffffff, 0x0, 0x0, 0x0, 0x0, 0x0, 0x0⟩,
   ⟨0x18, 0x0, 1, 0x0, 0x0, 0x0, 0x0, 0x0, 0x0, 0x0⟩,
   ⟨0x20, 0x0, 1, 0x0, 0x0, 0x0, 0x0, 0x0, 0x0, 0x0⟩]

/-- The registers of block kind LOG in offset order of the spec's table. -/
def regsLog : List RegDesc :=
  [⟨0x0, 0x0, 1, 0x0, 0x0, 0x0, 0xffffff000000, 0x0, 0xffffff000000, 0x7fff000000⟩,
   ⟨0x8, 0x0, 1, 0x0, 0x0, 0x0, 0x0, 0x0, 0x0, 0x0⟩,
   ⟨0x10, 0x0, 1, 0x0, 0x0, 0xffffffffffffffff, 0x0, 0x0, 0x0, 0x0⟩]

/-- The registers of block kind APC in offset order of the spec's table. -/
def regsApc : List RegDesc :=
  [⟨0x0, 0x0, 1, 0xffffffff, 0x0, 0x0, 0x0, 0x0, 0x0, 0x0⟩,
   ⟨0x8, 0x0, 1, 0xfffffffffffc, 0x0, 0x0, 0x0, 0x0, 0x0, 0x0⟩,
   ⟨0x10, 0x0, 1, 0x0, 0x0, 0x0, 0x0, 0x0, 0x0, 0x0⟩]

/-- The registers of block kind LNK in offset order of the spec's table. -/
def regsLnk : List RegDesc :=
  [⟨0x0, 0x0, 1, 0x731, 0x0, 0x0, 0x0, 0x800, 0x701, 0x301⟩,
   ⟨0x8, 0x0, 1, 0x0, 0x0, 0x0, 0x0, 0x0, 0x0, 0x1000000000000000⟩,
   ⟨0x10, 0x0, 1, 0x0, 0x0, 0x0, 0x0, 0x0, 0x0, 0x0⟩,
   ⟨0x18, 0x0, 1, 0x0, 0x0, 0x0, 0x0, 0x0, 0x0, 0x0⟩,
   ⟨0x20, 0x0, 1, 0xfffffff000000000, 0x0, 0x0, 0x0, 0x0, 0xffffffe000000000, 0x0⟩,
   ⟨0x28, 0x0, 1, 0xffff0000ffff, 0x0, 0x0, 0x0, 0x0, 0xffff0000ffff, 0xa000000fa⟩,
   ⟨0x30, 0x0, 1, 0xf0, 0x0, 0x0, 0x0, 0x0, 0x0, 0x0⟩,
   ⟨0x38, 0x0, 1, 0x1fffff0000000000, 0x0, 0x0, 0x0, 0x4000000000000000, 0x0, 0x0⟩,
   ⟨0x40, 0x0, 1, 0x0, 0x0, 0xffffffffffffffff, 0x0, 0x0, 0x0, 0x0⟩,
   ⟨0x48, 0x0, 1, 0x0, 0x0, 0xffffffffffffffff, 0x0, 0x0, 0x0, 0x0⟩,
   ⟨0x50, 0x0, 1, 0x0, 0x0, 0xffffffffffffffff, 0x0, 0x0, 0x0, 0x0⟩,
   ⟨0x58, 0x0, 1, 0x0, 0x0, 0xffffffffffffffff, 0x0, 0x0, 0x0, 0x0⟩,
   ⟨0x60, 0x0, 1, 0x0, 0x0, 0xffffffffffffffff, 0x0, 0x0, 0x0, 0x0⟩,
   ⟨0x68, 0x0, 1, 0x0, 0x0, 0xffffffffffffffff, 0x0, 0x0, 0x0, 0x0⟩,
   ⟨0x70, 0x0, 1, 0x0, 0x0, 0xffffffffffffffff, 0x0, 0x0, 0x0, 0x0⟩,
   ⟨0x78, 0x0, 1, 0x0, 0x0, 0xffffffffffffffff, 0x0, 0x0, 0x0, 0x0⟩,
   ⟨0x80, 0x0, 1, 0x0, 0x0, 0xffffffffffffffff, 0x0, 0x0, 0x0, 0x0⟩,
   ⟨0x88, 0x0, 1, 0x0, 0x0, 0xffffffffffffffff, 0x0, 0x0, 0x0, 0x0⟩,
   ⟨0x100, 0x8, 17, 0x0, 0x0, 0xffffffffffffffff, 0x0, 0x0, 0x0, 0x0⟩]

/-- The registers of block kind HBM in offset order of the spec's table. -/
def regsHbm : List RegDesc :=
  [⟨0x0, 0x0, 1, 0x0, 0x0, 0x0, 0x0, 0x0, 0x0, 0x0⟩,
   ⟨0x8, 0x0, 1, 0x3ff, 0x0, 0x0, 0x0, 0x0, 0x3ff, 0x18⟩,
   ⟨0x10, 0x0, 1, 0xff, 0x8000000000000000, 0x0, 0x0, 0x0, 0xff, 0xa⟩,
   ⟨0x18, 0x0, 1, 0x0, 0x8000000000000000, 0x0, 0x0, 0x0, 0x0, 0x0⟩,
   ⟨0x20, 0x0, 1, 0xbffffffffffffff8, 0x0, 0x0, 0x0, 0x0, 0x0, 0x0⟩,
   ⟨0x40, 0x0, 1, 0x0, 0x0, 0xffffffffffffffff, 0x0, 0x0, 0x0, 0x0⟩,
   ⟨0x48, 0x0, 1, 0x0, 0x0, 0xffffffffffffffff, 0x0, 0x0, 0x0, 0x0⟩,
   ⟨0x50, 0x0, 1, 0x0, 0x0, 0xffffffffffffffff, 0x0, 0x0, 0x0, 0x0⟩,
   ⟨0x58, 0x0, 1, 0x0, 0x0, 0xffffffffffffffff, 0x0, 0x0, 0x0, 0x0⟩,
   ⟨0x60, 0x0, 1, 0x0, 0x0, 0xffffffffffffffff, 0x0, 0x0, 0x0, 0x0⟩]

/-- The registers of block kind CL in offset order of the spec's table. -/
def regsCl : List RegDesc :=
  [⟨0x0, 0x0, 1, 0x77fffff, 0x0, 0x0, 0x0, 0x0, 0x0, 0x0⟩,
   ⟨0x8, 0x0, 1, 0x0, 0x0, 0x0, 0x0, 0x7, 0x0, 0x0⟩,
   ⟨0x10, 0x0, 1, 0x0, 0x0, 0x0, 0x0, 0x0, 0x0, 0x0⟩,
   ⟨0x18, 0x0, 1, 0x70, 0x0, 0x0, 0x0, 0x0, 0x70, 0x0⟩,
   ⟨0x20, 0x0, 1, 0xffffffffffffffff, 0x0, 0x0, 0x0, 0x0, 0x0, 0x0⟩,
   ⟨0x28, 0x0, 1, 0x0, 0xff, 0x0, 0x0, 0x0, 0x0, 0x0⟩,
   ⟨0x30, 0x0, 1, 0x0, 0x8000000000000000, 0x0, 0x0, 0x0, 0x0, 0x0⟩,
   ⟨0x38, 0x0, 1, 0x0, 0x0, 0x0, 0x0, 0x0, 0x0, 0x0⟩,
   ⟨0x40, 0x0, 1, 0x0, 0x0, 0x0, 0x0, 0x0, 0x0, 0x0⟩,
   ⟨0x48, 0x0, 1, 0x0, 0x0, 0x0, 0x0, 0x0, 0x0, 0x0⟩,
   ⟨0x50, 0x0, 1, 0x0, 0x0, 0x0, 0x0, 0x0, 0x0, 0x0⟩,
   ⟨0x58, 0x0, 1, 0x0, 0x0, 0x0, 0x0, 0x0, 0x0, 0xfff8000000000000⟩,
   ⟨0x60, 0x0, 1, 0xf7ff000, 0x0, 0xffff000000000000, 0x0, 0x0, 0x0, 0x0⟩,
   ⟨0x68, 0x0, 1, 0xffffffffffffffff, 0x0, 0x0, 0x0, 0x0, 0x0, 0x0⟩,
   ⟨0x70, 0x0, 1, 0xffffffffffffffff, 0x0, 0x0, 0x0, 0x0, 0x0, 0x0⟩,
   ⟨0x80, 0x8, 8, 0x877ff000, 0x0, 0xffff0000000000, 0x0, 0x0, 0x0, 0x0⟩,
   ⟨0x100, 0x8, 32, 0xffffffffffffffff, 0x0, 0x0, 0x0, 0x0, 0x0, 0x0⟩]

/-- The rows of one block kind. -/
def blkRegs : Blk → List RegDesc
  | .sys => regsSys
  | .cone => regsCone
  | .pwr => regsPwr
  | .sec => regsSec
  | .sch => regsSch
  | .fab => regsFab
  | .route => regsRoute
  | .pool => regsPool
  | .kln => regsKln
  | .dig => regsDig
  | .acc => regsAcc
  | .img => regsImg
  | .log => regsLog
  | .apc => regsApc
  | .lnk => regsLnk
  | .hbm => regsHbm
  | .cl => regsCl

def sysId : Nat := 0x0 * 0x100000 + 0x0
def sysId_PART : Field := ⟨sysId, 32, 32⟩
def sysId_STEPPING : Field := ⟨sysId, 24, 8⟩
def sysId_DIES : Field := ⟨sysId, 16, 8⟩
def sysSerial : Nat := 0x0 * 0x100000 + 0x8
def sysSerial_SERIAL : Field := ⟨sysSerial, 0, 64⟩
def sysState : Nat := 0x0 * 0x100000 + 0x100
def sysState_STATE : Field := ⟨sysState, 60, 4⟩
def sysState_EMERG : Field := ⟨sysState, 59, 1⟩
def sysState_ORPH : Field := ⟨sysState, 58, 1⟩
def sysState_DEGR : Field := ⟨sysState, 57, 1⟩
def sysState_FPEND : Field := ⟨sysState, 56, 1⟩
def sysState_HOLD : Field := ⟨sysState, 53, 3⟩
def sysState_DEGR_CAUSE : Field := ⟨sysState, 50, 3⟩
def sysState_FCAUSE : Field := ⟨sysState, 40, 8⟩
def sysState_FUNIT : Field := ⟨sysState, 32, 8⟩
def sysFwLoad : Nat := 0x0 * 0x100000 + 0x108
def sysFwLoad_UTIL_SEC : Field := ⟨sysFwLoad, 56, 8⟩
def sysFwLoad_UTIL_PWR : Field := ⟨sysFwLoad, 48, 8⟩
def sysFwLoad_UTIL_SCH : Field := ⟨sysFwLoad, 40, 8⟩
def sysFwLoad_UTIL_CCC : Field := ⟨sysFwLoad, 32, 8⟩
def sysFwLoad_CCC_MAX : Field := ⟨sysFwLoad, 25, 7⟩
def sysFwLoad_STRETCH : Field := ⟨sysFwLoad, 22, 2⟩
def sysFwLoad_LOGDROP : Field := ⟨sysFwLoad, 21, 1⟩
def sysFwLoad_FPEND : Field := ⟨sysFwLoad, 20, 1⟩
def sysFwLoad_FWF : Field := ⟨sysFwLoad, 16, 4⟩
def sysExpertEn : Nat := 0x0 * 0x100000 + 0x110
def sysExpertEn_EN : Field := ⟨sysExpertEn, 0, 8⟩
def sysPolicy : Nat := 0x0 * 0x100000 + 0x118
def sysPolicy_HB_TMO : Field := ⟨sysPolicy, 32, 16⟩
def sysPolicy_ORPHAN : Field := ⟨sysPolicy, 8, 2⟩
def sysFwSlot : Nat := 0x0 * 0x100000 + 0x120
def sysFwSlot_DEFER : Field := ⟨sysFwSlot, 8, 4⟩
def sysFwSlot_SLOT : Field := ⟨sysFwSlot, 0, 3⟩
def sysCccSlotLo : Nat := 0x0 * 0x100000 + 0x128
def sysCccSlotLo_SLOT : Field := ⟨sysCccSlotLo, 0, 64⟩
def sysCccSlotHi : Nat := 0x0 * 0x100000 + 0x130
def sysCccSlotHi_SLOT : Field := ⟨sysCccSlotHi, 0, 64⟩
def sysWdt : Nat := 0x0 * 0x100000 + 0x138
def sysWdt_COUNTS : Field := ⟨sysWdt, 0, 32⟩
def sysTraceEn (k : Nat) : Nat := 0x0 * 0x100000 + 0x140 + 0x8 * k
def sysTraceEn_EN (k : Nat) : Field := ⟨sysTraceEn k, 0, 64⟩
def coneCount : Nat := 0x1 * 0x100000 + 0x0
def coneCount_COUNT : Field := ⟨coneCount, 0, 64⟩
def coneStatus : Nat := 0x1 * 0x100000 + 0x8
def coneStatus_STATE : Field := ⟨coneStatus, 62, 2⟩
def coneStatus_ROOT : Field := ⟨coneStatus, 61, 1⟩
def coneStatus_PARENT : Field := ⟨coneStatus, 56, 4⟩
def coneStatus_DIST : Field := ⟨coneStatus, 50, 6⟩
def coneStatus_STEPS : Field := ⟨coneStatus, 32, 16⟩
def coneStatus_OFFSET : Field := ⟨coneStatus, 0, 32⟩
def coneCtrl : Nat := 0x1 * 0x100000 + 0x10
def coneCtrl_ROOT_OVR : Field := ⟨coneCtrl, 16, 14⟩
def coneCtrl_OVR_EN : Field := ⟨coneCtrl, 15, 1⟩
def coneCtrl_PERIOD : Field := ⟨coneCtrl, 0, 8⟩
def coneSet : Nat := 0x1 * 0x100000 + 0x18
def coneSet_COUNT : Field := ⟨coneSet, 0, 64⟩
def coneAlarmAt (k : Nat) : Nat := 0x1 * 0x100000 + 0x40 + 0x20 * k
def coneAlarmAt_AT (k : Nat) : Field := ⟨coneAlarmAt k, 0, 64⟩
def coneAlarmCtrl (k : Nat) : Nat := 0x1 * 0x100000 + 0x48 + 0x20 * k
def coneAlarmCtrl_EN (k : Nat) : Field := ⟨coneAlarmCtrl k, 63, 1⟩
def coneAlarmCtrl_FIRED (k : Nat) : Field := ⟨coneAlarmCtrl k, 62, 1⟩
def coneAlarmCtrl_LATE (k : Nat) : Field := ⟨coneAlarmCtrl k, 61, 1⟩
def coneAlarmCtrl_ACTION (k : Nat) : Field := ⟨coneAlarmCtrl k, 56, 2⟩
def coneAlarmSelLo (k : Nat) : Nat := 0x1 * 0x100000 + 0x50 + 0x20 * k
def coneAlarmSelLo_SEL (k : Nat) : Field := ⟨coneAlarmSelLo k, 0, 64⟩
def coneAlarmSelHi (k : Nat) : Nat := 0x1 * 0x100000 + 0x58 + 0x20 * k
def coneAlarmSelHi_SEL (k : Nat) : Field := ⟨coneAlarmSelHi k, 0, 64⟩
def coneDelay (k : Nat) : Nat := 0x1 * 0x100000 + 0x140 + 0x8 * k
def coneDelay_VALID (k : Nat) : Field := ⟨coneDelay k, 63, 1⟩
def coneDelay_DELAY (k : Nat) : Field := ⟨coneDelay k, 0, 32⟩
def pwrStatus : Nat := 0x2 * 0x100000 + 0x0
def pwrStatus_LAST_TRIP : Field := ⟨pwrStatus, 57, 1⟩
def pwrStatus_LIMSTAGE : Field := ⟨pwrStatus, 55, 2⟩
def pwrStatus_EMSRC : Field := ⟨pwrStatus, 40, 8⟩
def pwrStatus_THR : Field := ⟨pwrStatus, 32, 8⟩
def pwrStatus_FCAP : Field := ⟨pwrStatus, 0, 12⟩
def pwrIn : Nat := 0x2 * 0x100000 + 0x8
def pwrIn_VIN : Field := ⟨pwrIn, 48, 16⟩
def pwrIn_IIN : Field := ⟨pwrIn, 32, 16⟩
def pwrIn_PIN : Field := ⟨pwrIn, 0, 16⟩
def pwrCap : Nat := 0x2 * 0x100000 + 0x10
def pwrCap_CAP : Field := ⟨pwrCap, 0, 12⟩
def pwrFmax : Nat := 0x2 * 0x100000 + 0x18
def pwrFmax_FMAX : Field := ⟨pwrFmax, 0, 12⟩
def pwrTol : Nat := 0x2 * 0x100000 + 0x20
def pwrTol_TOL : Field := ⟨pwrTol, 0, 32⟩
def pwrTherm : Nat := 0x2 * 0x100000 + 0x28
def pwrTherm_TMAX : Field := ⟨pwrTherm, 56, 8⟩
def pwrTherm_SENSOR : Field := ⟨pwrTherm, 48, 8⟩
def pwrTherm_HMAX : Field := ⟨pwrTherm, 40, 8⟩
def pwrCoolant : Nat := 0x2 * 0x100000 + 0x30
def pwrCoolant_INLET : Field := ⟨pwrCoolant, 48, 16⟩
def pwrCoolant_OUTLET : Field := ⟨pwrCoolant, 32, 16⟩
def pwrCoolant_FLOW : Field := ⟨pwrCoolant, 16, 16⟩
def pwrNotice : Nat := 0x2 * 0x100000 + 0x38
def pwrNotice_INTERVAL : Field := ⟨pwrNotice, 0, 16⟩
def pwrLsleep : Nat := 0x2 * 0x100000 + 0x40
def pwrLsleep_MASK : Field := ⟨pwrLsleep, 0, 14⟩
def pwrLsleepAt : Nat := 0x2 * 0x100000 + 0x48
def pwrLsleepAt_CONE : Field := ⟨pwrLsleepAt, 0, 64⟩
def pwrLim : Nat := 0x2 * 0x100000 + 0x50
def pwrLim_STAGE2 : Field := ⟨pwrLim, 32, 32⟩
def pwrLim_STAGE1 : Field := ⟨pwrLim, 0, 32⟩
def pwrCl (k : Nat) : Nat := 0x2 * 0x100000 + 0x100 + 0x8 * k
def pwrCl_STATE (k : Nat) : Field := ⟨pwrCl k, 61, 3⟩
def pwrCl_FORCE_EN (k : Nat) : Field := ⟨pwrCl k, 48, 1⟩
def pwrCl_FFORCE (k : Nat) : Field := ⟨pwrCl k, 36, 12⟩
def pwrCl_FTHERM (k : Nat) : Field := ⟨pwrCl k, 24, 12⟩
def pwrCl_FREQ (k : Nat) : Field := ⟨pwrCl k, 0, 12⟩
def secStatus : Nat := 0x3 * 0x100000 + 0x0
def secStatus_APPROVED : Field := ⟨secStatus, 63, 1⟩
def secStatus_ERROR : Field := ⟨secStatus, 62, 1⟩
def secStatus_ETEST : Field := ⟨secStatus, 48, 8⟩
def secFuses : Nat := 0x3 * 0x100000 + 0x8
def secFuses_IDK_DEAD : Field := ⟨secFuses, 9, 1⟩
def secFuses_OWNER : Field := ⟨secFuses, 8, 1⟩
def secFuses_SVN : Field := ⟨secFuses, 0, 7⟩
def secBoot : Nat := 0x3 * 0x100000 + 0x10
def secBoot_FAILPROC : Field := ⟨secBoot, 12, 3⟩
def secBoot_FALLBACK : Field := ⟨secBoot, 8, 4⟩
def secBoot_DONE : Field := ⟨secBoot, 4, 1⟩
def secBoot_RESULT : Field := ⟨secBoot, 0, 4⟩
def secDbg : Nat := 0x3 * 0x100000 + 0x18
def secDbg_CLOSE : Field := ⟨secDbg, 7, 1⟩
def secDbg_RESULT : Field := ⟨secDbg, 4, 3⟩
def secDbg_SIGNER : Field := ⟨secDbg, 3, 1⟩
def secDbg_LIVE : Field := ⟨secDbg, 2, 1⟩
def secDbg_SEEN : Field := ⟨secDbg, 1, 1⟩
def secDbg_SESSION : Field := ⟨secDbg, 0, 1⟩
def secChalGen : Nat := 0x3 * 0x100000 + 0x20
def secChalGen_VALID : Field := ⟨secChalGen, 1, 1⟩
def secChalGen_GEN : Field := ⟨secChalGen, 0, 1⟩
def secCntAuth : Nat := 0x3 * 0x100000 + 0x48
def secCntAuth_COUNT : Field := ⟨secCntAuth, 0, 64⟩
def secChal (k : Nat) : Nat := 0x3 * 0x100000 + 0x28 + 0x8 * k
def secChal_CHAL (k : Nat) : Field := ⟨secChal k, 0, 64⟩
def schQ (k : Nat) : Nat := 0x4 * 0x100000 + 0x0 + 0x8 * k
def schQ_BUSY (k : Nat) : Field := ⟨schQ k, 32, 32⟩
def schQ_EN (k : Nat) : Field := ⟨schQ k, 31, 1⟩
def schQ_COUNT (k : Nat) : Field := ⟨schQ k, 16, 5⟩
def schHring : Nat := 0x4 * 0x100000 + 0x200
def schHring_BASE : Field := ⟨schHring, 12, 36⟩
def schHring_SIZE : Field := ⟨schHring, 0, 5⟩
def schHringHead : Nat := 0x4 * 0x100000 + 0x208
def schHringHead_LOST : Field := ⟨schHringHead, 48, 16⟩
def schHringHead_HEAD : Field := ⟨schHringHead, 0, 32⟩
def schHringTail : Nat := 0x4 * 0x100000 + 0x210
def schHringTail_TAIL : Field := ⟨schHringTail, 0, 32⟩
def schSub (k : Nat) : Nat := 0x4 * 0x100000 + 0x1000 + 0x8 * k
def schSub_WORD (k : Nat) : Field := ⟨schSub k, 0, 64⟩
def fabArb : Nat := 0x5 * 0x100000 + 0x0
def fabArb_CAP6 : Field := ⟨fabArb, 32, 8⟩
def fabArb_FLOOR6 : Field := ⟨fabArb, 24, 8⟩
def fabArb_FLOOR5 : Field := ⟨fabArb, 16, 8⟩
def fabArb_FLOOR4 : Field := ⟨fabArb, 8, 8⟩
def fabArb_FLOOR3 : Field := ⟨fabArb, 0, 8⟩
def fabFwdMode (k : Nat) : Nat := 0x5 * 0x100000 + 0x8 + 0x8 * k
def fabFwdMode_SAF (k : Nat) : Field := ⟨fabFwdMode k, 0, 56⟩
def fabMark : Nat := 0x5 * 0x100000 + 0x18
def fabMark_MARK_THRESH : Field := ⟨fabMark, 0, 16⟩
def fabAgeLimit : Nat := 0x5 * 0x100000 + 0x20
def fabAgeLimit_LIMIT : Field := ⟨fabAgeLimit, 0, 19⟩
def fabCong : Nat := 0x5 * 0x100000 + 0x28
def fabCong_MINRATE : Field := ⟨fabCong, 32, 8⟩
def fabCong_CWIN : Field := ⟨fabCong, 16, 16⟩
def fabCong_INC : Field := ⟨fabCong, 8, 8⟩
def fabCong_MD_SHIFT : Field := ⟨fabCong, 0, 4⟩
def fabQSel : Nat := 0x5 * 0x100000 + 0x30
def fabQSel_VC : Field := ⟨fabQSel, 20, 1⟩
def fabQSel_CLASS : Field := ⟨fabQSel, 16, 3⟩
def fabQSel_OUT : Field := ⟨fabQSel, 8, 5⟩
def fabQSel_IN : Field := ⟨fabQSel, 0, 5⟩
def fabQDepth : Nat := 0x5 * 0x100000 + 0x38
def fabQDepth_HWM : Field := ⟨fabQDepth, 32, 32⟩
def fabQDepth_DEPTH : Field := ⟨fabQDepth, 0, 32⟩
def fabCntMarked : Nat := 0x5 * 0x100000 + 0xc0
def fabCntMarked_COUNT : Field := ⟨fabCntMarked, 0, 64⟩
def fabCntHops : Nat := 0x5 * 0x100000 + 0xc8
def fabCntHops_COUNT : Field := ⟨fabCntHops, 0, 64⟩
def fabCntOverrun : Nat := 0x5 * 0x100000 + 0xd0
def fabCntOverrun_COUNT : Field := ⟨fabCntOverrun, 0, 64⟩
def fabCntMcFilter : Nat := 0x5 * 0x100000 + 0xd8
def fabCntMcFilter_COUNT : Field := ⟨fabCntMcFilter, 0, 64⟩
def fabAllow (k : Nat) : Nat := 0x5 * 0x100000 + 0x40 + 0x8 * k
def fabAllow_SERVICE (k : Nat) : Field := ⟨fabAllow k, 16, 16⟩
def fabAllow_TORUS (k : Nat) : Field := ⟨fabAllow k, 0, 16⟩
def fabCntAged (k : Nat) : Nat := 0x5 * 0x100000 + 0x80 + 0x8 * k
def fabCntAged_COUNT (k : Nat) : Field := ⟨fabCntAged k, 0, 64⟩
def routeCoord : Nat := 0x6 * 0x100000 + 0x0
def routeCoord_ASSIGNED : Field := ⟨routeCoord, 31, 1⟩
def routeCoord_COORD : Field := ⟨routeCoord, 0, 14⟩
def routeExtent : Nat := 0x6 * 0x100000 + 0x8
def routeExtent_EXM1 : Field := ⟨routeExtent, 9, 5⟩
def routeExtent_EYM1 : Field := ⟨routeExtent, 4, 5⟩
def routeExtent_EZM1 : Field := ⟨routeExtent, 0, 4⟩
def routeSlice : Nat := 0x6 * 0x100000 + 0x10
def routeSlice_SLICE : Field := ⟨routeSlice, 0, 12⟩
def routeBank : Nat := 0x6 * 0x100000 + 0x18
def routeBank_STATE_B : Field := ⟨routeBank, 8, 3⟩
def routeBank_STATE_A : Field := ⟨routeBank, 4, 3⟩
def routeBank_FLIP_PEND : Field := ⟨routeBank, 2, 1⟩
def routeBank_ACTIVE : Field := ⟨routeBank, 0, 1⟩
def routeFlipAt : Nat := 0x6 * 0x100000 + 0x20
def routeFlipAt_CONE : Field := ⟨routeFlipAt, 0, 64⟩
def routeKeyA : Nat := 0x6 * 0x100000 + 0x28
def routeKeyA_KEY : Field := ⟨routeKeyA, 0, 64⟩
def routeKeyB : Nat := 0x6 * 0x100000 + 0x30
def routeKeyB_KEY : Field := ⟨routeKeyB, 0, 64⟩
def routeSpread : Nat := 0x6 * 0x100000 + 0x38
def routeSpread_REKEY : Field := ⟨routeSpread, 32, 8⟩
def routeSpread_IMB_TIME : Field := ⟨routeSpread, 24, 8⟩
def routeSpread_ESC_WAIT : Field := ⟨routeSpread, 16, 8⟩
def routeSpread_TIE_BAND : Field := ⟨routeSpread, 0, 11⟩
def routeBox : Nat := 0x6 * 0x100000 + 0x40
def routeBox_EN : Field := ⟨routeBox, 63, 1⟩
def routeBox_SZM1 : Field := ⟨routeBox, 24, 4⟩
def routeBox_SYM1 : Field := ⟨routeBox, 19, 5⟩
def routeBox_SXM1 : Field := ⟨routeBox, 14, 5⟩
def routeBox_ORIGIN : Field := ⟨routeBox, 0, 14⟩
def routeSvc : Nat := 0x6 * 0x100000 + 0x48
def routeSvc_SV1_OPEN : Field := ⟨routeSvc, 1, 1⟩
def routeSvc_SV0_OPEN : Field := ⟨routeSvc, 0, 1⟩
def routeImb : Nat := 0x6 * 0x100000 + 0x70
def routeImb_PEND : Field := ⟨routeImb, 8, 1⟩
def routeImb_LATCH : Field := ⟨routeImb, 0, 6⟩
def routeEntSel : Nat := 0x6 * 0x100000 + 0x78
def routeEntSel_BANK : Field := ⟨routeEntSel, 14, 1⟩
def routeEntSel_INDEX : Field := ⟨routeEntSel, 0, 14⟩
def routeEnt : Nat := 0x6 * 0x100000 + 0x80
def routeEnt_ENTRY : Field := ⟨routeEnt, 0, 64⟩
def routeCntNoroute : Nat := 0x6 * 0x100000 + 0xc0
def routeCntNoroute_COUNT : Field := ⟨routeCntNoroute, 0, 64⟩
def routeCntNotransit : Nat := 0x6 * 0x100000 + 0xc8
def routeCntNotransit_COUNT : Field := ⟨routeCntNotransit, 0, 64⟩
def routeCntTransit : Nat := 0x6 * 0x100000 + 0xd0
def routeCntTransit_COUNT : Field := ⟨routeCntTransit, 0, 64⟩
def routeCntEpoch : Nat := 0x6 * 0x100000 + 0xd8
def routeCntEpoch_COUNT : Field := ⟨routeCntEpoch, 0, 64⟩
def routeCntEscape : Nat := 0x6 * 0x100000 + 0xe0
def routeCntEscape_COUNT : Field := ⟨routeCntEscape, 0, 64⟩
def routeCntDetour : Nat := 0x6 * 0x100000 + 0xe8
def routeCntDetour_COUNT : Field := ⟨routeCntDetour, 0, 64⟩
def routeCntMcLost : Nat := 0x6 * 0x100000 + 0xf0
def routeCntMcLost_COUNT : Field := ⟨routeCntMcLost, 0, 64⟩
def routePermit (k : Nat) : Nat := 0x6 * 0x100000 + 0x50 + 0x8 * k
def routePermit_VALID (k : Nat) : Field := ⟨routePermit k, 63, 1⟩
def routePermit_MGMT (k : Nat) : Field := ⟨routePermit k, 62, 1⟩
def routePermit_MEM (k : Nat) : Field := ⟨routePermit k, 61, 1⟩
def routePermit_BRIDGE (k : Nat) : Field := ⟨routePermit k, 0, 14⟩
def poolPart : Nat := 0x7 * 0x100000 + 0x0
def poolPart_INJ : Field := ⟨poolPart, 32, 16⟩
def poolPart_MIRROR : Field := ⟨poolPart, 16, 16⟩
def poolPart_COLL : Field := ⟨poolPart, 0, 16⟩
def poolOcc (k : Nat) : Nat := 0x7 * 0x100000 + 0x8 + 0x8 * k
def poolOcc_LEVEL (k : Nat) : Field := ⟨poolOcc k, 59, 2⟩
def poolOcc_HWM (k : Nat) : Field := ⟨poolOcc k, 32, 19⟩
def poolOcc_OCC (k : Nat) : Field := ⟨poolOcc k, 0, 19⟩
def poolPlanFree : Nat := 0x7 * 0x100000 + 0x28
def poolPlanFree_GROUPS : Field := ⟨poolPlanFree, 0, 32⟩
def poolDfree : Nat := 0x7 * 0x100000 + 0x30
def poolDfree_VALID : Field := ⟨poolDfree, 63, 1⟩
def poolDfree_MID : Field := ⟨poolDfree, 48, 10⟩
def poolDfree_OWNER : Field := ⟨poolDfree, 32, 10⟩
def poolDfree_CELL : Field := ⟨poolDfree, 0, 18⟩
def poolCellSel : Nat := 0x7 * 0x100000 + 0x38
def poolCellSel_CELL : Field := ⟨poolCellSel, 0, 18⟩
def poolCell : Nat := 0x7 * 0x100000 + 0x40
def poolCell_QUAR : Field := ⟨poolCell, 22, 1⟩
def poolCell_ALLOC : Field := ⟨poolCell, 21, 1⟩
def poolCell_PART : Field := ⟨poolCell, 19, 2⟩
def poolCell_REF : Field := ⟨poolCell, 11, 8⟩
def poolCell_OWNER : Field := ⟨poolCell, 0, 10⟩
def poolCntDfree : Nat := 0x7 * 0x100000 + 0x80
def poolCntDfree_COUNT : Field := ⟨poolCntDfree, 0, 64⟩
def poolCntRefovf : Nat := 0x7 * 0x100000 + 0x88
def poolCntRefovf_COUNT : Field := ⟨poolCntRefovf, 0, 64⟩
def poolCntUncorr : Nat := 0x7 * 0x100000 + 0x90
def poolCntUncorr_COUNT : Field := ⟨poolCntUncorr, 0, 64⟩
def poolCntQuar : Nat := 0x7 * 0x100000 + 0x98
def poolCntQuar_COUNT : Field := ⟨poolCntQuar, 0, 64⟩
def klnTimer : Nat := 0x8 * 0x100000 + 0x0
def klnTimer_RES_HOLD : Field := ⟨klnTimer, 16, 16⟩
def klnTimer_ARR : Field := ⟨klnTimer, 0, 16⟩
def klnCtxAllow : Nat := 0x8 * 0x100000 + 0x8
def klnCtxAllow_ALLOW : Field := ⟨klnCtxAllow, 0, 21⟩
def klnCtxUsed : Nat := 0x8 * 0x100000 + 0x10
def klnCtxUsed_HELD : Field := ⟨klnCtxUsed, 32, 21⟩
def klnCtxUsed_RESV : Field := ⟨klnCtxUsed, 0, 21⟩
def klnLandBase : Nat := 0x8 * 0x100000 + 0x18
def klnLandBase_BASE : Field := ⟨klnLandBase, 12, 36⟩
def klnLandSize : Nat := 0x8 * 0x100000 + 0x20
def klnLandSize_BLOCKS : Field := ⟨klnLandSize, 0, 28⟩
def klnTouchBase : Nat := 0x8 * 0x100000 + 0x28
def klnTouchBase_BASE : Field := ⟨klnTouchBase, 12, 36⟩
def klnTouchCtrl : Nat := 0x8 * 0x100000 + 0x30
def klnTouchCtrl_BUSY : Field := ⟨klnTouchCtrl, 2, 1⟩
def klnTouchCtrl_CLR : Field := ⟨klnTouchCtrl, 1, 1⟩
def klnTouchCtrl_EN : Field := ⟨klnTouchCtrl, 0, 1⟩
def klnLateSel : Nat := 0x8 * 0x100000 + 0x38
def klnLateSel_CL : Field := ⟨klnLateSel, 6, 7⟩
def klnLateSel_PLAN : Field := ⟨klnLateSel, 0, 6⟩
def klnLateMember : Nat := 0x8 * 0x100000 + 0x40
def klnLateMember_PHASE : Field := ⟨klnLateMember, 62, 2⟩
def klnLateMember_MEMBER : Field := ⟨klnLateMember, 57, 5⟩
def klnLateMember_VALID : Field := ⟨klnLateMember, 56, 1⟩
def klnLateMember_COUNT : Field := ⟨klnLateMember, 32, 24⟩
def klnLateMember_MLAG : Field := ⟨klnLateMember, 0, 32⟩
def klnFault : Nat := 0x8 * 0x100000 + 0x48
def klnFault_VALID : Field := ⟨klnFault, 63, 1⟩
def klnFault_CAUSE : Field := ⟨klnFault, 60, 3⟩
def klnFault_COLL : Field := ⟨klnFault, 48, 12⟩
def klnFault_CHUNK : Field := ⟨klnFault, 24, 24⟩
def klnNdet : Nat := 0x8 * 0x100000 + 0x50
def klnNdet_COUNT : Field := ⟨klnNdet, 0, 64⟩
def klnCntDup : Nat := 0x8 * 0x100000 + 0x80
def klnCntDup_COUNT : Field := ⟨klnCntDup, 0, 64⟩
def klnCntOverlap : Nat := 0x8 * 0x100000 + 0x88
def klnCntOverlap_COUNT : Field := ⟨klnCntOverlap, 0, 64⟩
def klnCntBadmask : Nat := 0x8 * 0x100000 + 0x90
def klnCntBadmask_COUNT : Field := ⟨klnCntBadmask, 0, 64⟩
def klnCntStale : Nat := 0x8 * 0x100000 + 0x98
def klnCntStale_COUNT : Field := ⟨klnCntStale, 0, 64⟩
def klnCntRepairTx : Nat := 0x8 * 0x100000 + 0xa0
def klnCntRepairTx_COUNT : Field := ⟨klnCntRepairTx, 0, 64⟩
def klnCntRepairUnserved : Nat := 0x8 * 0x100000 + 0xa8
def klnCntRepairUnserved_COUNT : Field := ⟨klnCntRepairUnserved, 0, 64⟩
def klnCntEvict : Nat := 0x8 * 0x100000 + 0xb0
def klnCntEvict_COUNT : Field := ⟨klnCntEvict, 0, 64⟩
def klnCntSat : Nat := 0x8 * 0x100000 + 0xb8
def klnCntSat_COUNT : Field := ⟨klnCntSat, 0, 64⟩
def klnCntReschk : Nat := 0x8 * 0x100000 + 0xc0
def klnCntReschk_COUNT : Field := ⟨klnCntReschk, 0, 64⟩
def digSeed : Nat := 0x9 * 0x100000 + 0x0
def digSeed_SEED : Field := ⟨digSeed, 0, 64⟩
def digDet : Nat := 0x9 * 0x100000 + 0x8
def digDet_DETERMINISTIC : Field := ⟨digDet, 0, 1⟩
def digCtrl : Nat := 0x9 * 0x100000 + 0x10
def digCtrl_EN : Field := ⟨digCtrl, 16, 1⟩
def digCtrl_EXPECT : Field := ⟨digCtrl, 0, 16⟩
def digRing : Nat := 0x9 * 0x100000 + 0x18
def digRing_BASE : Field := ⟨digRing, 12, 36⟩
def digRing_SIZE : Field := ⟨digRing, 0, 5⟩
def digRingHead : Nat := 0x9 * 0x100000 + 0x20
def digRingHead_LOST : Field := ⟨digRingHead, 48, 16⟩
def digRingHead_HEAD : Field := ⟨digRingHead, 0, 32⟩
def digProv : Nat := 0x9 * 0x100000 + 0x28
def digProv_BUSY : Field := ⟨digProv, 63, 1⟩
def digProv_STATUS : Field := ⟨digProv, 48, 8⟩
def digProv_BYTES : Field := ⟨digProv, 0, 48⟩
def digNdetCount : Nat := 0x9 * 0x100000 + 0x30
def digNdetCount_COUNT : Field := ⟨digNdetCount, 0, 64⟩
def digNdet (k : Nat) : Nat := 0x9 * 0x100000 + 0x40 + 0x8 * k
def digNdet_COUNT (k : Nat) : Field := ⟨digNdet k, 0, 64⟩
def digHres (k : Nat) : Nat := 0x9 * 0x100000 + 0x2000 + 0x8 * k
def digHres_HRES (k : Nat) : Field := ⟨digHres k, 0, 64⟩
def accCtrl : Nat := 0xa * 0x100000 + 0x0
def accCtrl_TORN : Field := ⟨accCtrl, 1, 1⟩
def accCtrl_HOLD : Field := ⟨accCtrl, 0, 1⟩
def accSel : Nat := 0xa * 0x100000 + 0x8
def accSel_TARGET : Field := ⟨accSel, 6, 10⟩
def accSel_WORD : Field := ⟨accSel, 0, 6⟩
def accData : Nat := 0xa * 0x100000 + 0x10
def accData_ENTRIES : Field := ⟨accData, 0, 64⟩
def accDeny : Nat := 0xa * 0x100000 + 0x18
def accDeny_VALID : Field := ⟨accDeny, 63, 1⟩
def accDeny_RIGHT : Field := ⟨accDeny, 61, 2⟩
def accDeny_MID : Field := ⟨accDeny, 48, 10⟩
def accDeny_ADDR : Field := ⟨accDeny, 0, 48⟩
def accCntDeny : Nat := 0xa * 0x100000 + 0x20
def accCntDeny_COUNT : Field := ⟨accCntDeny, 0, 64⟩
def accCntTblUe : Nat := 0xa * 0x100000 + 0x28
def accCntTblUe_COUNT : Field := ⟨accCntTblUe, 0, 64⟩
def accRgnBase (k : Nat) : Nat := 0xa * 0x100000 + 0x100 + 0x10 * k
def accRgnBase_EN (k : Nat) : Field := ⟨accRgnBase k, 63, 1⟩
def accRgnBase_BASE (k : Nat) : Field := ⟨accRgnBase k, 12, 36⟩
def accRgnLimit (k : Nat) : Nat := 0xa * 0x100000 + 0x108 + 0x10 * k
def accRgnLimit_LIMIT (k : Nat) : Field := ⟨accRgnLimit k, 12, 36⟩
def imgCtrl : Nat := 0xb * 0x100000 + 0x0
def imgCtrl_OFF : Field := ⟨imgCtrl, 16, 32⟩
def imgCtrl_REGION : Field := ⟨imgCtrl, 8, 4⟩
def imgCtrl_OP : Field := ⟨imgCtrl, 0, 4⟩
def imgSrc : Nat := 0xb * 0x100000 + 0x8
def imgSrc_ADDR : Field := ⟨imgSrc, 0, 48⟩
def imgLen : Nat := 0xb * 0x100000 + 0x10
def imgLen_LEN : Field := ⟨imgLen, 0, 32⟩
def imgStatus : Nat := 0xb * 0x100000 + 0x18
def imgStatus_BUSY : Field := ⟨imgStatus, 63, 1⟩
def imgStatus_HELD : Field := ⟨imgStatus, 62, 1⟩
def imgStatus_RESULT : Field := ⟨imgStatus, 56, 4⟩
def imgStatus_DONE : Field := ⟨imgStatus, 0, 32⟩
def imgBoot : Nat := 0xb * 0x100000 + 0x20
def imgBoot_REFUSED : Field := ⟨imgBoot, 32, 16⟩
def imgBoot_APPLIED : Field := ⟨imgBoot, 16, 16⟩
def imgBoot_VALID : Field := ⟨imgBoot, 8, 8⟩
def imgBoot_OTHER : Field := ⟨imgBoot, 1, 1⟩
def imgBoot_MCOPY : Field := ⟨imgBoot, 0, 1⟩
def logBase : Nat := 0xc * 0x100000 + 0x0
def logBase_BASE : Field := ⟨logBase, 24, 24⟩
def logHead : Nat := 0xc * 0x100000 + 0x8
def logHead_HEAD : Field := ⟨logHead, 0, 32⟩
def logDropped : Nat := 0xc * 0x100000 + 0x10
def logDropped_COUNT : Field := ⟨logDropped, 0, 64⟩
def apcCtrl : Nat := 0xd * 0x100000 + 0x0
def apcCtrl_RUN : Field := ⟨apcCtrl, 0, 32⟩
def apcBoot : Nat := 0xd * 0x100000 + 0x8
def apcBoot_ADDR : Field := ⟨apcBoot, 2, 46⟩
def apcStatus : Nat := 0xd * 0x100000 + 0x10
def apcStatus_RUNNING : Field := ⟨apcStatus, 0, 32⟩
def lnkCtrl (n : Nat) : Nat := (0x10 + n) * 0x100000 + 0x0
def lnkCtrl_RETRAIN (n : Nat) : Field := ⟨lnkCtrl n, 11, 1⟩
def lnkCtrl_FE_ALLOW (n : Nat) : Field := ⟨lnkCtrl n, 10, 1⟩
def lnkCtrl_MAXRATE (n : Nat) : Field := ⟨lnkCtrl n, 8, 2⟩
def lnkCtrl_LOOP (n : Nat) : Field := ⟨lnkCtrl n, 4, 2⟩
def lnkCtrl_EN (n : Nat) : Field := ⟨lnkCtrl n, 0, 1⟩
def lnkStatus (n : Nat) : Nat := (0x10 + n) * 0x100000 + 0x8
def lnkStatus_STATE (n : Nat) : Field := ⟨lnkStatus n, 60, 4⟩
def lnkStatus_RATE (n : Nat) : Field := ⟨lnkStatus n, 58, 2⟩
def lnkStatus_DEGRADED (n : Nat) : Field := ⟨lnkStatus n, 57, 1⟩
def lnkStatus_INCOMPATIBLE (n : Nat) : Field := ⟨lnkStatus n, 56, 1⟩
def lnkStatus_REASON (n : Nat) : Field := ⟨lnkStatus n, 52, 4⟩
def lnkStatus_MAJOR (n : Nat) : Field := ⟨lnkStatus n, 44, 8⟩
def lnkStatus_MINOR (n : Nat) : Field := ⟨lnkStatus n, 36, 8⟩
def lnkStatus_UNACK (n : Nat) : Field := ⟨lnkStatus n, 12, 12⟩
def lnkPeerSerial (n : Nat) : Nat := (0x10 + n) * 0x100000 + 0x10
def lnkPeerSerial_SERIAL (n : Nat) : Field := ⟨lnkPeerSerial n, 0, 64⟩
def lnkPeerInfo (n : Nat) : Nat := (0x10 + n) * 0x100000 + 0x18
def lnkPeerInfo_DEVCLASS (n : Nat) : Field := ⟨lnkPeerInfo n, 56, 8⟩
def lnkPeerInfo_PORT (n : Nat) : Field := ⟨lnkPeerInfo n, 52, 4⟩
def lnkPeerInfo_COORD (n : Nat) : Field := ⟨lnkPeerInfo n, 38, 14⟩
def lnkPeerInfo_SLICE (n : Nat) : Field := ⟨lnkPeerInfo n, 26, 12⟩
def lnkPeerInfo_RATE_MAX (n : Nat) : Field := ⟨lnkPeerInfo n, 24, 2⟩
def lnkPeerInfo_MAJOR (n : Nat) : Field := ⟨lnkPeerInfo n, 16, 8⟩
def lnkPeerInfo_MINOR (n : Nat) : Field := ⟨lnkPeerInfo n, 8, 8⟩
def lnkPeerInfo_VALID (n : Nat) : Field := ⟨lnkPeerInfo n, 7, 1⟩
def lnkExpect (n : Nat) : Nat := (0x10 + n) * 0x100000 + 0x20
def lnkExpect_DEVCLASS (n : Nat) : Field := ⟨lnkExpect n, 56, 8⟩
def lnkExpect_PORT (n : Nat) : Field := ⟨lnkExpect n, 52, 4⟩
def lnkExpect_COORD (n : Nat) : Field := ⟨lnkExpect n, 38, 14⟩
def lnkExpect_ANY (n : Nat) : Field := ⟨lnkExpect n, 37, 1⟩
def lnkExpect_NOHASH (n : Nat) : Field := ⟨lnkExpect n, 36, 1⟩
def lnkTimers (n : Nat) : Nat := (0x10 + n) * 0x100000 + 0x28
def lnkTimers_DOWN_HOLD (n : Nat) : Field := ⟨lnkTimers n, 32, 16⟩
def lnkTimers_REPLAY_TMO (n : Nat) : Field := ⟨lnkTimers n, 0, 16⟩
def lnkTest (n : Nat) : Nat := (0x10 + n) * 0x100000 + 0x30
def lnkTest_LOCK (n : Nat) : Field := ⟨lnkTest n, 8, 1⟩
def lnkTest_CHK_EN (n : Nat) : Field := ⟨lnkTest n, 7, 1⟩
def lnkTest_GEN_EN (n : Nat) : Field := ⟨lnkTest n, 6, 1⟩
def lnkTest_PAT (n : Nat) : Field := ⟨lnkTest n, 4, 2⟩
def lnkEye (n : Nat) : Nat := (0x10 + n) * 0x100000 + 0x38
def lnkEye_BUSY (n : Nat) : Field := ⟨lnkEye n, 63, 1⟩
def lnkEye_START (n : Nat) : Field := ⟨lnkEye n, 62, 1⟩
def lnkEye_LANE (n : Nat) : Field := ⟨lnkEye n, 56, 5⟩
def lnkEye_VOFF (n : Nat) : Field := ⟨lnkEye n, 48, 8⟩
def lnkEye_HOFF (n : Nat) : Field := ⟨lnkEye n, 40, 8⟩
def lnkEye_ERRS (n : Nat) : Field := ⟨lnkEye n, 0, 32⟩
def lnkCntFecCorr (n : Nat) : Nat := (0x10 + n) * 0x100000 + 0x40
def lnkCntFecCorr_COUNT (n : Nat) : Field := ⟨lnkCntFecCorr n, 0, 64⟩
def lnkCntCrcErr (n : Nat) : Nat := (0x10 + n) * 0x100000 + 0x48
def lnkCntCrcErr_COUNT (n : Nat) : Field := ⟨lnkCntCrcErr n, 0, 64⟩
def lnkCntReplay (n : Nat) : Nat := (0x10 + n) * 0x100000 + 0x50
def lnkCntReplay_COUNT (n : Nat) : Field := ⟨lnkCntReplay n, 0, 64⟩
def lnkCntDown (n : Nat) : Nat := (0x10 + n) * 0x100000 + 0x58
def lnkCntDown_COUNT (n : Nat) : Field := ⟨lnkCntDown n, 0, 64⟩
def lnkCntDegraded (n : Nat) : Nat := (0x10 + n) * 0x100000 + 0x60
def lnkCntDegraded_COUNT (n : Nat) : Field := ⟨lnkCntDegraded n, 0, 64⟩
def lnkCntMalformed (n : Nat) : Nat := (0x10 + n) * 0x100000 + 0x68
def lnkCntMalformed_COUNT (n : Nat) : Field := ⟨lnkCntMalformed n, 0, 64⟩
def lnkCntPcrc (n : Nat) : Nat := (0x10 + n) * 0x100000 + 0x70
def lnkCntPcrc_COUNT (n : Nat) : Field := ⟨lnkCntPcrc n, 0, 64⟩
def lnkCntStomp (n : Nat) : Nat := (0x10 + n) * 0x100000 + 0x78
def lnkCntStomp_COUNT (n : Nat) : Field := ⟨lnkCntStomp n, 0, 64⟩
def lnkCntForeign (n : Nat) : Nat := (0x10 + n) * 0x100000 + 0x80
def lnkCntForeign_COUNT (n : Nat) : Field := ⟨lnkCntForeign n, 0, 64⟩
def lnkCntProto (n : Nat) : Nat := (0x10 + n) * 0x100000 + 0x88
def lnkCntProto_COUNT (n : Nat) : Field := ⟨lnkCntProto n, 0, 64⟩
def lnkLaneErr (n : Nat) (k : Nat) : Nat := (0x10 + n) * 0x100000 + 0x100 + 0x8 * k
def lnkLaneErr_COUNT (n : Nat) (k : Nat) : Field := ⟨lnkLaneErr n k, 0, 64⟩
def hbmStatus (n : Nat) : Nat := (0x20 + n) * 0x100000 + 0x0
def hbmStatus_STATE (n : Nat) : Field := ⟨hbmStatus n, 61, 3⟩
def hbmStatus_DEGR (n : Nat) : Field := ⟨hbmStatus n, 60, 1⟩
def hbmStatus_TEMP (n : Nat) : Field := ⟨hbmStatus n, 40, 8⟩
def hbmScrub (n : Nat) : Nat := (0x20 + n) * 0x100000 + 0x8
def hbmScrub_POS (n : Nat) : Field := ⟨hbmScrub n, 16, 30⟩
def hbmScrub_PERIOD (n : Nat) : Field := ⟨hbmScrub n, 0, 10⟩
def hbmChanImbal (n : Nat) : Nat := (0x20 + n) * 0x100000 + 0x10
def hbmChanImbal_LATCH (n : Nat) : Field := ⟨hbmChanImbal n, 63, 1⟩
def hbmChanImbal_PC (n : Nat) : Field := ⟨hbmChanImbal n, 48, 6⟩
def hbmChanImbal_RATIO (n : Nat) : Field := ⟨hbmChanImbal n, 32, 16⟩
def hbmChanImbal_IMB_TIME (n : Nat) : Field := ⟨hbmChanImbal n, 0, 8⟩
def hbmUeAddr (n : Nat) : Nat := (0x20 + n) * 0x100000 + 0x18
def hbmUeAddr_VALID (n : Nat) : Field := ⟨hbmUeAddr n, 63, 1⟩
def hbmUeAddr_SCRUB (n : Nat) : Field := ⟨hbmUeAddr n, 62, 1⟩
def hbmUeAddr_ADDR (n : Nat) : Field := ⟨hbmUeAddr n, 6, 42⟩
def hbmInject (n : Nat) : Nat := (0x20 + n) * 0x100000 + 0x20
def hbmInject_ARM (n : Nat) : Field := ⟨hbmInject n, 63, 1⟩
def hbmInject_BIT_A (n : Nat) : Field := ⟨hbmInject n, 55, 7⟩
def hbmInject_BIT_B (n : Nat) : Field := ⟨hbmInject n, 48, 7⟩
def hbmInject_ADDR (n : Nat) : Field := ⟨hbmInject n, 3, 45⟩
def hbmCntCe (n : Nat) : Nat := (0x20 + n) * 0x100000 + 0x40
def hbmCntCe_COUNT (n : Nat) : Field := ⟨hbmCntCe n, 0, 64⟩
def hbmCntUe (n : Nat) : Nat := (0x20 + n) * 0x100000 + 0x48
def hbmCntUe_COUNT (n : Nat) : Field := ⟨hbmCntUe n, 0, 64⟩
def hbmCntStackCe (n : Nat) : Nat := (0x20 + n) * 0x100000 + 0x50
def hbmCntStackCe_COUNT (n : Nat) : Field := ⟨hbmCntStackCe n, 0, 64⟩
def hbmCntStackUe (n : Nat) : Nat := (0x20 + n) * 0x100000 + 0x58
def hbmCntStackUe_COUNT (n : Nat) : Field := ⟨hbmCntStackUe n, 0, 64⟩
def hbmCntScrubFix (n : Nat) : Nat := (0x20 + n) * 0x100000 + 0x60
def hbmCntScrubFix_COUNT (n : Nat) : Field := ⟨hbmCntScrubFix n, 0, 64⟩
def clCtrl (n : Nat) : Nat := (0x100 + n) * 0x100000 + 0x0
def clCtrl_PAT_EN (n : Nat) : Field := ⟨clCtrl n, 26, 1⟩
def clCtrl_CREC (n : Nat) : Field := ⟨clCtrl n, 24, 2⟩
def clCtrl_ENTRY (n : Nat) : Field := ⟨clCtrl n, 0, 23⟩
def clCmd (n : Nat) : Nat := (0x100 + n) * 0x100000 + 0x8
def clCmd_CMD (n : Nat) : Field := ⟨clCmd n, 0, 3⟩
def clState (n : Nat) : Nat := (0x100 + n) * 0x100000 + 0x10
def clState_STATE (n : Nat) : Field := ⟨clState n, 61, 3⟩
def clState_PAUSE_PEND (n : Nat) : Field := ⟨clState n, 60, 1⟩
def clState_WINDOW (n : Nat) : Field := ⟨clState n, 40, 7⟩
def clState_PC (n : Nat) : Field := ⟨clState n, 0, 23⟩
def clMode (n : Nat) : Nat := (0x100 + n) * 0x100000 + 0x18
def clMode_DETERMINISTIC (n : Nat) : Field := ⟨clMode n, 7, 1⟩
def clMode_STRICT (n : Nat) : Field := ⟨clMode n, 6, 1⟩
def clMode_RND (n : Nat) : Field := ⟨clMode n, 4, 2⟩
def clSeed (n : Nat) : Nat := (0x100 + n) * 0x100000 + 0x20
def clSeed_SEED (n : Nat) : Field := ⟨clSeed n, 0, 64⟩
def clXstatus (n : Nat) : Nat := (0x100 + n) * 0x100000 + 0x28
def clXstatus_EXC (n : Nat) : Field := ⟨clXstatus n, 0, 8⟩
def clLoc0 (n : Nat) : Nat := (0x100 + n) * 0x100000 + 0x30
def clLoc0_VALID (n : Nat) : Field := ⟨clLoc0 n, 63, 1⟩
def clLoc0_UNIT (n : Nat) : Field := ⟨clLoc0 n, 60, 3⟩
def clLoc0_KIND (n : Nat) : Field := ⟨clLoc0 n, 56, 4⟩
def clLoc0_PC (n : Nat) : Field := ⟨clLoc0 n, 0, 23⟩
def clLoc1 (n : Nat) : Nat := (0x100 + n) * 0x100000 + 0x38
def clLoc1_TILE (n : Nat) : Field := ⟨clLoc1 n, 32, 32⟩
def clLoc1_KIDX (n : Nat) : Field := ⟨clLoc1 n, 16, 16⟩
def clLoc1_ELEM (n : Nat) : Field := ⟨clLoc1 n, 0, 10⟩
def clExc (n : Nat) : Nat := (0x100 + n) * 0x100000 + 0x40
def clExc_CAUSE (n : Nat) : Field := ⟨clExc n, 56, 8⟩
def clExc_RESP (n : Nat) : Field := ⟨clExc n, 54, 2⟩
def clExc_UNIT (n : Nat) : Field := ⟨clExc n, 51, 3⟩
def clExc_PC (n : Nat) : Field := ⟨clExc n, 0, 23⟩
def clDone (n : Nat) : Nat := (0x100 + n) * 0x100000 + 0x48
def clDone_DONE (n : Nat) : Field := ⟨clDone n, 0, 64⟩
def clExcAddr (n : Nat) : Nat := (0x100 + n) * 0x100000 + 0x50
def clExcAddr_ADDR (n : Nat) : Field := ⟨clExcAddr n, 0, 48⟩
def clExcOrig (n : Nat) : Nat := (0x100 + n) * 0x100000 + 0x58
def clExcOrig_HANDLE (n : Nat) : Field := ⟨clExcOrig n, 51, 13⟩
def clExcOrig_PC (n : Nat) : Field := ⟨clExcOrig n, 0, 23⟩
def clCring (n : Nat) : Nat := (0x100 + n) * 0x100000 + 0x60
def clCring_LOST (n : Nat) : Field := ⟨clCring n, 48, 16⟩
def clCring_HEAD (n : Nat) : Field := ⟨clCring n, 32, 16⟩
def clCring_SIZE (n : Nat) : Field := ⟨clCring n, 24, 4⟩
def clCring_BASE (n : Nat) : Field := ⟨clCring n, 12, 11⟩
def clJstep (n : Nat) : Nat := (0x100 + n) * 0x100000 + 0x68
def clJstep_JSTEP (n : Nat) : Field := ⟨clJstep n, 0, 64⟩
def clPauseAt (n : Nat) : Nat := (0x100 + n) * 0x100000 + 0x70
def clPauseAt_CONE (n : Nat) : Field := ⟨clPauseAt n, 0, 64⟩
def clQ (n : Nat) (k : Nat) : Nat := (0x100 + n) * 0x100000 + 0x80 + 0x8 * k
def clQ_OVW (n : Nat) (k : Nat) : Field := ⟨clQ n k, 40, 16⟩
def clQ_READY (n : Nat) (k : Nat) : Field := ⟨clQ n k, 32, 8⟩
def clQ_EN (n : Nat) (k : Nat) : Field := ⟨clQ n k, 31, 1⟩
def clQ_SLOTS (n : Nat) (k : Nat) : Field := ⟨clQ n k, 24, 3⟩
def clQ_BASE (n : Nat) (k : Nat) : Field := ⟨clQ n k, 12, 11⟩
def clS (n : Nat) (k : Nat) : Nat := (0x100 + n) * 0x100000 + 0x100 + 0x8 * k
def clS_S (n : Nat) (k : Nat) : Field := ⟨clS n k, 0, 64⟩

end Sys2Proof.Machine
end

