-- ==== Sys2Proof/Machine/Tab.lean ====
section
/-!
DEFINITION. Machine/Tab.lean: a table from numbers to values as a list in one canonical form (keys strictly rising, no entry
equal to what an unlisted key reads as), so that equal tables are equal data.
-/
namespace Sys2Proof.Machine

/-- A table: (key, value) pairs, keys strictly rising, no default entry. -/
abbrev Tab (α : Type) := List (Nat × α)

/-- The value at key `k`; `d` is what an unlisted key reads as. -/
def Tab.get {α : Type} (d : α) : Tab α → Nat → α
  | [], _ => d
  | (j, v) :: t, k => if k = j then v else if k < j then d else Tab.get d t k

/-- Removes key `k`. -/
def Tab.erase {α : Type} : Tab α → Nat → Tab α
  | [], _ => []
  | (j, v) :: t, k => if k = j then t else if k < j then (j, v) :: t else (j, v) :: Tab.erase t k

/-- Puts `v` at key `k` in its place. -/
def Tab.insert {α : Type} : Tab α → Nat → α → Tab α
  | [], k, v => [(k, v)]
  | (j, w) :: t, k, v =>
    if k = j then (k, v) :: t else if k < j then (k, v) :: (j, w) :: t else (j, w) :: Tab.insert t k v

/-- Writes `v` at key `k`; writing what an unlisted key reads as removes the entry. -/
def Tab.set {α : Type} [DecidableEq α] (d : α) (t : Tab α) (k : Nat) (v : α) : Tab α :=
  if v = d then t.erase k else t.insert k v

/-- Updates the value at key `k` by `f`. -/
def Tab.modify {α : Type} [DecidableEq α] (d : α) (t : Tab α) (k : Nat) (f : α → α) : Tab α :=
  t.set d k (f (t.get d k))

/-- An optional entry: none where the key is unlisted. -/
def Tab.find {α : Type} : Tab α → Nat → Option α
  | [], _ => none
  | (j, v) :: t, k => if k = j then some v else if k < j then none else Tab.find t k

/-- Removes every key from `lo` up to but not including `hi`. -/
def Tab.eraseRange {α : Type} (t : Tab α) (lo hi : Nat) : Tab α :=
  t.filter (fun e => e.1 < lo || hi ≤ e.1)

/-- The least number at or above `lo` and below `lo + fuel` that is no key of the table. -/
def Tab.firstFree {α : Type} (t : Tab α) (lo : Nat) : Nat → Option Nat
  | 0 => none
  | fuel + 1 => if (t.find lo).isNone then some lo else t.firstFree (lo + 1) fuel

/-- The canonical form: keys strictly rising and no entry equal to the default `d` of its key. -/
def Tab.wf {α : Type} [DecidableEq α] (d : Nat → α) : Tab α → Bool
  | [] => true
  | [(j, v)] => !decide (v = d j)
  | (j, v) :: (k, w) :: t => !decide (v = d j) && decide (j < k) && Tab.wf d ((k, w) :: t)

end Sys2Proof.Machine
end

