-- ==== Sys2Proof/Machine/State.lean ====
section
/-!
DEFINITION. Machine/State.lean: every piece of state the spec gives the module, as plain data, and the machine right after
reset. INVENTORY.md, '## State', lists each piece with its rule and reset value.
-/
namespace Sys2Proof.Machine

/-- Why the machine stops with a fault. -/
inductive Fault where
  /-- Raised by a meaning whose command is no well-formed command of the table (Sys2Proof.Instr.wf): a sensor sample that
  does not hold 160 readings (R453). Safe: the hardware never sends such a command. -/
  | illFormed
  deriving DecidableEq, Repr

/-- Why a command has no meaning. -/
inductive Refusal where
  /-- Raised by an arm of exec whose command is not modelled. Safe: the model claims nothing about it. -/
  | notModelled (mnemonic : String)
  deriving DecidableEq, Repr

/-! ## Numbers held exactly -/

/-- An exact number: NaN, a signed infinity, or (-1)^neg * mant * 2^exp; mant = 0 is a signed zero (R46, R49). -/
inductive ExNum where
  | nan (signalling : Bool)
  | inf (neg : Bool)
  | fin (neg : Bool) (mant : Nat) (exp : Int)
  deriving DecidableEq, Repr

/-! ## Clusters (03, R74) -/

/-- The type tag of an accumulator set (R86). -/
inductive AccTag where
  | empty | f32 | f32w | i32
  deriving DecidableEq, Repr

/-- An accumulator set: its tag, and its elements keyed row * 128 + column; an unlisted element is zero (R86).
`held` is set while a collective holds the set as its source (R131). -/
structure AccSet where
  tag : AccTag
  elems : Tab ExNum
  held : Bool
  deriving DecidableEq, Repr

/-- A digest slot (R107). -/
structure DigSlot where
  sum : W64
  count : Nat
  nans : Nat
  deriving DecidableEq, Repr

/-- The asynchronous operations of R90. -/
inductive AsyncKind where
  | mov | gather | scatter | mirror | hash | send
  deriving DecidableEq, Repr

/-- How an asynchronous operation stands: running (with the packets it still waits for), or failed with a response and
an address (R93). -/
inductive AsyncState where
  | running
  | failed (resp : Nat) (addr : Nat)
  deriving DecidableEq, Repr

/-- An operation that holds a move slot: the instruction's words and its descriptors as they were at issue. -/
structure AsyncOp where
  kind : AsyncKind
  st : AsyncState
  pc : Nat
  seq : Nat
  issue : Issue
  mode : Nat
  seed : W64
  td : BitVec 128
  tdScale : BitVec 128
  ta : BitVec 128
  taScale : BitVec 128
  tidx : BitVec 128
  arg : W64
  gen : W64
  waiting : Nat
  answer : Nat
  addr : Nat
  deriving DecidableEq, Repr

/-- A move slot: its generation and the operation that holds it (R90). -/
structure MoveSlot where
  gen : Nat
  op : Option AsyncOp
  deriving DecidableEq, Repr

/-- Why an issued instruction waits on an event outside the cluster (R97, R98, R108, R115, R133). -/
inductive WaitKind where
  | cone (c : W64) | fence | halt | move (h : Nat) | recv | fxWait (h : Nat) | fxFence
  deriving DecidableEq, Repr

/-- The instruction that has issued and waits: what it waits for, its words, PC and issue sequence number. -/
structure Wait where
  kind : WaitKind
  issue : Issue
  cls : Nat
  op : Nat
  pc : Nat
  len : Nat
  seq : Nat
  deriving DecidableEq, Repr

/-- One cluster's private state (R74); S, the mode registers and the CL block's other fields are in `State.regs`. -/
structure Cluster where
  v : Tab (BitVec 8192)
  p : Tab (BitVec 512)
  t : Tab (BitVec 128)
  a : Tab AccSet
  slots : Tab MoveSlot
  digs : Tab DigSlot
  wait : Option Wait
  seq : Nat
  retry : Option (Nat × Nat)
  selftest : Option (Nat × Nat)
  qready : List (Nat × Nat × Nat)
  faulted : Bool
  excLen : Nat
  recs : Nat
  deriving DecidableEq, Repr

/-! ## Collectives and kilns (04, 05) -/

/-- One phase of a plan (R120). -/
structure Phase where
  axis : Nat
  nm : Nat
  idx : Nat
  base : Nat
  step : Nat
  deriving DecidableEq, Repr

/-- A plan descriptor (R119) as FX.PLAN loaded it. -/
structure Plan where
  alg : Nat
  op : Nat
  bfx : Bool
  chunk : Nat
  h : Nat
  stall : Nat
  ctxq : Nat
  cellq : Nat
  phases : List Phase
  deriving DecidableEq, Repr

/-- A contribution waiting in a source queue (R138): its CHUNK field and its words. -/
structure Contrib where
  coll : Nat
  chunk : Nat
  isRes : Bool
  data : List Byte
  deriving DecidableEq, Repr

/-- A valid plan register with its account (R122, R134, R172, R173, R180). `fix` is DETERMINISTIC when it was loaded
(R165); `at` is the count of the FX.PLAN. `spent` and `ret` are keyed phase * 4 + direction (0 minus, 1 plus, 2 local),
`rcum` phase * 2 + direction, `late` phase * 32 + line index with (last arrivals, lag total in ns). -/
structure PlanAcct where
  plan : Plan
  fix : Bool
  loadedAt : Nat
  q : Nat
  spent : Tab Nat
  ret : Tab Nat
  rcum : Tab Nat
  late : Tab (Nat × Nat)
  queue : List Contrib
  deriving DecidableEq, Repr

/-- The fused instructions of R116. -/
inductive Fused where
  | mmaRs | mmaAr | redAr | ag | bcast | a2a
  deriving DecidableEq, Repr

/-- What a collective holds as its source (R129, R131). -/
inductive HeldSrc where
  | none
  | acc (a0 b : Nat)
  | vreg (n : Nat)
  | tensor (ta : BitVec 128)
  deriving DecidableEq, Repr

/-- Where a collective's results land (R129, R132). -/
inductive LandDst where
  | none
  | tensor (td tcnt : BitVec 128)
  | vreg (n : Nat)
  deriving DecidableEq, Repr

/-- How a collective's stall timer stands (R143, R145, R150): it fires at a count, is frozen with some time left, or is
stopped. -/
inductive StallTimer where
  | runs (at_ : Nat)
  | frozen (left : Nat)
  | stopped
  deriving DecidableEq, Repr

/-- A collective in flight (R131-R146). `vals` are the 32-bit words of its elements in collective order (R127, R130);
`exps` the member's own pass-1 bytes and `agreed` the agreed ones by block (R139); `part` the bytes of one source of a
gather, and `n1` its chunks (R130); `next` is the next pass-2 chunk to queue (R139); `landed` what has landed here by chunk,
for the fold of R81. `fired` is the report of a stall timer that has fired, as CL.EXC_ADDR will hold it, and `fail` the phase in
which a chunk was abandoned (R144). -/
structure Coll where
  cl : Nat
  plan : Nat
  q : Nat
  kind : Fused
  pc : Nat
  seq : Nat
  op : Nat
  issue : Issue
  fmt : Nat
  rnd : Nat
  isInt : Bool
  src : HeldSrc
  dst : LandDst
  root : Nat
  nchunks : Nat
  part : Nat
  n1 : Nat
  vals : List Nat
  exps : List Nat
  agreed : Tab Nat
  next : Nat
  landed : Tab (List Byte)
  exc : Nat
  stall : StallTimer
  fired : Option Nat
  fail : Option Nat
  deriving DecidableEq, Repr

/-- The states of an accumulating context (R154). -/
inductive CtxState where
  | opened | final | held | fault
  deriving DecidableEq, Repr

/-- An accumulating context (R154). `heldAt` is the count at which it became HELD (R176) and `issued` whether EMASK is
known (R159); `parked` are operands that wait for their turn (R165) as (mask, late, bytes); `word` the FMT of its words and
`sat` whether a BFX word saturated (R70); `sent` whether its RED_PART is queued. A FREE entry is an unlisted one. -/
structure Ctx where
  st : CtxState
  fix : Bool
  own : Bool
  comp : Bool
  hres : Bool
  fmt : Nat
  op : Nat
  bfx : Bool
  coll : Nat
  chunk : Nat
  oidx : Nat
  link : Option Nat
  rmask : Nat
  emask : Nat
  group : Nat
  deadline : Nat
  repcnt : Nat
  errcnt : Nat
  ndet : Bool
  prevt : Nat
  last : Nat
  lag : Nat
  nops : Nat
  len : Nat
  heldAt : Nat
  issued : Bool
  parked : List (Nat × Nat × List Byte)
  word : Nat
  sat : Bool
  sent : Bool
  deriving DecidableEq, Repr

/-- A watch entry (R155). -/
structure Watch where
  coll : Nat
  chunk : Nat
  deadline : Nat
  tries : Nat
  fwd : BitVec 64
  res : BitVec 64
  deriving DecidableEq, Repr

/-- An entry of the stream context table that is not FREE. -/
inductive Entry where
  | acc (c : Ctx)
  | watch (w : Watch)
  deriving DecidableEq, Repr

/-- A result on its way to this member's destination (R177, R178): its collective ID and CHUNK, the packed bytes, the owner
context it comes from, the pool cells to release and the master ID they are charged to, and whether its bytes are written
and only its touch bits wait (R179). -/
structure Landing where
  coll : Nat
  chunk : Nat
  data : List Byte
  own : Option Nat
  cells : List Nat
  mid : Nat
  written : Bool
  blocks : List Nat
  deriving DecidableEq, Repr

/-! ## Packets, router and pool (06, 07) -/

/-- A packet (R209-R213). Word 1 and word 2 are kept whole and read by FORM. -/
structure Pkt where
  typ : BitVec 6
  cls : BitVec 3
  epoch : Bool
  ord : Bool
  cm : Bool
  vc : BitVec 2
  dst : BitVec 14
  src : BitVec 14
  slice : BitVec 12
  hops : BitVec 6
  form : Bool
  w1 : W64
  w2 : W64
  age : BitVec 24
  pcrc : BitVec 32
  payload : List Byte
  deriving DecidableEq, Repr

/-- A packet that has arrived at a port and whose header has not been routed (R228). `body` numbers a payload that is still
arriving; none when the packet is whole. A packet injected here holds its cells, with its payload `off` bytes into them. -/
structure Arrival where
  pkt : Pkt
  body : Option Nat
  cells : List Nat
  off : Nat
  deriving DecidableEq, Repr

/-- A descriptor: one queued copy of a packet (R225). Its payload lies `off` bytes into its cells: after the header, or at the
start of a kiln context's group (R244). -/
structure Desc where
  pkt : Pkt
  body : Option Nat
  cells : List Nat
  off : Nat
  inPort : Nat
  mid : Nat
  esc : Bool
  since : Nat
  deriving DecidableEq, Repr

/-- A packet queued for injection: `fixed` when its SLICE is the one it carries (an answer, or a packet of the port-19 units,
R278), `aged` when its AGE is (R213), the move slot that waits for its answer (R295), for a kiln output the cell group
it is sent from (R244), and `again` for a retransmission, which keeps its PSEQ (R295, R298). -/
structure Inj where
  pkt : Pkt
  fixed : Bool
  aged : Bool
  slot : Option Nat
  group : Option Nat
  again : Bool
  deriving DecidableEq, Repr

/-- An output port: the descriptor being sent, its accounts (R231) in units of 1/200 byte, and for each class the (input, VC)
index that its round robin served last (R230). -/
structure OutPort where
  sending : Option Desc
  floor3 : Nat
  floor4 : Nat
  floor5 : Nat
  floor6 : Nat
  cap6 : Nat
  rr : Tab Nat
  deriving DecidableEq, Repr

/-- A pool cell's tag (R243), with the share that it is charged to (R247): see Machine/Pool.lean. -/
structure CellTag where
  alloc : Bool
  ref : Nat
  part : Nat
  owner : Nat
  quar : Bool
  charge : Nat
  deriving DecidableEq, Repr

/-- A throttle entry (R242): rate in units of 0.58 GB/s, the count of the last cut, and whether a marked answer came in
the running window; `sent` counts the bytes sent in the window. -/
structure Throttle where
  rate : Nat
  tcut : Nat
  marked : Bool
  sent : Nat
  deriving DecidableEq, Repr

/-- An entry of the sequence filter (R296). -/
structure FilterEnt where
  hi : Nat
  seen : BitVec 64
  last : Nat
  deriving DecidableEq, Repr

/-- A request without an answer (R295, R298): the packet as injected, its point, when it was last sent, its retransmissions,
and the move slot it belongs to. -/
structure Req where
  pkt : Pkt
  point : InjPoint
  since : Nat
  tries : Nat
  cl : Nat
  slot : Option Nat
  deriving DecidableEq, Repr

/-! ## Links (06) -/

/-- A flit as it is held in the replay buffer (R187, R195). -/
structure TxFlit where
  seq : Nat
  ftype : Nat
  data : List Byte
  owner : Option Desc
  deriving DecidableEq, Repr

/-- A link control frame accepted in order (R191, R202). -/
structure Ctrl where
  sub : Nat
  data : List Byte
  deriving DecidableEq, Repr

/-- The IDENT fields of the peer that LNK.PEER_INFO does not show (R202). -/
structure Peer where
  flags : Nat
  part : Nat
  caps : Nat
  fwVersion : Nat
  topoHash : BitVec 128
  deriving DecidableEq, Repr

/-- A rate step in progress (R199): the code, whether RATE_ACK has come, and the results known. -/
structure RateStep where
  code : Nat
  acked : Bool
  mine : Option Bool
  theirs : Option Bool
  deriving DecidableEq, Repr

/-- CONE_SYNC measurement state of a link (R333, R334): times in units of 2^-8 ns. `sent` counts the messages sent, `txTime` and
`prevTxTime` are the transmit times of the last two, `rx` the (SEQ, receive time) of the latest peer messages, newest first;
`seen` whether the peer has announced its root, distance and flags since the link reached GLOST. -/
structure ConeSync where
  sent : Nat
  txTime : Nat
  prevTxTime : Nat
  rx : List (Nat × Nat)
  root : Nat
  dist : Nat
  flags : Nat
  seen : Bool
  deriving DecidableEq, Repr

/-- A link controller beyond its LNK registers. `replay` holds the sequenced flits of every packet with an unacknowledged flit
(R195, R292); `released` is the last acknowledged SEQ, `rxNext` the one expected next; `granted` the credits the peer holds and `owed`
those not yet returned (R193); `open_` the body of the packet being received, none where it is malformed; `retrain` the master
whose RETRAIN waits for the link to drain, `fast` the rate of a fast retrain (R200); `downNoted` whether LINK_UP is due (R302); `lit` whether
the peer's light has been present since the reset (R460). -/
structure Link where
  txNext : Nat
  released : Nat
  rxNext : Nat
  replay : List TxFlit
  credits : Tab Nat
  owed : Tab Nat
  granted : Tab Nat
  nakOut : Bool
  nakIn : Option Nat
  sameSeq : Nat
  sameCount : Nat
  replayTimes : List Nat
  open_ : Option Nat
  openNeed : Nat
  openPkt : Option Pkt
  openBytes : List Byte
  ctrlIn : List Ctrl
  identSent : Bool
  identSeenSent : Bool
  identSeenRecv : Bool
  peer : Peer
  step : Option RateStep
  passed : Nat
  cached : Tab (W64 × Nat)
  retrain : Option Nat
  fast : Option Nat
  feSent : Bool
  feAcked : Bool
  feServing : Bool
  lastRate : Option Nat
  leftGlost : Nat
  downNoted : Bool
  sleepDrain : Bool
  idle : Bool
  cs : ConeSync
  flits : Nat
  glostAll : Bool
  lit : Bool
  deriving DecidableEq, Repr

/-! ## Firmware, SCH and the host (13) -/

/-- Who submitted a command (R393): a register or QX.SUBMIT master, or a MGMT message with its packet. -/
structure Submitter where
  mid : Nat
  pkt : Option Pkt
  deriving DecidableEq, Repr

/-- A queued command: words 0-7 (R394) and its submitter. -/
structure Cmd where
  w : List W64
  sub : Submitter
  deriving DecidableEq, Repr

/-- How far a command in progress has come (R388, R398): what it waits for. A program copy keeps its load descriptor and a provenance
request its bytes; `bindWait` waits for the clusters, `bindClear` for the touch bitmap, and `lost` for SCH, whose watchdog expired
under it. -/
inductive RunKind where
  | copying (d : List W64) | clearing (unfence : Bool) | snapshot (step : W64) (gen : W64) | restoring
  | provenance (req : List Byte) | enrolling | activating (proc : Nat) | bindWait | bindClear | lost
  deriving DecidableEq, Repr

/-- A command that has begun and not completed: it stands at the head of its queue. -/
structure Run where
  q : Nat
  op : Nat
  kind : RunKind
  deriving DecidableEq, Repr

/-- The (SRC, TAG, PSEQ) of a CMD message, its time and its completion (R401). -/
structure SeenCmd where
  src : Nat
  tag : Nat
  pseq : Nat
  since : Nat
  ack : Option (W64 × W64)
  deriving DecidableEq, Repr

/-- A firmware processor's state (R385, R386). -/
inductive ProcState where
  | reset | running | restarting | fwFault
  deriving DecidableEq, Repr

/-- A processor: its state and the counts of its restarts within 60 s. -/
structure ProcSt where
  st : ProcState
  restarts : List Nat
  deriving DecidableEq, Repr

/-- A log record of R408 as its four words. -/
structure LogRec where
  w0 : W64
  w1 : W64
  w2 : W64
  w3 : W64
  deriving DecidableEq, Repr

/-- A host ring slot: its header fields and body (R402). -/
structure RingRec where
  rtype : Nat
  master : Nat
  body : List Byte
  deriving DecidableEq, Repr

/-- An open layer entry of the digest engine (R346). -/
structure LayerEnt where
  j : W64
  layer : Nat
  pubs : Nat
  sum : W64
  count : Nat
  nans : Nat
  first : Nat
  deriving DecidableEq, Repr

/-! ## Recovery (09) -/

/-- The mirror binding of R308. -/
structure MirrorBind where
  buddy : Nat
  en : Bool
  ward : Nat
  wardEn : Bool
  buddyBase : Nat
  wardBase : Nat
  half : Nat
  statusAddr : Nat
  deriving DecidableEq, Repr

/-- A MIRROR packet that waits for its generation to open (R309): its cluster and move slot, its generation, and the packet with
its data offset in ADDR. -/
structure MirWait where
  cl : Nat
  slot : Nat
  gen : W64
  pkt : Pkt
  deriving DecidableEq, Repr

/-- A restore that the mirror engine serves (R315): the half it reads, its STEP and BYTES, the restorer's base, the offset that is sent
next, the pushes without an answer, and the first status other than OK. -/
structure Push where
  half : Bool
  step : W64
  bytes : Nat
  base : Nat
  next : Nat
  out : Nat
  status : Nat
  deriving DecidableEq, Repr

/-- The mirror engine (R311, R312, R315). `opening` and `sealing` tell that the header with COMPLETE = 0 or 1 is unanswered; `bad`
lists the generations with a failed mirror and `bytes` is one past the highest data offset of each. `push` is the restore being
served; `window` is the restore window [D, D + N) with its step, the count of its last packet and the bytes written through it. -/
structure MirrorEng where
  bind : Option MirrorBind
  gen : W64
  whalf : Bool
  flip : Bool
  opening : Bool
  opened : Bool
  sealing : Bool
  localSnap : W64
  closing : Bool
  failed : Bool
  bad : List W64
  bytes : Tab Nat
  doneCone : W64
  rstatus : Nat
  waiting : List MirWait
  window : Option (Nat × Nat)
  windowStep : W64
  windowAt : Nat
  windowBytes : Nat
  push : Option Push
  deriving DecidableEq, Repr

/-- A suspicion of a neighbour (R303). -/
structure Suspect where
  coord : Nat
  since : Nat
  deriving DecidableEq, Repr

/-! ## SEC, management ports (14, 17) -/

/-- SPDM connection state of one transport (R428). -/
structure Spdm where
  version : Bool
  caps : Bool
  algs : Bool
  transcript : List Byte
  deriving DecidableEq, Repr

/-- What SEC holds (R419, R425, R431, R439). The fuse and OTP items survive reset. -/
structure Sec where
  vrootHash : BitVec 384
  vdbgHash : BitVec 384
  ownerHash : BitVec 384
  idkPriv : Nat
  idkPub : BitVec 768
  idkDead : Bool
  akPriv : Nat
  akPub : BitVec 768
  akCert : List Byte
  akValid : Bool
  drbgReqs : Nat
  drbgAt : Nat
  challengeAt : Nat
  svnPend : Bool
  enrolPend : Option (BitVec 384)
  recovery : Bool
  fallbackAtBoot : Bool
  spdmI3c : Spdm
  spdmFabric : Spdm
  svnStuck : Bool
  deriving DecidableEq, Repr

/-- The answer last sent on an outside port: which port, and its bytes. -/
structure Resp where
  port : Nat
  body : List Byte
  deriving DecidableEq, Repr

/-- Debug port, I3C target and MCTP/PLDM endpoint state (R414, R438, R491). -/
structure Mgmt where
  ir : Nat
  dmemResp : Nat
  dmemData : W64
  trst : Bool
  bscan : List Bool
  i3cAddr : Option Nat
  ibiEn : Bool
  mwl : Nat
  mrl : Nat
  ibiPend : Bool
  eid : Nat
  tid : Nat
  update : Option (Nat × Nat)
  resp : Option Resp
  deriving DecidableEq, Repr

/-! ## Image, power and start-up (15, 16) -/

/-- The image engine's operation in progress (R469): its OP, region, offset, length, source and who drives it. -/
structure ImgOp where
  op : Nat
  region : Nat
  off : Nat
  len : Nat
  src : Nat
  mid : Nat
  held : Bool
  deriving DecidableEq, Repr

/-- The topology table in force (R256) and the TOPO_HASH sent (R202, R478). -/
structure Topo where
  ex : Nat
  ey : Nat
  ez : Nat
  rootSet : Bool
  root : Nat
  bridgeSlot : Nat
  svBridge : Nat
  svOther : Nat
  hash : BitVec 128
  valid : Bool
  deriving DecidableEq, Repr

/-- The phases of R458: `hold` while the input is held in range, `waitReset` until RST_N is released, `ramp` until SEC starts, then as
named. -/
inductive BootPhase where
  | off | hold | waitReset | ramp | secBoot | failed | training | clearing | links | done
  deriving DecidableEq, Repr

/-- Power, clocks and pins (15, 17). `temps` holds the latest junction readings in hundredths of a degree and `offsets` the sensor
offsets in force (R475); `cleared` and `tested` are the two ends that the clearing phase of R458 waits for. `limAt` is the count of
entry to the limiter's stage, `limOver` since when the input has been above 2,000 W and `limUnder` below 1,900 W; `arith` and
`fabClk` are clock stretches in thousandths (R451). `capOver` and `capLogged` serve CAP_UNREACHED (R450); `emAt` is the count
at which each active emergency source was set; `volt` holds the frequencies whose voltage settles (R449); `thrAt` since when each
cluster is throttled, `thrOn` whether a notice stands, `thrFrom` and `thrLast` its first and last count (R452); `startWait` the
gated clusters with a START to take; `lsleep` the sleep mask in force; `cube` is CX + 8 CY + 64 CZ. `cycle` tells that the core rails stay
off until RST_N is asserted (R454, R456), and `emWait` lists the emergency sources that have set (true) or cleared while PWR did not
run, in order (R457). -/
structure Power where
  rstN : Bool
  pwrOk : Bool
  slotId : BitVec 6
  inRange : Bool
  railsUp : Bool
  trip : Bool
  thermtripN : Bool
  phase : BootPhase
  cleared : Bool
  tested : Bool
  temps : List Int
  offsets : List Int
  fthermF : Nat
  limAt : Nat
  limOver : Option Nat
  limUnder : Option Nat
  arith : Nat
  fabClk : Nat
  capOver : Option Nat
  capLogged : Option Nat
  emAt : Tab Nat
  volt : Tab Nat
  thrAt : Tab Nat
  thrOn : Bool
  thrFrom : Nat
  thrLast : Nat
  waking : List PUnit
  startWait : List Nat
  lsleep : Nat
  cube : Nat
  linksAt : Nat
  cycle : Bool
  emWait : List (Bool × EmSrc)
  deriving DecidableEq, Repr

/-- An access that waits at its target's front while ACC.CTRL.HOLD is set (R377). -/
inductive BusOp where
  | write (mid addr size value : Nat)
  | read (mid addr size : Nat)
  | unit (mid addr : Nat) (op : HbmOp) (rpt : StackReport)
  deriving DecidableEq, Repr

/-- HBM controller state beyond the HBM registers: window counts per pseudo-channel, imbalanced windows in a row, UE times
and the last CE record (R361, R368), and the refreshes made (R357). -/
structure HbmSt where
  win : Tab Nat
  bad : Nat
  ues : List Nat
  ceAt : Option Nat
  refresh : Nat
  deriving DecidableEq, Repr

/-! ## The machine -/

/-- The module. -/
structure State where
  pending : List Instr
  free : Nat
  regs : Tab W64
  cone : W64
  coneFrac : Nat
  coneSlew : Int
  coneGood : Nat
  clusters : Tab Cluster
  mem : List Host.Cell
  memErr : Tab (BitVec 72)
  poolMem : List Host.Cell
  flash : List Host.Cell
  hbmKey : W64
  acc : Tab W64
  tblErr : Tab Bool
  accWait : List BusOp
  bankA : Tab W64
  bankB : Tab W64
  bankErr : Tab Bool
  cellErr : Tab Bool
  tagErr : Tab Bool
  ctxErr : Tab Bool
  dieErr : Tab Nat
  meshErr : Tab Bool
  flipMax : Nat
  topo : Topo
  plans : Tab PlanAcct
  poisoned : Tab Bool
  colls : List Coll
  ctx : Tab Entry
  idDone : Tab Nat
  landings : List Landing
  kilnMiss : List (Nat × Nat)
  links : Tab Link
  arrivals : Tab (List Arrival)
  nextBody : Nat
  voqs : Tab (List Desc)
  voqHwm : Tab Nat
  outs : Tab OutPort
  delivered : Tab (List Desc)
  injq : Tab (List Inj)
  throttles : Tab (Tab Throttle)
  psq : Tab Nat
  requests : List Req
  filter : Tab FilterEnt
  recov : Tab Nat
  testCnt : Nat
  testBad : Nat
  spreadBad : Tab Nat
  cells : Tab CellTag
  suspects : Tab Suspect
  notes : List (Nat × Nat × Nat)
  rseq : Nat
  mirror : MirrorEng
  stepTable : Option (Nat × Nat)
  queues : Tab (List Cmd)
  subWords : Tab W64
  qOff : List Nat
  runs : List Run
  rrq : Nat
  mgmtSeen : List SeenCmd
  ringWait : List RingRec
  ringSeq : Nat
  hbAt : W64
  orphanStop : Bool
  started : List Nat
  procs : Tab ProcSt
  defers : Tab (Nat × Cmd)
  deferRuns : Tab (Nat × Cmd)
  clWait : List (Nat × Nat)
  imgTimer : W64
  imgAllow : W64
  emergClearAt : W64
  logQ : List LogRec
  logDrops : Nat
  held32 : Tab W64
  bus : Nat × List Byte
  origin : W64
  layers : List LayerEnt
  hbm : Tab HbmSt
  sec : Sec
  mgmt : Mgmt
  img : Option ImgOp
  power : Power
  fenceReq : Option (Nat × Nat)
  deriving DecidableEq, Repr

/-! ## Reset -/

/-- An empty accumulator set (R86). -/
def AccSet.reset : AccSet := ⟨.empty, [], false⟩

/-- A cleared digest slot. -/
def DigSlot.reset : DigSlot := ⟨0, 0, 0⟩

/-- A free move slot of generation 0 (log entry 8). -/
def MoveSlot.reset : MoveSlot := ⟨0, none⟩

/-- A cluster right after reset (R74, R86; log entry 8). -/
def Cluster.reset : Cluster where
  v := []
  p := []
  t := []
  a := []
  slots := []
  digs := []
  wait := none
  seq := 0
  retry := none
  selftest := none
  qready := []
  faulted := false
  excLen := 8
  recs := 0

/-- No peer known. -/
def Peer.reset : Peer := ⟨0, 0, 0, 0, 0⟩

/-- CONE_SYNC state of a link that has exchanged nothing. -/
def ConeSync.reset : ConeSync := ⟨0, 0, 0, [], 0, 0xFF, 0, false⟩

/-- A link controller right after reset: nothing sent, received or owed (R193, R198). -/
def Link.reset : Link where
  txNext := 0
  released := 0xFFF
  rxNext := 0
  replay := []
  credits := []
  owed := []
  granted := []
  nakOut := false
  nakIn := none
  sameSeq := 0
  sameCount := 0
  replayTimes := []
  open_ := none
  openNeed := 0
  openPkt := none
  openBytes := []
  ctrlIn := []
  identSent := false
  identSeenSent := false
  identSeenRecv := false
  peer := Peer.reset
  step := none
  passed := 0
  cached := []
  retrain := none
  fast := none
  feSent := false
  feAcked := false
  feServing := false
  lastRate := none
  leftGlost := 0
  downNoted := false
  sleepDrain := false
  idle := false
  cs := ConeSync.reset
  flits := 0
  glostAll := false
  lit := false

/-- An output port that is free, its accounts empty (R231). -/
def OutPort.reset : OutPort := ⟨none, 0, 0, 0, 0, 0, []⟩

/-- A free pool cell (R243). -/
def CellTag.reset : CellTag := ⟨false, 0, 0, 0, false, 0⟩

/-- A processor held in reset (R421 releases it). -/
def ProcSt.reset : ProcSt := ⟨.reset, []⟩

/-- The mirror engine without a binding; LOCAL_SNAP all ones: none (R312). -/
def MirrorEng.reset : MirrorEng where
  bind := none
  gen := 0
  whalf := false
  flip := false
  opening := false
  opened := false
  sealing := false
  localSnap := BitVec.allOnes 64
  closing := false
  failed := false
  bad := []
  bytes := []
  doneCone := 0
  rstatus := 0
  waiting := []
  window := none
  windowStep := 0
  windowAt := 0
  windowBytes := 0
  push := none

/-- SPDM before GET_VERSION. -/
def Spdm.reset : Spdm := ⟨false, false, false, []⟩

/-- SEC right after reset with blank fuses (source F; log entry 8): no key drawn, no challenge. -/
def Sec.reset : Sec where
  vrootHash := 0
  vdbgHash := 0
  ownerHash := 0
  idkPriv := 0
  idkPub := 0
  idkDead := false
  akPriv := 0
  akPub := 0
  akCert := []
  akValid := false
  drbgReqs := 0
  drbgAt := 0
  challengeAt := 0
  svnPend := false
  enrolPend := none
  recovery := false
  fallbackAtBoot := false
  spdmI3c := Spdm.reset
  spdmFabric := Spdm.reset
  svnStuck := false

/-- The management ports right after reset: MWL and MRL 256 (R491), IR IDCODE, no address, no EID (log entry 24). -/
def Mgmt.reset : Mgmt where
  ir := 0x01
  dmemResp := 0
  dmemData := 0
  trst := false
  bscan := []
  i3cAddr := none
  ibiEn := true
  mwl := 256
  mrl := 256
  ibiPend := false
  eid := 0
  tid := 0
  update := none
  resp := none

/-- The fallback topology of R478: extents 1x1x1, no root set, SV_OTHER 0xFF, hash all zero. -/
def Topo.fallback : Topo where
  ex := 1
  ey := 1
  ez := 1
  rootSet := false
  root := 0
  bridgeSlot := 0
  svBridge := 0xFF
  svOther := 0xFF
  hash := 0
  valid := false

/-- Power right after RST_N is released with the rails up: SEC is about to start (R458, R461; log entry 7). -/
def Power.reset : Power where
  rstN := true
  pwrOk := true
  slotId := 0x3F
  inRange := true
  railsUp := true
  trip := false
  thermtripN := true
  phase := .ramp
  cleared := false
  tested := false
  temps := []
  offsets := []
  fthermF := 2000
  limAt := 0
  limOver := none
  limUnder := none
  arith := 1000
  fabClk := 1000
  capOver := none
  capLogged := none
  emAt := []
  volt := []
  thrAt := []
  thrOn := false
  thrFrom := 0
  thrLast := 0
  waking := []
  startWait := []
  lsleep := 0
  cube := 0
  linksAt := 0
  cycle := false
  emWait := []

/-- An HBM controller that has counted nothing. -/
def HbmSt.reset : HbmSt := ⟨[], 0, [], none, 0⟩

/-- The machine right after reset (R461): BOOTING, every register at its Reset column, every queue empty, memory with
nothing listed. -/
def State.reset : State where
  pending := []
  free := 0
  regs := []
  cone := 0
  coneFrac := 0
  coneSlew := 0
  coneGood := 0
  clusters := []
  mem := []
  memErr := []
  poolMem := []
  flash := []
  hbmKey := 0
  acc := []
  tblErr := []
  accWait := []
  bankA := []
  bankB := []
  bankErr := []
  cellErr := []
  tagErr := []
  ctxErr := []
  dieErr := []
  meshErr := []
  flipMax := 0
  topo := Topo.fallback
  plans := []
  poisoned := []
  colls := []
  ctx := []
  idDone := []
  landings := []
  kilnMiss := []
  links := []
  arrivals := []
  nextBody := 0
  voqs := []
  voqHwm := []
  outs := []
  delivered := []
  injq := []
  throttles := []
  psq := []
  requests := []
  filter := []
  recov := []
  testCnt := 0
  testBad := 0
  spreadBad := []
  cells := []
  suspects := []
  notes := []
  rseq := 0
  mirror := MirrorEng.reset
  stepTable := none
  queues := []
  subWords := []
  qOff := []
  runs := []
  rrq := 63
  mgmtSeen := []
  ringWait := []
  ringSeq := 0
  hbAt := 0
  orphanStop := false
  started := []
  procs := []
  defers := []
  deferRuns := []
  clWait := []
  imgTimer := 0x1900064
  imgAllow := 0x100000
  emergClearAt := 0
  logQ := []
  logDrops := 0
  held32 := []
  bus := (0, [])
  origin := 0
  layers := []
  hbm := []
  sec := Sec.reset
  mgmt := Mgmt.reset
  img := none
  power := Power.reset
  fenceReq := none

end Sys2Proof.Machine
end

