-- ==== Sys2Proof/Machine/Ops.lean ====
section
/-!
DEFINITION. Machine/Ops.lean: the named operations over registers, time and memory bytes that every meaning uses.
-/
namespace Sys2Proof.Machine

/-! ## Registers -/

/-- The block kind of a block index (R35) and the instance within the kind; none where the index is not assigned. -/
def blkOf (b : Nat) : Option (Blk × Nat) :=
  if b < 14 then
    some (match b with
      | 0 => .sys | 1 => .cone | 2 => .pwr | 3 => .sec | 4 => .sch | 5 => .fab | 6 => .route | 7 => .pool
      | 8 => .kln | 9 => .dig | 10 => .acc | 11 => .img | 12 => .log | _ => .apc, 0)
  else if 0x10 ≤ b && b ≤ 0x1D then some (.lnk, b - 0x10)
  else if 0x20 ≤ b && b ≤ 0x27 then some (.hbm, b - 0x20)
  else if 0x100 ≤ b && b ≤ 0x17F then some (.cl, b - 0x100)
  else none

/-- Whether row `d` of a map holds offset `o`. -/
def RegDesc.holds (d : RegDesc) (o : Nat) : Bool :=
  if d.count == 1 then o == d.off
  else d.off ≤ o && (o - d.off) % d.stride == 0 && (o - d.off) / d.stride < d.count

/-- The row of the register at offset `o` of a block kind; none where the offset is not assigned. -/
def regDesc (b : Blk) (o : Nat) : Option RegDesc := (blkRegs b).find? (·.holds o)

/-- The row of the register with key `k` (block index * 2^20 + offset). -/
def keyDesc (k : Nat) : Option RegDesc :=
  match blkOf (k / 0x100000) with
  | some (b, _) => regDesc b (k % 0x100000)
  | none => none

/-- The default allowance of a class (R248): torus port per VC, service port. -/
def allowDefault (c : Nat) : Nat × Nat :=
  match c with
  | 0 => (64, 64) | 1 => (40, 40) | 2 => (1280, 0) | 3 => (576, 576) | 4 => (1280, 1280) | 5 => (576, 0)
  | 6 => (576, 0) | _ => (64, 64)

/-- The value at reset of the register with key `k` (its Reset column; FAB.ALLOWc as R248 says). -/
def regReset (k : Nat) : W64 :=
  if 0x500040 ≤ k && k < 0x500080 then
    let a := allowDefault ((k - 0x500040) / 8)
    BitVec.ofNat 64 (a.2 * 0x10000 + a.1)
  else match keyDesc k with
    | some d => BitVec.ofNat 64 d.rst
    | none => 0

/-- The stored value of the register with key `k`. -/
def State.rd (s : State) (k : Nat) : W64 := s.regs.get (regReset k) k

/-- Stores a register's value. -/
def State.wr (s : State) (k : Nat) (v : W64) : State := { s with regs := s.regs.set (regReset k) k v }

/-- Bits [lo + wid - 1 : lo] of a word. -/
def bitsOf (w : W64) (lo wid : Nat) : Nat := w.toNat / 2 ^ lo % 2 ^ wid

/-- `w` with bits [lo + wid - 1 : lo] replaced by `v` modulo 2^wid. -/
def setBits (w : W64) (lo wid v : Nat) : W64 :=
  BitVec.ofNat 64 (w.toNat - bitsOf w lo wid * 2 ^ lo + v % 2 ^ wid * 2 ^ lo)

/-- The value of a register field. -/
def State.get (s : State) (f : Field) : Nat := bitsOf (s.rd f.key) f.lo f.wid

/-- Writes a register field. -/
def State.put (s : State) (f : Field) (v : Nat) : State := s.wr f.key (setBits (s.rd f.key) f.lo f.wid v)

/-- Adds `n` to a counter field, saturating (the registers' counters, R63 to R482). -/
def State.bump (s : State) (f : Field) (n : Nat := 1) : State := s.put f (min (s.get f + n) (2 ^ f.wid - 1))

/-- Whether a one-bit field is set. -/
def State.flag (s : State) (f : Field) : Bool := s.get f != 0

/-- Writes a one-bit field. -/
def State.setFlag (s : State) (f : Field) (b : Bool) : State := s.put f (if b then 1 else 0)

/-! ## Time and free values -/

/-- The cone count (R330). -/
def State.now (s : State) : Nat := s.cone.toNat

/-- One nanosecond of the cone count (R330): a pending slew moves it by at most 200 ppm, here one unit of 2^-8 ns in
every 20 ns (R335), and the count never decreases. -/
def coneTick (s : State) : State :=
  let adj : Int := if s.now % 20 = 0 then (if s.coneSlew > 0 then 1 else if s.coneSlew < 0 then -1 else 0) else 0
  let f := (256 + (s.coneFrac : Int) + adj).toNat
  { s with cone := s.cone + BitVec.ofNat 64 (f / 256), coneFrac := f % 256, coneSlew := s.coneSlew - adj }

/-- A fresh free value of `w` bits (log entry 11). -/
def State.fresh (s : State) (w : Nat) : BitVec w × State := (Config.freeBits w s.free, { s with free := s.free + 1 })

/-! ## Bytes -/

/-- A memory: (address, byte) pairs in the canonical form of a table. -/
abbrev Memory := List Host.Cell

/-- The canonical form of a memory whose unlisted bytes read as `d`: addresses strictly rising, no entry equal to `d`. -/
abbrev Memory.wf (d : Byte) (m : Memory) : Bool := Tab.wf (fun _ => d) m

/-- `n` bytes of a number, least significant first (R9). -/
def bytesLE (n v : Nat) : List Byte :=
  match n with
  | 0 => []
  | n + 1 => BitVec.ofNat 8 v :: bytesLE n (v / 256)

/-- The number of a little-endian byte string. -/
def natLE : List Byte → Nat
  | [] => 0
  | b :: t => b.toNat + 256 * natLE t

/-- The number of a big-endian byte string. -/
def natBE (l : List Byte) : Nat := natLE l.reverse

/-- `n` bytes of a number, most significant first. -/
def bytesBE (n v : Nat) : List Byte := (bytesLE n v).reverse

/-- Reads `n` bytes of a cell list from `a`; an unlisted byte reads as `d`. -/
def readBytes (d : Byte) (m : Memory) (a : Nat) : Nat → List Byte
  | 0 => []
  | n + 1 => Tab.get d m a :: readBytes d m (a + 1) n

/-- Writes a byte string from `a`. -/
def writeBytes (d : Byte) (m : Memory) (a : Nat) : List Byte → Memory
  | [] => m
  | b :: t => writeBytes d (Tab.set d m a b) (a + 1) t

end Sys2Proof.Machine
end

