-- ==== Sys2Proof/Machine/Crypto.lean ====
section
/-!
DEFINITION. Machine/Crypto.lean: SHA-384 (FIPS 180-4) and ECDSA over P-384 (FIPS 186-5), the only algorithms of SEC (R421, R432),
of the hash engine (R348) and of TOPO_HASH (R202).
-/
namespace Sys2Proof.Machine

/-! ## SHA-384 -/

/-- Round constants 0 to 19 of SHA-512. -/
def shaK0 : List W64 :=
  [0x428a2f98d728ae22, 0x7137449123ef65cd, 0xb5c0fbcfec4d3b2f, 0xe9b5dba58189dbbc,
   0x3956c25bf348b538, 0x59f111f1b605d019, 0x923f82a4af194f9b, 0xab1c5ed5da6d8118,
   0xd807aa98a3030242, 0x12835b0145706fbe, 0x243185be4ee4b28c, 0x550c7dc3d5ffb4e2,
   0x72be5d74f27b896f, 0x80deb1fe3b1696b1, 0x9bdc06a725c71235, 0xc19bf174cf692694,
   0xe49b69c19ef14ad2, 0xefbe4786384f25e3, 0x0fc19dc68b8cd5b5, 0x240ca1cc77ac9c65]

/-- Round constants 20 to 39 of SHA-512. -/
def shaK1 : List W64 :=
  [0x2de92c6f592b0275, 0x4a7484aa6ea6e483, 0x5cb0a9dcbd41fbd4, 0x76f988da831153b5,
   0x983e5152ee66dfab, 0xa831c66d2db43210, 0xb00327c898fb213f, 0xbf597fc7beef0ee4,
   0xc6e00bf33da88fc2, 0xd5a79147930aa725, 0x06ca6351e003826f, 0x142929670a0e6e70,
   0x27b70a8546d22ffc, 0x2e1b21385c26c926, 0x4d2c6dfc5ac42aed, 0x53380d139d95b3df,
   0x650a73548baf63de, 0x766a0abb3c77b2a8, 0x81c2c92e47edaee6, 0x92722c851482353b]

/-- Round constants 40 to 59 of SHA-512. -/
def shaK2 : List W64 :=
  [0xa2bfe8a14cf10364, 0xa81a664bbc423001, 0xc24b8b70d0f89791, 0xc76c51a30654be30,
   0xd192e819d6ef5218, 0xd69906245565a910, 0xf40e35855771202a, 0x106aa07032bbd1b8,
   0x19a4c116b8d2d0c8, 0x1e376c085141ab53, 0x2748774cdf8eeb99, 0x34b0bcb5e19b48a8,
   0x391c0cb3c5c95a63, 0x4ed8aa4ae3418acb, 0x5b9cca4f7763e373, 0x682e6ff3d6b2b8a3,
   0x748f82ee5defb2fc, 0x78a5636f43172f60, 0x84c87814a1f0ab72, 0x8cc702081a6439ec]

/-- Round constants 60 to 79 of SHA-512. -/
def shaK3 : List W64 :=
  [0x90befffa23631e28, 0xa4506cebde82bde9, 0xbef9a3f7b2c67915, 0xc67178f2e372532b,
   0xca273eceea26619c, 0xd186b8c721c0c207, 0xeada7dd6cde0eb1e, 0xf57d4f7fee6ed178,
   0x06f067aa72176fba, 0x0a637dc5a2c898a6, 0x113f9804bef90dae, 0x1b710b35131c471b,
   0x28db77f523047d84, 0x32caab7b40c72493, 0x3c9ebe0a15c9bebc, 0x431d67c49c100d4c,
   0x4cc5d4becb3e42b6, 0x597f299cfc657e2a, 0x5fcb6fab3ad6faec, 0x6c44198c4a475817]

/-- The round constants. -/
def shaK : List W64 := shaK0 ++ shaK1 ++ shaK2 ++ shaK3

/-- The eight working words. -/
structure Sha where
  a : W64
  b : W64
  c : W64
  d : W64
  e : W64
  f : W64
  g : W64
  h : W64
  deriving DecidableEq, Repr

/-- The initial hash value of SHA-384. -/
def shaInit : Sha :=
  ⟨0xcbbb9d5dc1059ed8, 0x629a292a367cd507, 0x9159015a3070dd17, 0x152fecd8f70e5939,
   0x67332667ffc00b31, 0x8eb44a8768581511, 0xdb0c2e0d64f98fa7, 0x47b5481dbefa4fa4⟩

/-- One round: the working words and the next sixteen words of the schedule. -/
def shaRound (q : Sha × List W64) (k : W64) : Sha × List W64 :=
  let x := q.1
  let w := fun (j : Nat) => q.2.getD j 0
  let s1 := x.e.rotateRight 14 ^^^ x.e.rotateRight 18 ^^^ x.e.rotateRight 41
  let t1 := x.h + s1 + ((x.e &&& x.f) ^^^ (~~~x.e &&& x.g)) + k + w 0
  let s0 := x.a.rotateRight 28 ^^^ x.a.rotateRight 34 ^^^ x.a.rotateRight 39
  let t2 := s0 + ((x.a &&& x.b) ^^^ (x.a &&& x.c) ^^^ (x.b &&& x.c))
  let u0 := (w 1).rotateRight 1 ^^^ (w 1).rotateRight 8 ^^^ (w 1) >>> 7
  let u1 := (w 14).rotateRight 19 ^^^ (w 14).rotateRight 61 ^^^ (w 14) >>> 6
  (⟨t1 + t2, x.a, x.b, x.c, x.d + t1, x.e, x.f, x.g⟩, q.2.drop 1 ++ [u1 + w 9 + u0 + w 0])

/-- One block of sixteen words. -/
def shaBlock (x : Sha) (w : List W64) : Sha :=
  let y := (shaK.foldl shaRound (x, w)).1
  ⟨x.a + y.a, x.b + y.b, x.c + y.c, x.d + y.d, x.e + y.e, x.f + y.f, x.g + y.g, x.h + y.h⟩

/-- The words of a byte string, big-endian; `n` of them at most. -/
def beWords (l : List Byte) : Nat → List W64
  | 0 => []
  | n + 1 => if l.isEmpty then [] else BitVec.ofNat 64 (natBE (l.take 8)) :: beWords (l.drop 8) n

/-- The blocks of a padded message, `n` at most. -/
def shaBlocks (x : Sha) (l : List Byte) : Nat → Sha
  | 0 => x
  | n + 1 => if l.isEmpty then x else shaBlocks (shaBlock x (beWords (l.take 128) 16)) (l.drop 128) n

/-- A message with SHA-512's padding. -/
def shaPad (l : List Byte) : List Byte := l ++ [0x80] ++ List.replicate ((239 - l.length % 128) % 128) 0 ++ bytesBE 16 (8 * l.length)

/-- SHA-384 of a byte string: its 48 bytes as a number, first byte most significant. -/
def sha384 (l : List Byte) : BitVec 384 :=
  let x := shaBlocks shaInit (shaPad l) (l.length / 128 + 2)
  BitVec.ofNat 384 (natBE ([x.a, x.b, x.c, x.d, x.e, x.f].flatMap fun w => bytesBE 8 w.toNat))

/-! ## ECDSA over P-384 -/

/-- The field prime. -/
def p384 : Nat := 2 ^ 384 - 2 ^ 128 - 2 ^ 96 + 2 ^ 32 - 1
/-- The group order. -/
def n384 : Nat := 0xffffffffffffffffffffffffffffffffffffffffffffffffc7634d81f4372ddf581a0db248b0a77aecec196accc52973
/-- The coefficient b of y^2 = x^3 - 3x + b. -/
def b384 : Nat := 0xb3312fa7e23ee7e4988e056be3f82d19181d9c6efe8141120314088f5013875ac656398d8a2ed19d2a85c8edd3ec2aef
/-- The base point. -/
def g384 : Nat × Nat :=
  (0xaa87ca22be8b05378eb1c71ef320ad746e1d3b628ba79b9859f741e082542a385502f25dbf55296c3a545e3872760ab7,
   0x3617de4a96262c6f5d9e98bf9292dc29f8f41dbd289a147ce9da3113b5f0b8c00a60b1ce1d7e819d7a431d7c90ea0e5f)

/-- b^e modulo m, by the lowest `n` bits of e. -/
def powMod (m b e acc : Nat) : Nat → Nat
  | 0 => acc
  | n + 1 => powMod m (b * b % m) (e / 2) (if e % 2 = 1 then acc * b % m else acc) n

/-- The inverse modulo a prime below 2^384. -/
def invMod (m a : Nat) : Nat := powMod m (a % m) (m - 2) 1 384

/-- A point; none is the point at infinity. -/
abbrev EcPoint := Option (Nat × Nat)

/-- Sum of two points. -/
def ecAdd (a b : EcPoint) : EcPoint :=
  match a, b with
  | none, b => b
  | a, none => a
  | some (x1, y1), some (x2, y2) =>
    if x1 = x2 && (y1 + y2) % p384 = 0 then none
    else
      let l := if x1 = x2 then (3 * x1 * x1 + p384 - 3) * invMod p384 (2 * y1) % p384
        else (y2 + p384 - y1) * invMod p384 (x2 + p384 - x1) % p384
      let x3 := (l * l + 2 * p384 - x1 - x2) % p384
      some (x3, (l * (x1 + p384 - x3) + p384 - y1) % p384)

/-- k times a point, by the lowest `n` bits of k. -/
def ecMul (k : Nat) (a acc : EcPoint) : Nat → EcPoint
  | 0 => acc
  | n + 1 => ecMul (k / 2) (ecAdd a a) (if k % 2 = 1 then ecAdd acc a else acc) n

/-- Whether (x, y) is a point of the curve. -/
def ecValid (x y : Nat) : Bool := decide (x < p384) && decide (y < p384) && y * y % p384 == (x * x * x + (p384 - 3) * x + b384) % p384

/-- The public key of a private key. -/
def ecPub (d : Nat) : EcPoint := ecMul d (some g384) none 384

/-- X then Y as 96 bytes' number. -/
def ecKeyNat (a : EcPoint) : Nat := match a with | some (x, y) => x * 2 ^ 384 + y | none => 0

/-- Verifies (r, s) over digest `e` with a public key. -/
def ecVerify (key : BitVec 768) (e r s : Nat) : Bool :=
  let x := key.toNat / 2 ^ 384
  let y := key.toNat % 2 ^ 384
  if !ecValid x y || r = 0 || n384 ≤ r || s = 0 || n384 ≤ s then false
  else
    let w := invMod n384 s
    match ecAdd (ecMul (e * w % n384) (some g384) none 384) (ecMul (r * w % n384) (some (x, y)) none 384) with
    | some (x1, _) => x1 % n384 == r
    | none => false

/-- Signs digest `e` with private key `d` and per-message secret `k`. -/
def ecSign (d k e : Nat) : Nat × Nat :=
  let r := match ecMul k (some g384) none 384 with | some (x, _) => x % n384 | none => 0
  (r, invMod n384 k * (e + r * d) % n384)

end Sys2Proof.Machine
end

