-- ==== Sys2Proof/Machine/Flags.lean ====
section
/-!
DEFINITION. Machine/Flags.lean: the exception field of R63, what an arithmetic event reports, and the hash of R344 from which
stochastic rounding draws.
-/
namespace Sys2Proof.Machine

/-- Invalid (R63, bit 0). -/
def fNV : Nat := 1
/-- Division by zero (R63, bit 1). -/
def fDZ : Nat := 2
/-- Overflow (R63, bit 2). -/
def fOF : Nat := 4
/-- Underflow (R63, bit 3). -/
def fUF : Nat := 8
/-- Inexact (R63, bit 4). -/
def fNX : Nat := 16
/-- Matrix checksum mismatch (R63, bit 5). -/
def fMXCHK : Nat := 32
/-- Residue mismatch (R63, bit 6). -/
def fRESCHK : Nat := 64

/-- An exact result with the flags that the operation raises before rounding, and the KIND of its invalid event (R64). -/
structure ARes where
  val : ExNum
  fl : Nat
  kind : Option Nat
  deriving DecidableEq, Repr

/-- A result in a destination format: its code, its flags and the KIND of its invalid event. -/
structure CRes where
  code : Nat
  fl : Nat
  kind : Option Nat
  deriving DecidableEq, Repr

/-- An exact result that raises nothing. -/
def ARes.ok (v : ExNum) : ARes := ⟨v, 0, none⟩

/-- NaN with the invalid flag and its KIND. -/
def ARes.invalid (k : Nat) : ARes := ⟨.nan false, fNV, some k⟩

/-- A code that raises nothing. -/
def CRes.ok (c : Nat) : CRes := ⟨c, 0, none⟩

/-- A result after an operation that raised `fl` and `kind` before it. -/
def CRes.after (r : CRes) (fl : Nat) (kind : Option Nat) : CRes := ⟨r.code, r.fl ||| fl, kind.or r.kind⟩

/-- An invalid event's place and kind: TILE, ELEM, KIDX, KIND (R64). -/
abbrev Event := Nat × Nat × Nat × Nat

/-- Whether an event comes before another: the lower TILE, then ELEM, then KIDX (R64). -/
def Event.before (x y : Event) : Bool :=
  decide (x.1 < y.1) || (x.1 == y.1 && (decide (x.2.1 < y.2.1) || (x.2.1 == y.2.1 && decide (x.2.2.1 < y.2.2.1))))

/-- What an instruction gathers over its elements: the exception field and its first invalid event. -/
structure Gather where
  fl : Nat
  ev : Option Event
  deriving DecidableEq, Repr

/-- Nothing raised. -/
def Gather.none : Gather := ⟨0, Option.none⟩

/-- Adds an element's flags and its invalid event, which replaces a later one. -/
def Gather.add (g : Gather) (fl : Nat) (ev : Option Event) : Gather :=
  ⟨g.fl ||| fl, match g.ev, ev with
    | Option.none, e => e
    | e, Option.none => e
    | some x, some y => some (if Event.before y x then y else x)⟩

/-- Adds a result at a place. -/
def Gather.res (g : Gather) (r : CRes) (tile elem kidx : Nat) : Gather :=
  g.add r.fl (r.kind.map fun k => (tile, elem, kidx, k))

/-- f of R344. -/
def mixF (z : W64) : W64 :=
  let z := (z ^^^ (z >>> 30)) * 0xBF58476D1CE4E5B9
  let z := (z ^^^ (z >>> 27)) * 0x94D049BB133111EB
  z ^^^ (z >>> 31)

/-- mix64 of R344. -/
def mix64 (a b : W64) : W64 := mixF (mixF (a + 0x9E3779B97F4A7C15) ^^^ b)

/-- A rounding in force: R57's first three modes; stochastic rounding with the word u of R58. -/
inductive Rnd where
  | rne
  | rz
  | sr (u : W64)
  deriving DecidableEq, Repr

/-- The rounding of RND code `m` (0 nearest, 1 toward zero, 2 stochastic) at element `e`: u := mix64(SEED xor (n << 56)
xor PC, e) (R58). -/
def rndAt (m : Nat) (seed : W64) (n pc e : Nat) : Rnd :=
  match m with
  | 1 => .rz
  | 2 => .sr (mix64 (seed ^^^ BitVec.ofNat 64 (n * 2 ^ 56) ^^^ BitVec.ofNat 64 pc) (BitVec.ofNat 64 e))
  | _ => .rne

end Sys2Proof.Machine
end

