-- ==== Sys2Proof/Machine/Pkt.lean ====
section
/-!
DEFINITION. Machine/Pkt.lean: packet headers (R209-R214), CRC-32C (R188), and the queues of the injection points.
-/
namespace Sys2Proof.Machine

/-! ## CRC-32C (R188) -/

/-- One bit of the reflected CRC. -/
def crcBit (c : BitVec 32) : BitVec 32 := if c.getLsbD 0 then (c >>> 1) ^^^ 0x82F63B78 else c >>> 1

/-- One byte of the reflected CRC. -/
def crcByte (c : BitVec 32) (b : Byte) : BitVec 32 :=
  let c := c ^^^ b.zeroExtend 32
  crcBit (crcBit (crcBit (crcBit (crcBit (crcBit (crcBit (crcBit c)))))))

/-- CRC-32C of a byte string, bytes in ascending order; that of the empty string is 0. -/
def crc32c (l : List Byte) : BitVec 32 := l.foldl crcByte 0xFFFFFFFF ^^^ 0xFFFFFFFF

/-! ## Packet types and classes (R214) -/

/-- WRITE. -/
def tWRITE : BitVec 6 := 0x01
/-- READ_REQ. -/
def tREADREQ : BitVec 6 := 0x02
/-- READ_RSP. -/
def tREADRSP : BitVec 6 := 0x03
/-- MSG. -/
def tMSG : BitVec 6 := 0x04
/-- RED. -/
def tRED : BitVec 6 := 0x08
/-- RED_PART. -/
def tREDPART : BitVec 6 := 0x09
/-- RED_RES. -/
def tREDRES : BitVec 6 := 0x0A
/-- REPAIR. -/
def tREPAIR : BitVec 6 := 0x0B
/-- DONE. -/
def tDONE : BitVec 6 := 0x0C
/-- MGMT. -/
def tMGMT : BitVec 6 := 0x10
/-- CONE_SYNC. -/
def tCONESYNC : BitVec 6 := 0x11
/-- ROUTE_UPD. -/
def tROUTEUPD : BitVec 6 := 0x12
/-- FAULT_NOTE. -/
def tFAULTNOTE : BitVec 6 := 0x13
/-- MIRROR. -/
def tMIRROR : BitVec 6 := 0x14
/-- TEST. -/
def tTEST : BitVec 6 := 0x15

/-- COLL or TAG of word 1 (R211). -/
def Pkt.coll (p : Pkt) : Nat := bitsOf p.w1 52 12
/-- CHUNK or PSEQ. -/
def Pkt.chunk (p : Pkt) : Nat := bitsOf p.w1 28 24
/-- LEN. -/
def Pkt.len (p : Pkt) : Nat := bitsOf p.w1 15 13
/-- FMT. -/
def Pkt.fmt (p : Pkt) : Nat := bitsOf p.w1 11 4
/-- OP or STATUS. -/
def Pkt.op (p : Pkt) : Nat := bitsOf p.w1 7 4
/-- FLOW of word 2 (R212). -/
def Pkt.flow (p : Pkt) : Nat := bitsOf p.w2 48 16
/-- ADDR of word 2 (R212). -/
def Pkt.addr (p : Pkt) : Nat := bitsOf p.w2 0 48

/-- Word 1 from its fields (R211). -/
def mkW1 (a b len fmt op : Nat) : W64 :=
  BitVec.ofNat 64 (a % 2 ^ 12 * 2 ^ 52 + b % 2 ^ 24 * 2 ^ 28 + len % 2 ^ 13 * 2 ^ 15 + fmt % 16 * 2 ^ 11 + op % 16 * 2 ^ 7)

/-- Word 2 of the memory types (R212). -/
def mkW2 (flow addr : Nat) : W64 := BitVec.ofNat 64 (flow % 2 ^ 16 * 2 ^ 48 + addr % 2 ^ 48)

/-- Word 0 of a header (R209). -/
def Pkt.w0 (p : Pkt) : W64 :=
  BitVec.ofNat 64 (p.typ.toNat * 2 ^ 58 + p.cls.toNat * 2 ^ 55 + p.epoch.toNat * 2 ^ 54 + p.ord.toNat * 2 ^ 53 + p.cm.toNat * 2 ^ 52
    + p.vc.toNat * 2 ^ 50 + p.dst.toNat * 2 ^ 36 + p.src.toNat * 2 ^ 22 + p.slice.toNat * 2 ^ 10 + p.hops.toNat * 2 ^ 4
    + p.form.toNat * 2 ^ 3)

/-- Word 3 of a header (R213). -/
def Pkt.w3 (p : Pkt) : W64 := BitVec.ofNat 64 (p.age.toNat * 2 ^ 40 + p.pcrc.toNat)

/-- The 32 header bytes (R208). -/
def Pkt.header (p : Pkt) : List Byte :=
  bytesLE 8 p.w0.toNat ++ bytesLE 8 p.w1.toNat ++ bytesLE 8 p.w2.toNat ++ bytesLE 8 p.w3.toNat

/-- A packet from its 32 header bytes, without its payload. -/
def Pkt.ofHeader (h : List Byte) : Pkt :=
  let w0 := BitVec.ofNat 64 (natLE (h.take 8))
  let w3 := BitVec.ofNat 64 (natLE ((h.drop 24).take 8))
  { typ := BitVec.ofNat 6 (bitsOf w0 58 6), cls := BitVec.ofNat 3 (bitsOf w0 55 3), epoch := w0.getLsbD 54,
    ord := w0.getLsbD 53, cm := w0.getLsbD 52, vc := BitVec.ofNat 2 (bitsOf w0 50 2), dst := BitVec.ofNat 14 (bitsOf w0 36 14),
    src := BitVec.ofNat 14 (bitsOf w0 22 14), slice := BitVec.ofNat 12 (bitsOf w0 10 12), hops := BitVec.ofNat 6 (bitsOf w0 4 6),
    form := w0.getLsbD 3, w1 := BitVec.ofNat 64 (natLE ((h.drop 8).take 8)),
    w2 := BitVec.ofNat 64 (natLE ((h.drop 16).take 8)), age := BitVec.ofNat 24 (bitsOf w3 40 24),
    pcrc := BitVec.ofNat 32 (bitsOf w3 0 32), payload := [] }

/-- The carried length P: LEN, but 0 for a READ_REQ (R208). -/
def Pkt.carried (p : Pkt) : Nat := if p.typ == tREADREQ then 0 else p.len

/-- Cells that hold a packet: its header and carried payload in cells of 256 B. -/
def Pkt.cellCount (p : Pkt) : Nat := (32 + p.carried + 255) / 256

/-- Flits of a packet (R208). -/
def Pkt.flitCount (p : Pkt) : Nat := (32 + p.carried + 231) / 232

/-- A packet as a unit makes it; injection stamps the rest (R210, R213, R265, R278). Its ORD is that of R265. -/
def mkPkt (typ : BitVec 6) (cls dst slice : Nat) (form : Bool) (w1 w2 : W64) (payload : List Byte) : Pkt :=
  { typ := typ, cls := BitVec.ofNat 3 cls, epoch := false,
    ord := typ == tMSG || typ == tMGMT || typ == tROUTEUPD || typ == tCONESYNC || typ == tFAULTNOTE,
    cm := false, vc := 0, dst := BitVec.ofNat 14 dst, src := 0, slice := BitVec.ofNat 12 slice, hops := 0, form := form,
    w1 := w1, w2 := w2, age := 0, pcrc := crc32c payload, payload := payload }

/-! ## Injection points (R242) -/

/-- The key of an injection point: clusters 0-127, application cores 128, port-19 firmware path 129, kilns 130. -/
def injKey : InjPoint → Nat
  | .cluster n => n
  | .apc => 128
  | .fw => 129
  | .kiln => 130

/-- Queues a packet at an injection point. -/
def State.inject (s : State) (point : Nat) (i : Inj) : State :=
  { s with injq := s.injq.modify [] point (· ++ [i]) }

/-- This module's coordinate (R254). -/
def State.coord (s : State) : Nat := s.get routeCoord_COORD

/-- Queues a packet of the port-19 units with its SLICE set (R278); FLOW holds the master ID (R265). -/
def State.sendFw (s : State) (typ : BitVec 6) (cls dst slice mid tag pseq status : Nat) (payload : List Byte) : State :=
  s.inject 129 ⟨mkPkt typ cls dst slice false (mkW1 tag pseq payload.length 0 status) (mkW2 mid 0) payload, true, false, none, none, false⟩

/-- The answer to a request (R215): its class, TAG, PSEQ, SLICE and word 2, with STATUS; a READ_RSP carries data. -/
def answerTo (p : Pkt) (status : Nat) (data : Option (List Byte)) : Pkt :=
  let body := if status == 0 then data.getD [] else []
  { mkPkt (if p.typ == tREADREQ then tREADRSP else tDONE) p.cls.toNat p.src.toNat p.slice.toNat false
      (mkW1 p.coll p.chunk body.length p.fmt status) p.w2 body with cm := p.cm }

end Sys2Proof.Machine
end

