-- ==== Sys2Proof/Machine/Fec.lean ====
section
/-!
DEFINITION. Machine/Fec.lean: the flit's Reed-Solomon code (R189) and CRC (R188, R190).
-/
namespace Sys2Proof.Machine

/-! ## GF(2^8) with x^8 + x^4 + x^3 + x^2 + 1 -/

/-- A byte times α. -/
def gfDouble (a : Nat) : Nat := if a < 128 then 2 * a else (2 * a) ^^^ 0x11D

/-- Product of field elements, by the lowest `n` bits of `b`. -/
def gfMulGo (a b acc : Nat) : Nat → Nat
  | 0 => acc
  | n + 1 => gfMulGo (gfDouble a) (b / 2) (if b % 2 = 1 then acc ^^^ a else acc) n

/-- Product of field elements. -/
def gfMul (a b : Nat) : Nat := gfMulGo a b 0 8

/-- Power of a field element. -/
def gfPow (a : Nat) : Nat → Nat
  | 0 => 1
  | n + 1 => gfMul a (gfPow a n)

/-- Inverse of a non-zero field element. -/
def gfInv (a : Nat) : Nat := gfPow a 254

/-- α^k. -/
def gfExp (k : Nat) : Nat := gfPow 2 (k % 255)

/-- A polynomial, lowest coefficient first, at a point. -/
def gfEval (c : List Nat) (x : Nat) : Nat := c.foldr (fun c acc => c ^^^ gfMul acc x) 0

/-- Sum of polynomials. -/
def gfAdd (a b : List Nat) : List Nat := (List.range (max a.length b.length)).map fun i => a.getD i 0 ^^^ b.getD i 0

/-- Sum of field elements. -/
def gfSum (l : List Nat) : Nat := l.foldl (· ^^^ ·) 0

/-! ## RS(128,120) (R189) -/

/-- The eight syndromes of a codeword, its first symbol the coefficient of x^127. -/
def rsSyndromes (w : List Nat) : List Nat := (List.range 8).map fun j => gfEval w.reverse (gfExp j)

/-- Berlekamp-Massey: the error locator from the syndromes. -/
structure Bm where
  c : List Nat
  b : List Nat
  l : Nat
  m : Nat
  d : Nat
  deriving DecidableEq, Repr

/-- One step of Berlekamp-Massey on syndrome `n`. -/
def bmStep (s : List Nat) (q : Bm) (n : Nat) : Bm :=
  let d := gfSum ((List.range (q.l + 1)).map fun i => gfMul (q.c.getD i 0) (if i ≤ n then s.getD (n - i) 0 else 0))
  if d = 0 then { q with m := q.m + 1 }
  else
    let f := gfMul d (gfInv q.d)
    let c := gfAdd q.c (List.replicate q.m 0 ++ q.b.map (gfMul f))
    if 2 * q.l ≤ n then ⟨c, q.c, n + 1 - q.l, 1, d⟩ else { q with c := c, m := q.m + 1 }

/-- Decodes a codeword: its corrected symbols and the indices corrected; none where it is uncorrectable. -/
def rsDecode (w : List Nat) : Option (List Nat × List Nat) :=
  let s := rsSyndromes w
  if s.all (· == 0) then some (w, [])
  else
    let q := (List.range 8).foldl (bmStep s) ⟨[1], [1], 0, 1, 1⟩
    let pos := (List.range 128).filter fun p => gfEval q.c (gfExp (255 - p)) == 0
    if 4 < q.l || pos.length ≠ q.l then none
    else
      let om := (List.range 8).map fun k => gfSum ((List.range (k + 1)).map fun i => gfMul (q.c.getD i 0) (s.getD (k - i) 0))
      let dv := (List.range q.c.length).map fun i => if i % 2 = 0 then q.c.getD (i + 1) 0 else 0
      let fix := fun (w : List Nat) (p : Nat) =>
        let xi := gfExp (255 - p)
        let e := gfMul (gfExp p) (gfMul (gfEval om xi) (gfInv (gfEval dv xi)))
        w.modify (127 - p) (· ^^^ e)
      let v := pos.foldl fix w
      if (rsSyndromes v).all (· == 0) then some (v, pos.map fun p => 127 - p) else none

/-- The byte indices of codeword `k` of a flit, in ascending order. -/
def codewordBytes (k : Nat) : List Nat := (List.range 256).filter fun i => (i % 16 + i / 16) % 2 = k

/-- Decodes both codewords of a flit: its bytes and the byte indices corrected; none where either is uncorrectable (R190). -/
def fecDecode (f : List Nat) : Option (List Nat × List Nat) :=
  let word := fun (k : Nat) => (codewordBytes k).map fun i => f.getD i 0
  match rsDecode (word 0), rsDecode (word 1) with
  | some (a, p), some (b, q) =>
    let put := fun (f : List Nat) (k : Nat) (v : List Nat) => ((codewordBytes k).zip v).foldl (fun f x => f.set x.1 x.2) f
    some (put (put f 0 a) 1 b, (p.map fun j => (codewordBytes 0).getD j 0) ++ q.map fun j => (codewordBytes 1).getD j 0)
  | _, _ => none

/-! ## A flit's fields (R187) -/

/-- A good flit. -/
structure Flit where
  seq : Nat
  ack : Nat
  ftype : Nat
  cred : Nat
  data : List Byte
  deriving DecidableEq, Repr

/-- The bytes of a received flit. -/
def flitBytes (w : BitVec 2048) : List Nat := (List.range 256).map fun i => w.toNat / 2 ^ (8 * i) % 256

/-- A received flit, decoded and checked (R190): its fields and the bytes corrected; none where it is not good. -/
def readFlit (w : BitVec 2048) : Option (Flit × List Nat) :=
  match fecDecode (flitBytes w) with
  | some (b, fixed) =>
    let bytes := b.map (BitVec.ofNat 8)
    if crc32c (bytes.take 236) = BitVec.ofNat 32 (natLE ((bytes.drop 236).take 4)) then
      let c := BitVec.ofNat 64 (natLE (bytes.take 4))
      some (⟨bitsOf c 20 12, bitsOf c 8 12, bitsOf c 4 4, bitsOf c 0 4, (bytes.drop 4).take 232⟩, fixed)
    else none
  | none => none

end Sys2Proof.Machine
end

