-- ==== Sys2Proof/Machine/Mem.lean ====
section
/-!
DEFINITION. Machine/Mem.lean: the local address map (R32), HBM placement (R359), the (72,64) code over HBM and the cluster
stores (R358, R362-R369), and the log, fault records and host ring that errors are reported to (R299, R402-R410).
-/
namespace Sys2Proof.Machine

/-! ## Responses (R33) -/

/-- OK. -/
def rOK : Nat := 0
/-- DECERR. -/
def rDECERR : Nat := 1
/-- DENIED. -/
def rDENIED : Nat := 2
/-- DATAERR. -/
def rDATAERR : Nat := 3

/-! ## The local address map (R32) -/

/-- What a local address decodes to. -/
inductive Target where
  | hbm (a : Nat)
  | store (n off : Nat)
  | ctx (off : Nat)
  | pool (off : Nat)
  | img (off : Nat)
  | reg (block off : Nat)
  | none
  deriving DecidableEq, Repr

/-- Base of the cluster store windows. -/
def storeBase : Nat := 0x010000000000
/-- Bytes of a cluster store. -/
def storeSize : Nat := 0x600000
/-- Local address of offset `off` of cluster store `n`. -/
def storeAddr (n off : Nat) : Nat := storeBase + n * 0x1000000 + off
/-- Base of register space. -/
def regBase : Nat := 0x0F0000000000

/-- The target that decodes a 48-bit local address (R32). -/
def decodeAddr (a : Nat) : Target :=
  if a < 0x8000000000 then .hbm a
  else if storeBase ≤ a && a < storeBase + 128 * 0x1000000 then
    if (a - storeBase) % 0x1000000 < storeSize then .store ((a - storeBase) / 0x1000000) ((a - storeBase) % 0x1000000) else .none
  else if 0x020000000000 ≤ a && a < 0x020002000000 then .ctx (a - 0x020000000000)
  else if 0x020010000000 ≤ a && a < 0x020014000000 then .pool (a - 0x020010000000)
  else if 0x0E0000000000 ≤ a && a < 0x0E0020000000 then .img (a - 0x0E0000000000)
  else if regBase ≤ a && a < regBase + 0x18000000 then .reg ((a - regBase) / 0x100000) ((a - regBase) % 0x100000)
  else .none

/-! ## HBM placement (R359) -/

/-- The place of an HBM address: (stack, pseudo-channel 2 * channel + pseudo, byte offset). -/
def hbmPlace (key : W64) (a : Nat) : Nat × Nat × Nat :=
  let p := (a / 256 % 512) ^^^ ((mix64 key (BitVec.ofNat 64 (a / 2 ^ 17))).toNat % 512)
  (p / 64, p % 64, a / 2 ^ 17 * 256 + a % 256)

/-- The local address of an offset in a pseudo-channel of a stack: R359 inverted (R368). -/
def hbmUnplace (key : W64) (stack pc off : Nat) : Nat :=
  let hi := off / 256
  let p := (stack * 64 + pc) ^^^ ((mix64 key (BitVec.ofNat 64 hi)).toNat % 512)
  hi * 2 ^ 17 + p * 256 + off % 256

/-- The stack that holds an HBM address. -/
def State.stackOf (s : State) (a : Nat) : Nat := (hbmPlace s.hbmKey a).1

/-- Whether a stack answers: training has completed and it did not fail (R32, R384). -/
def State.stackReady (s : State) (k : Nat) : Bool := 1 ≤ s.get (hbmStatus_STATE k) && s.get (hbmStatus_STATE k) ≤ 3

/-- An access wakes a stack in power-down or self-refresh (R446). -/
def State.wakeStack (s : State) (k : Nat) : State :=
  if 2 ≤ s.get (hbmStatus_STATE k) && s.get (hbmStatus_STATE k) ≤ 3 then s.put (hbmStatus_STATE k) 1 else s

/-- An access wakes a gated cluster (R446). -/
def State.wakeCl (s : State) (n : Nat) : State := if s.get (pwrCl_STATE n) = 0 then s else s.put (pwrCl_STATE n) 0

/-- Counts a 64 B access in its pseudo-channel's window (R361). -/
def State.countPc (s : State) (a : Nat) : State :=
  let p := hbmPlace s.hbmKey a
  { s with hbm := s.hbm.modify HbmSt.reset p.1 fun h => { h with win := h.win.modify 0 p.2.1 (· + 1) } }

/-! ## The (72,64) code (R362) -/

/-- How an error pattern reads: no error, corrected, uncorrectable, miscorrected (counted as corrected), silently wrong. -/
inductive EccClass where
  | clean | corrected | ue | wrongCounted | wrongSilent
  deriving DecidableEq, Repr

/-- Inverted bits of a pattern. -/
def popcount (w : Nat) (p : BitVec w) : Nat := (List.range w).countP p.getLsbD

/-- The class of an error pattern: single errors corrected, double and single-nibble errors detected, the rest as the
module does not state (Config.eccOutcome). -/
def eccClass (p : BitVec 72) : EccClass :=
  if p = 0 then .clean
  else if popcount 72 p = 1 then .corrected
  else if popcount 72 p = 2 || (List.range 18).any (fun k => p &&& ~~~(0xF#72 <<< (4 * k)) = 0) then .ue
  else match Config.eccOutcome p with
    | 0 => .ue
    | 1 => .wrongCounted
    | 2 => .wrongSilent

/-- The eight stored bytes of word `w` of local memory; unwritten memory reads zero (log entry 9). -/
def State.wordAt (s : State) (w : Nat) : List Byte := readBytes 0 s.mem (8 * w) 8

/-- What the code gives a reader of word `w`: its class and bytes. -/
def State.eccRead (s : State) (w : Nat) : EccClass × List Byte :=
  let p := s.memErr.get 0 w
  let d := s.wordAt w
  let c := eccClass p
  (c, match c with
    | .wrongCounted | .wrongSilent => bytesLE 8 (Config.eccWrong p (BitVec.ofNat 64 (natLE d))).toNat
    | _ => d)

/-- Writes bytes that lie inside word `a / 8` and leaves its codeword valid. -/
def State.pokeWord (s : State) (a : Nat) (b : List Byte) : State :=
  { s with mem := writeBytes 0 s.mem a b, memErr := s.memErr.set 0 (a / 8) 0 }

/-- Corrects word `w` in place: the write-back of R365 and R367. -/
def State.fixWord (s : State) (w : Nat) : State :=
  match s.eccRead w with
  | (.corrected, _) => { s with memErr := s.memErr.set 0 w 0 }
  | (.wrongCounted, d) => s.pokeWord (8 * w) d
  | _ => s

/-- The codeword mask that an armed injection applies to a whole-word write of word `w`, and the stack that held it
(R384). -/
def State.injection (s : State) (w : Nat) : Option (Nat × BitVec 72) :=
  if 8 * w < 0x8000000000 then
    let k := s.stackOf (8 * w)
    if s.flag (hbmInject_ARM k) && s.get (hbmInject_ADDR k) == w then
      let bit := fun (b : Nat) => if b < 72 then (1#72 <<< b) else 0
      some (k, bit (s.get (hbmInject_BIT_A k)) ^^^ bit (s.get (hbmInject_BIT_B k)))
    else none
  else none

/-- A write of bytes inside one word (R364): a whole word replaces word and check byte and applies an armed injection;
part of a word is merged into the corrected old word, or refused (false) when that is uncorrectable. -/
def State.storeWord (s : State) (a : Nat) (b : List Byte) : State × Bool :=
  if a % 8 = 0 && b.length = 8 then
    let t := s.pokeWord a b
    match s.injection (a / 8) with
    | some (k, m) => ({ t with memErr := t.memErr.set 0 (a / 8) m }.put (hbmInject_ARM k) 0, true)
    | none => (t, true)
  else match s.eccRead (a / 8) with
    | (.ue, _) => (s, false)
    | (.clean, _) => ({ s with mem := writeBytes 0 s.mem a b }, true)
    | (_, d) => ((s.pokeWord (a / 8 * 8) d).pokeWord a b, true)

/-- Writes bytes from `a`, word by word (R364): the state and the words whose part was refused. `fuel` words at most. -/
def State.storeWords (s : State) (a : Nat) (b : List Byte) : Nat → State × List Nat
  | 0 => (s, [])
  | fuel + 1 =>
    if b.isEmpty then (s, [])
    else
      let n := 8 - a % 8
      let r := s.storeWord a (b.take n)
      let t := r.1.storeWords (a + n) (b.drop n) fuel
      (t.1, if r.2 then t.2 else (a / 8) :: t.2)

/-- A write by hardware that has no response: the log writer and SCH's ring (R402, R408). -/
def State.poke (s : State) (a : Nat) (b : List Byte) : State := (s.storeWords a b (b.length / 8 + 2)).1

/-! ## The log (R408-R410, R504) -/

/-- The SEV of a code (R504). `arg` is the response of ACCESS_ERR, the new state of STATE, the result of TOKEN and IMG_OP
(0 OK), the test code of SELFTEST_FAIL and the SEV of FAULT_REC. -/
def logSev (code arg : Nat) : Nat :=
  if code = 0x0002 then (if arg = rDATAERR then 2 else 1)
  else if code = 0x0004 then 3
  else if code = 0x0006 then arg
  else if code = 0x0008 then (if arg = 8 then 3 else 0)
  else if code = 0x0301 then (if arg = 9 then 1 else 3)
  else if code = 0x0304 || code = 0x0B03 then (if arg = 0 then 0 else 1)
  else if code = 0x0102 || code = 0x0202 || code = 0x0204 || code = 0x0306 || code = 0x0308 || code = 0x0309 then 0
  else if code = 0x0203 || code = 0x0402 || code = 0x0403 || code = 0x0603 || code = 0x0701 || code = 0x0801
      || code = 0x0802 || code = 0x0A02 then 2
  else if code = 0x0206 || code = 0x0302 || code = 0x030A then 3
  else if 0x1000 ≤ code && code < 0x1E00 then (if code % 256 = 3 then 2 else 1)
  else if 0x2000 ≤ code && code < 0x2800 then (if code % 256 = 1 then 2 else if code % 256 = 2 then 0 else 1)
  else 1

/-- A log record (R408). -/
def mkRec (cone : W64) (mid sev : Nat) (cont trace : Bool) (code argx : Nat) (a0 a1 : W64) : LogRec :=
  ⟨cone, BitVec.ofNat 64 (mid % 1024 + sev % 4 * 2 ^ 10 + cont.toNat * 2 ^ 12 + trace.toNat * 2 ^ 13 + code % 2 ^ 16 * 2 ^ 16
    + argx % 2 ^ 32 * 2 ^ 32), a0, a1⟩

/-- The 32 bytes of a record. -/
def LogRec.bytes (r : LogRec) : List Byte :=
  bytesLE 8 r.w0.toNat ++ bytesLE 8 r.w1.toNat ++ bytesLE 8 r.w2.toNat ++ bytesLE 8 r.w3.toNat

/-- Address of the slot that the next record takes. -/
def State.logSlot (s : State) : Nat := s.get logBase_BASE * 2 ^ 24 + s.get logHead_HEAD % 524288 * 32

/-- Whether the ring's slot can be written: its HBM stack answers. -/
def State.logReady (s : State) : Bool := s.stackReady (s.stackOf s.logSlot)

/-- Writes one record into the ring (R408). -/
def State.logWrite (s : State) (r : LogRec) : State :=
  (s.poke s.logSlot r.bytes).put logHead_HEAD (s.get logHead_HEAD + 1)

/-- Writes the records that wait, LOG_DROP first after drops (R409). -/
def State.logFlush (s : State) : State :=
  if s.logReady then
    let s := if s.logDrops = 0 then s
      else { s.logWrite (mkRec s.cone 0x3FE 1 false false 0x0007 0 (BitVec.ofNat 64 s.logDrops) 0) with logDrops := 0 }
    { s.logQ.foldl State.logWrite s with logQ := [] }
  else s

/-- Hands records to the log writer: at most 256 wait; the rest are dropped and counted (R409, R413; log entry 20). -/
def State.logPut (s : State) (l : List LogRec) : State :=
  let s := l.foldl (fun s r =>
    if s.logQ.length < 256 then { s with logQ := s.logQ ++ [r] }
    else ({ s with logDrops := s.logDrops + 1 }.bump logDropped_COUNT).setFlag sysFwLoad_LOGDROP true) s
  s.logFlush

/-- Logs an event: its record and its continuation records (R408). -/
def State.logEv (s : State) (code mid argx : Nat) (a0 a1 : W64) (sevArg : Nat := 0) (conts : List (W64 × W64) := []) : State :=
  let sev := logSev code sevArg
  s.logPut (mkRec s.cone mid sev false false code argx a0 a1 ::
    conts.map fun c => mkRec s.cone mid sev true false code 0 c.1 c.2)

/-- IGNORED_WRITE: a register write that a rule ignores and logs (R34); a fabric access has its SRC and SLICE in ARGX (R38; log entry 42). -/
def State.ignored (s : State) (mid addr : Nat) (v : W64) : State := s.logEv 0x0001 mid s.origin.toNat (BitVec.ofNat 64 addr) v

/-- ACCESS_ERR for a response that no record of its own covers (R33); a fabric access has its SRC and SLICE in ARG1 (R38; log entry 42). -/
def State.accessErr (s : State) (mid addr resp : Nat) : State :=
  s.logEv 0x0002 mid resp (BitVec.ofNat 64 addr) s.origin resp

/-! ## Module states (R389-R392) -/

/-- STATE of the module. -/
def State.mstate (s : State) : Nat := s.get sysState_STATE

/-- OFF. -/
def mOFF : Nat := 0
/-- BOOTING. -/
def mBOOTING : Nat := 1
/-- READY. -/
def mREADY : Nat := 2
/-- BOUND. -/
def mBOUND : Nat := 3
/-- RUNNING. -/
def mRUNNING : Nat := 4
/-- PAUSED. -/
def mPAUSED : Nat := 5
/-- DRAINING. -/
def mDRAINING : Nat := 6
/-- RESTORING. -/
def mRESTORING : Nat := 7
/-- FENCED. -/
def mFENCED : Nat := 8

/-- Closes the debug session, where one is open. -/
def State.closeDebug (s : State) : State :=
  if s.flag secDbg_SESSION then (((s.put secDbg_SESSION 0).put secDbg_LIVE 0).put secDbg_SIGNER 0).logEv 0x0306 0x3FE 0 0 0
  else s

/-- SEC, whose watchdog expired in another state, restarts when the module enters READY or FENCED (R387). -/
def State.secRestart (s : State) (n : Nat) : State :=
  if (n = mREADY || n = mFENCED) && (s.procs.get ProcSt.reset 0).st = .reset then
    { s with procs := s.procs.modify ProcSt.reset 0 fun p => { p with st := .restarting } }
  else s

/-- Moves the module to a state, by command `cmd` or by itself (0), and logs it (R410); entry to BOUND closes a debug session opened
with LIVE = 0 (R439). -/
def State.setMstate (s : State) (n : Nat) (cmd : Nat := 0) : State :=
  if s.mstate = n then s
  else
    let t := ((s.put sysState_STATE n).logEv 0x0008 0x3FE (n + s.mstate * 16 + cmd * 256) 0 0 n).secRestart n
    if n = mBOUND && !t.flag secDbg_LIVE then t.closeDebug else t

/-- Slots of the ring (R402). -/
def State.ringSlots (s : State) : Nat := 2 ^ s.get schHring_SIZE

/-- Whether the ring is full (R403). -/
def State.ringFull (s : State) : Bool :=
  (s.get schHringHead_HEAD + 2 ^ 32 - s.get schHringTail_TAIL) % 2 ^ 32 == s.ringSlots

/-- The causes of a step-boundary hold (R392): bit 0 fault pending, 1 ORPHANED under CONTINUE, 2 a full ring. -/
def State.holds (s : State) : Nat :=
  s.get sysState_FPEND + (if s.flag sysState_ORPH && s.get sysPolicy_ORPHAN = 0 then 2 else 0) + (if s.ringFull then 4 else 0)

/-- Whether every cluster is in one of the states of the list. -/
def State.clustersIn (s : State) (l : List Nat) : Bool := (List.range 128).all fun n => l.contains (s.get (clState_STATE n))

/-- Whether an alarm that starts clusters is armed (R338). -/
def State.startArmed (s : State) : Bool :=
  (List.range 8).any fun k => s.flag (coneAlarmCtrl_EN k) && s.get (coneAlarmCtrl_ACTION k) = 1

/-- The state changes by itself (R391, R392): RUNNING ends when every started cluster is IDLE or HALTED and no collective is in
flight; a pause that has taken effect everywhere, and a hold at its boundary, give PAUSED; DRAINING ends in BOUND. -/
def State.autoState (s : State) : State :=
  let st := s.mstate
  let quiet := s.colls.isEmpty && s.clustersIn [0, 4]
  if st = mDRAINING then (if quiet then s.setMstate mBOUND else s)
  else if (st = mBOUND || st = mRUNNING) && s.holds ≠ 0 && quiet then s.setMstate mPAUSED
  else if st = mRUNNING then
    if s.colls.isEmpty && !s.startArmed && s.power.startWait.isEmpty && s.clWait.isEmpty
        && s.started.all (fun n => s.get (clState_STATE n) = 0 || s.get (clState_STATE n) = 4) then
      s.setMstate mBOUND
    else if s.clustersIn [0, 3, 4] && !s.clustersIn [0, 4] then s.setMstate mPAUSED
    else s
  else s

/-! ## The host completion ring (R402, R403) -/

/-- Whether the slot to be posted can be written. -/
def State.ringReady (s : State) : Bool :=
  s.stackReady (s.stackOf (s.get schHring_BASE * 4096 + s.get schHringHead_HEAD % s.ringSlots * 128)) && !s.ringFull

/-- The bytes of a slot (R402). -/
def ringSlot (rtype mid seq : Nat) (body : List Byte) : List Byte :=
  bytesLE 8 (rtype % 256 + body.length % 256 * 2 ^ 8 + mid % 1024 * 2 ^ 16 + seq % 2 ^ 32 * 2 ^ 32) ++ body ++
    List.replicate (120 - body.length) 0

/-- Writes a slot and pushes its NOTICE to the bridge of PERMIT0 (R402). The TAG is open (log entry 11). -/
def State.ringWrite (s : State) (r : RingRec) : State :=
  let a := s.get schHring_BASE * 4096 + s.get schHringHead_HEAD % s.ringSlots * 128
  let slot := ringSlot r.rtype r.master s.ringSeq r.body
  let s := { (s.poke a slot).put schHringHead_HEAD (s.get schHringHead_HEAD + 1) with ringSeq := (s.ringSeq + 1) % 2 ^ 32 }
  if s.flag (routePermit_VALID 0) then
    let t := s.fresh 12
    let q := t.2.psq.get 0 0x122
    let s := { t.2 with psq := t.2.psq.set 0 0x122 ((q + 1) % 2 ^ 24) }
    s.sendFw tMGMT 0 (s.get (routePermit_BRIDGE 0)) 0xFFE 0x122 t.1.toNat q 0
      ([0x03, 0x01] ++ List.replicate 14 0 ++ slot)
  else s

/-- Posts the waiting slots while the ring is ready; `fuel` of them at most. -/
def State.ringDrain (s : State) : Nat → State
  | 0 => s
  | fuel + 1 =>
    match s.ringWait with
    | [] => s
    | r :: t => if s.ringReady then ({ s with ringWait := t }.ringWrite r).ringDrain fuel else s

/-- Posts a slot: written at once, or it waits, up to 64; beyond that it is dropped and counted (R403). A ring that becomes
full is a hold (R392). -/
def State.post (s : State) (rtype mid : Nat) (body : List Byte) : State :=
  let r : RingRec := ⟨rtype, mid, body⟩
  if s.ringReady && s.ringWait.isEmpty then (s.ringWrite r).autoState
  else if s.ringWait.length < 64 then { s with ringWait := s.ringWait ++ [r] }
  else s.bump schHringHead_LOST

/-- Logs an event and posts it as an EVENT slot: the notices of R402. -/
def State.logNotice (s : State) (code mid argx : Nat) (a0 a1 : W64) (sevArg : Nat := 0) : State :=
  let r := mkRec s.cone mid (logSev code sevArg) false false code argx a0 a1
  (s.logPut [r]).post 4 0x122 r.bytes

/-! ## Fault records (R299, R300) -/

/-- The SEV of a kind of fault record (R300); RESTORE_END is 2 when it did not end OK. -/
def faultSev (kind : Nat) : Nat :=
  match kind with
  | 0x01 => 2
  | 0x05 => 3
  | 0x06 => 3
  | 0x07 => 2
  | 0x08 => 2
  | 0x09 => 1
  | _ => 0

/-- The eight words of a fault record of this module (R299). -/
def State.faultWords (s : State) (kind sev mid subject sslice port : Nat) (sserial w4 w5 w6 : W64) : List W64 :=
  [BitVec.ofNat 64 (kind % 256 + sev % 4 * 2 ^ 8 + mid % 1024 * 2 ^ 16 + s.rseq % 2 ^ 16 * 2 ^ 32), s.cone,
   BitVec.ofNat 64 (s.coord + s.get routeSlice_SLICE * 2 ^ 16 + subject % 2 ^ 14 * 2 ^ 32 + sslice % 2 ^ 12 * 2 ^ 48
     + port % 16 * 2 ^ 60), sserial, w4, w5, w6, 0]

/-- The 64 bytes of a fault record. -/
def wordsBytes (l : List W64) : List Byte := l.flatMap fun w => bytesLE 8 w.toNat

/-- Logs a fault record: FAULT_REC with three continuation records (R410). -/
def State.logFault (s : State) (l : List W64) : State :=
  let w := fun (k : Nat) => l.getD k 0
  s.logEv 0x0006 (bitsOf (w 0) 16 10) (bitsOf (w 0) 0 8) (w 0) (w 1) (bitsOf (w 0) 8 2)
    [(w 2, w 3), (w 4, w 5), (w 6, w 7)]

/-- Originates a fault record: RSEQ is used up, the record is logged and posted (R299). -/
def State.fault (s : State) (kind sev mid subject sslice port : Nat) (sserial w4 w5 w6 : W64) : List W64 × State :=
  let l := s.faultWords kind sev mid subject sslice port sserial w4 w5 w6
  (l, (({ s with rseq := (s.rseq + 1) % 2 ^ 16 }).logFault l).post 3 0x122 (wordsBytes l))

/-- A local fault record: subject and slice are the reporter's own. -/
def State.faultLocal (s : State) (kind mid : Nat) (w4 w5 w6 : W64) : State :=
  (s.fault kind (faultSev kind) mid s.coord (s.get routeSlice_SLICE) 15 0 w4 w5 w6).2

/-- ENGINE_FAULT of an engine's access (R33, R300). -/
def State.engineFault (s : State) (mid addr resp : Nat) (pkt : Option Pkt := none) : State :=
  s.faultLocal 0x07 mid (BitVec.ofNat 64 (addr % 2 ^ 48 + resp % 4 * 2 ^ 48))
    (match pkt with
      | some p => BitVec.ofNat 64 (p.src.toNat + p.slice.toNat * 2 ^ 16 + 2 ^ 31)
      | none => 0) 0

/-- Counts in the recovery counter of word `k` (R318), saturating. -/
def State.recount (s : State) (k : Nat) (n : Nat := 1) : State :=
  { s with recov := s.recov.modify 0 k fun v => min (v + n) (2 ^ 64 - 1) }

/-- Sends a fault record to a coordinate as a FAULT_NOTE (R301). The TAG is open (log entry 11). -/
def State.sendNote (s : State) (dst : Nat) (l : List W64) : State :=
  let t := s.fresh 12
  let q := t.2.psq.get 0 0x122
  ({ t.2 with psq := t.2.psq.set 0 0x122 ((q + 1) % 2 ^ 24) }.recount 4).sendFw tFAULTNOTE 0 dst 0xFFF 0x122 t.1.toNat q 0 (wordsBytes l)

/-! ## Overlays (R390) -/

/-- Sets or clears a cause of the DEGRADED overlay: bit 0 link, 1 HBM. -/
def State.degrCause (s : State) (bit : Nat) (on : Bool) : State :=
  let c := s.get sysState_DEGR_CAUSE
  let c' := if on then c ||| 2 ^ bit else c &&& (7 - 2 ^ bit)
  (s.put sysState_DEGR_CAUSE c').setFlag sysState_DEGR (c' != 0)

/-! ## HBM reads and writes (R358, R364-R368) -/

/-- The severity report as the log carries it (log entry 25). -/
def reportCode : StackReport → Nat
  | .none => 0
  | .corrected => 1
  | .uncorrectable => 2

/-- Records an uncorrectable HBM unit (R368): counted, logged, captured, and the threshold of 16 within 24 h. -/
def State.hbmUe (s : State) (k mid unit : Nat) (rpt : StackReport) (patrol : Bool) : State :=
  let pc := (hbmPlace s.hbmKey unit).2.1
  let s := s.bump (hbmCntUe_COUNT k)
  let s := if s.flag (hbmUeAddr_VALID k) then s
    else ((s.put (hbmUeAddr_VALID k) 1).setFlag (hbmUeAddr_SCRUB k) patrol).put (hbmUeAddr_ADDR k) (unit / 64)
  let s := s.logEv (0x2001 + 0x100 * k) (if patrol then 0x3FD else mid) (reportCode rpt) (BitVec.ofNat 64 unit) (BitVec.ofNat 64 pc)
  let h := s.hbm.get HbmSt.reset k
  let ues := (s.now :: h.ues).filter fun t => s.now < t + 86400000000000
  let s := { s with hbm := s.hbm.set HbmSt.reset k { h with ues := ues } }
  if 16 ≤ ues.length && !s.flag (hbmStatus_DEGR k) then
    ((s.put (hbmStatus_DEGR k) 1).degrCause 1 true).logNotice (0x2004 + 0x100 * k) 0x3FE 0 0 (BitVec.ofNat 64 ues.length)
  else s

/-- Records corrected words of a unit: every one counted, logged at most once per second per stack (R368). -/
def State.hbmCe (s : State) (k mid unit n : Nat) (rpt : StackReport) (patrol : Bool) : State :=
  let s := s.bump (hbmCntCe_COUNT k) n
  let s := if patrol then s.bump (hbmCntScrubFix_COUNT k) else s
  let h := s.hbm.get HbmSt.reset k
  if (match h.ceAt with | none => true | some t => t + 1000000000 ≤ s.now) then
    { s with hbm := s.hbm.set HbmSt.reset k { h with ceAt := some s.now } }.logEv (0x2002 + 0x100 * k)
      (if patrol then 0x3FD else mid) (reportCode rpt) (BitVec.ofNat 64 unit) (BitVec.ofNat 64 (hbmPlace s.hbmKey unit).2.1)
  else s

/-- Reads one 64 B unit of HBM (R358): the state, whether it is OK, and its bytes. -/
def State.hbmRead (s : State) (mid unit : Nat) (rpt : StackReport) (patrol : Bool) : State × Bool × List Byte :=
  let k := s.stackOf unit
  let s := (s.wakeStack k).countPc unit
  let ws := (List.range 8).map fun j => s.eccRead (unit / 8 + j)
  let bytes := ws.flatMap (·.2)
  let nfix := ws.countP fun w => w.1 = .corrected || w.1 = .wrongCounted
  if rpt = .uncorrectable then ((s.bump (hbmCntStackUe_COUNT k)).hbmUe k mid unit rpt patrol, false, [])
  else if ws.any (fun w => w.1 = .ue) then (s.hbmUe k mid unit rpt patrol, false, [])
  else if nfix ≠ 0 then
    (((List.range 8).foldl (fun s j => s.fixWord (unit / 8 + j)) s).hbmCe k mid unit nfix rpt patrol, true, bytes)
  else (if rpt = .corrected then s.bump (hbmCntStackCe_COUNT k) else s, true, bytes)

/-- Reads the units that hold [a, a + n) of HBM; `fuel` units at most. -/
def State.hbmReads (s : State) (mid a n : Nat) : Nat → State × Bool × List Byte
  | 0 => (s, true, [])
  | fuel + 1 =>
    if n = 0 then (s, true, [])
    else
      let u := a / 64 * 64
      let m := min n (64 - a % 64)
      let r := s.hbmRead mid u .none false
      let t := r.1.hbmReads mid (a + m) (n - m) fuel
      (t.1, r.2.1 && t.2.1, ((r.2.2.drop (a % 64)).take m) ++ t.2.2)

/-- Reads [a, a + n) of a cluster store: corrected words are written back (R365). -/
def State.sramRead (s : State) (a n : Nat) : State × Bool × List Byte :=
  let ws := (List.range ((a % 8 + n + 7) / 8)).map (a / 8 + ·)
  let rs := ws.map s.eccRead
  if rs.any (fun w => w.1 = .ue) then (s, false, [])
  else (ws.foldl State.fixWord s, true, ((rs.flatMap (·.2)).drop (a % 8)).take n)

/-- Writes to HBM: the units are counted; words of a refused part are reported (R364, R368). -/
def State.hbmWrite (s : State) (mid a : Nat) (b : List Byte) : State × Bool :=
  let s := (List.range ((a % 64 + b.length + 63) / 64)).foldl
    (fun s j => (s.wakeStack (s.stackOf (a / 64 * 64 + 64 * j))).countPc (a / 64 * 64 + 64 * j)) s
  let part := (if a % 8 = 0 && 8 ≤ b.length then [] else [a / 8]) ++
    (if (a + b.length) % 8 = 0 || (a % 8 + b.length ≤ 8) then [] else [(a + b.length) / 8])
  let s := part.foldl (fun s w => match s.eccRead w with
    | (.corrected, _) | (.wrongCounted, _) => s.hbmCe (s.stackOf (8 * w)) mid (w / 8 * 64) 1 .none false
    | _ => s) s
  let r := s.storeWords a b (b.length / 8 + 2)
  (r.2.foldl (fun s w => s.hbmUe (s.stackOf (8 * w)) mid (w / 8 * 64) .none false) r.1, r.2.isEmpty)

/-! ## Paths between dies (R13-R20, R363)

Errors on these paths come from outside the model's commands: `dieErr` counts the attempts in a row that a die port's next flit
fails, `meshErr` names the masters whose next access loses a flit (log entry 122). -/

/-- The die port of cluster `n` (R17). -/
def clusterDie (n : Nat) : Nat := 2 * (n / 64) + n % 8 / 4

/-- The die port of stack `k` (R16, R17). -/
def stackDie (k : Nat) : Nat := 2 * (k / 4) + (if 2 ≤ k % 4 then 1 else 0)

/-- The die ports on the path of a master's access to HBM or a cluster store, and whether a mesh is on it: clusters and their CCCs
stand on the compute dies, every other master on F. -/
def State.diePath (s : State) (mid a : Nat) : List Nat × Bool :=
  let src := if mid < 0x100 then some (clusterDie (mid % 128)) else none
  let dst := match decodeAddr a with
    | .hbm x => some (stackDie (s.stackOf x))
    | .store n _ => some (clusterDie n)
    | _ => none
  let own := match decodeAddr a with
    | .store n _ => decide (mid < 0x100) && mid % 128 == n
    | _ => false
  match src, dst with
  | some x, some y => if own then ([], false) else if x / 2 = y / 2 then ([], true) else ([x, y], true)
  | some x, none => ([x], true)
  | none, some y => ([y], true)
  | none, none => ([], false)

/-- Carries an access over its path: a die port whose flit fails five times fences the module (R20); a mesh flit that is
uncorrectable is dropped (R363). False where the access is lost. -/
def State.carry (s : State) (mid a : Nat) : State × Bool :=
  if s.dieErr.isEmpty && s.meshErr.isEmpty then (s, true)
  else
    let p := s.diePath mid a
    match p.1.find? fun k => 5 ≤ s.dieErr.get 0 k with
    | some k => ({ s with fenceReq := some (0, k) }, false)
    | none =>
      let s := { s with dieErr := p.1.foldl (fun t k => t.set 0 k 0) s.dieErr }
      if p.2 && s.meshErr.get false mid then ({ s with meshErr := s.meshErr.set false mid false }, false) else (s, true)

/-! ## Unchecked accesses to memory targets -/

/-- Whether every stack that holds [a, a + n) of HBM answers. -/
def State.hbmUp (s : State) (a n : Nat) : Bool :=
  (List.range ((a % 256 + n + 255) / 256)).all fun j => s.stackReady (s.stackOf (a / 256 * 256 + 256 * j))

/-- Reads [a, a + n) of HBM or of a cluster store without an access check. -/
def State.rawRead (s : State) (mid a n : Nat) : State × Nat × List Byte :=
  match decodeAddr a with
  | .hbm _ =>
    if a + n ≤ 0x8000000000 && s.hbmUp a n then
      let r := s.hbmReads mid a n (n / 64 + 2)
      if r.2.1 then (r.1, rOK, r.2.2) else (r.1, rDATAERR, [])
    else (s, rDECERR, [])
  | .store c off =>
    if off + n ≤ storeSize then
      let r := (s.wakeCl c).sramRead a n
      if r.2.1 then (r.1, rOK, r.2.2) else (r.1, rDATAERR, [])
    else (s, rDECERR, [])
  | _ => (s, rDECERR, [])

/-- Writes bytes to HBM or to a cluster store without an access check (R364). -/
def State.rawWrite (s : State) (mid a : Nat) (b : List Byte) : State × Nat :=
  match decodeAddr a with
  | .hbm _ =>
    if a + b.length ≤ 0x8000000000 && s.hbmUp a b.length then
      let r := s.hbmWrite mid a b
      (r.1, if r.2 then rOK else rDATAERR)
    else (s, rDECERR)
  | .store c off =>
    if off + b.length ≤ storeSize then
      let r := (s.wakeCl c).storeWords a b (b.length / 8 + 2)
      (r.1, if r.2.isEmpty then rOK else rDATAERR)
    else (s, rDECERR)
  | _ => (s, rDECERR)

end Sys2Proof.Machine
end

