-- ==== Sys2Proof/Machine/AccTbl.lean ====
section
/-!
DEFINITION. Machine/AccTbl.lean: the access tables and HBM regions (R372-R379), and checked accesses to HBM, cluster stores and
the image store window.
-/
namespace Sys2Proof.Machine

/-- The right RD (R373). -/
def aRD : Nat := 0
/-- The right WR. -/
def aWR : Nat := 1
/-- The right CFG. -/
def aCFG : Nat := 2
/-- The right XQ. -/
def aXQ : Nat := 3

/-- The rights that apply to a target as a mask (R372); 0 where the target has no table. -/
def targetRights (t : Nat) : Nat :=
  if t < 0x180 then (if (blkOf t).isSome then (if t = 4 then 12 else 4) else 0)
  else if 0x200 ≤ t && t ≤ 0x282 then 3
  else if t = 0x283 then 1
  else if 0x2C0 ≤ t && t ≤ 0x2FF then 3
  else 0

/-- Whether a master's entries are fixed (R375). -/
def fixedMaster (mid : Nat) : Bool := (0x120 ≤ mid && mid ≤ 0x122) || mid = 0x3FF || mid = 0x203

/-- The fixed entry of a master (R375). -/
def fixedRights (t mid : Nat) : Nat := if mid = 0x203 then 0 else targetRights t

/-- The default rights of a master that is not fixed (R376). -/
def defaultRights (t mid : Nat) : Nat :=
  let blk := t < 0x180 && (blkOf t).isSome
  let store := 0x200 ≤ t && t < 0x280
  let xq := if t = 4 then 8 else 0
  if mid < 0x80 then (if store || t = 0x280 then 3 else if t = 0x283 then 1 else 0)
  else if mid < 0x100 then
    (if t = 0x200 + (mid - 0x80) || t = 0x280 then 3 else if t = 0x100 + (mid - 0x80) || t = 8 then 4 else xq)
  else if mid < 0x120 then (if t = 0x280 then 3 else if t = 0x283 then 1 else if t = 0x00D then 4 else 0)
  else match mid with
    | 0x130 => if store then 1 else if t = 0x280 then 3 else 0
    | 0x131 => if store || t = 0x280 then 2 else 0
    | 0x132 => if t = 0x280 then 3 else 0
    | 0x200 => if store || t = 0x280 then 3 else 0
    | 0x201 => if blk then 4 + xq else if t = 0x280 then 3 else 0
    | 0x202 => if store || t = 0x280 then 3 else if t = 0x283 then 1 else if blk then 4 + xq else 0
    | _ => 0

/-- Table word `w` of target `t` as a rights function gives it. -/
def accWord (f : Nat → Nat → Nat) (t w : Nat) : W64 :=
  BitVec.ofNat 64 ((List.range 16).foldl (fun a j => a + f t (16 * w + j) * 16 ^ j) 0)

/-- The default tables (R376), keyed target * 64 + word; fixed entries are not stored. -/
def accDefaults : Tab W64 :=
  (List.range (0x284 * 64)).filterMap fun k =>
    let w := accWord (fun t m => if fixedMaster m then 0 else defaultRights t m) (k / 64) (k % 64)
    if w = 0 then none else some (k, w)

/-- Loads the default tables; every region starts disabled and without rights (R376). -/
def State.accLoadDefaults (s : State) : State :=
  (List.range 64).foldl (fun s r => s.put (accRgnBase_EN r) 0) { s with acc := accDefaults, tblErr := [] }

/-- The rights of a master on a target: fixed, or as its table word holds them; none while TORN, or while the word is
uncorrectable (R363, R375, R377). -/
def State.rights (s : State) (t mid : Nat) : Nat :=
  if fixedMaster mid then fixedRights t mid
  else if s.flag accCtrl_TORN || s.tblErr.get false (t * 64 + mid / 16) then 0
  else bitsOf (s.acc.get 0 (t * 64 + mid / 16)) (mid % 16 * 4) 4 &&& targetRights t

/-- Sets the entry of one master (R378); fixed entries are skipped. -/
def State.setRights (s : State) (t mid v : Nat) : State :=
  if fixedMaster mid then s
  else
    let k := t * 64 + mid / 16
    { s with acc := s.acc.set 0 k (setBits (s.acc.get 0 k) (mid % 16 * 4) 4 v), tblErr := s.tblErr.set false k false }

/-- Whether accesses of this master wait: HOLD is set and it is not fixed (R377). -/
def State.accHeld (s : State) (mid : Nat) : Bool := s.flag accCtrl_HOLD && !fixedMaster mid

/-- Counts an uncorrectable table word that an access meets (R363). The log of that word is the DENY record, which names its target and
master: no code of R410 is its own. -/
def State.tableRead (s : State) (t mid : Nat) : State :=
  if !fixedMaster mid && !s.flag accCtrl_TORN && s.tblErr.get false (t * 64 + mid / 16) then s.bump accCntTblUe_COUNT else s

/-- Records a denial (R379); a fabric access has its SRC and SLICE in ARG1 (R38; log entry 42). -/
def State.deny (s : State) (mid addr t right : Nat) : State :=
  let s := (s.tableRead t mid).bump accCntDeny_COUNT
  let s := if s.flag accDeny_VALID then s
    else ((((s.put accDeny_VALID 1).put accDeny_RIGHT right).put accDeny_MID mid).put accDeny_ADDR addr)
  s.logEv 0x0A01 mid (t + right * 2 ^ 10) (BitVec.ofNat 64 addr) s.origin

/-- Whether a right is granted. -/
def State.granted (s : State) (t mid right : Nat) : Bool := s.rights t mid / 2 ^ right % 2 == 1

/-- The target index of an HBM address: the lowest-numbered enabled region that holds it, or 0x280 (R374). -/
def State.hbmTarget (s : State) (a : Nat) : Nat :=
  match (List.range 64).find? fun r => s.flag (accRgnBase_EN r) && s.get (accRgnBase_BASE r) ≤ a / 4096
      && a / 4096 ≤ s.get (accRgnLimit_LIMIT r) with
  | some r => 0x2C0 + r
  | none => 0x280

/-- The target index of a decoded address. -/
def State.targetIndex (s : State) (d : Target) : Nat :=
  match d with
  | .hbm a => s.hbmTarget a
  | .store n _ => 0x200 + n
  | .ctx _ => 0x281
  | .pool _ => 0x282
  | .img _ => 0x283
  | .reg b _ => b
  | .none => 0

/-- Offset and size of a region in the window (R465). -/
def regionOf (r : Nat) : Nat × Nat :=
  match r with
  | 0 => (0, 0x10000)
  | 1 => (0x10000, 0x10000)
  | 2 => (0x20000, 0x10000)
  | 3 => (0x30000, 0x10000)
  | 4 => (0x40000, 0x100000)
  | 5 => (0x140000, 0x10000)
  | 6 => (0x150000, 0x10000)
  | 7 => (0x160000, 0x40000)
  | _ => (0x01000000 + (r - 8) * 0x1000000, 0x1000000)

/-- Whether a read of the image window meets the region being erased or programmed (R471). -/
def State.imgReading (s : State) (off n : Nat) : Bool :=
  match s.img with
  | some o => !o.held && decide ((regionOf o.region).1 < off + n) && decide (off < (regionOf o.region).1 + (regionOf o.region).2)
  | none => false

/-- A read that the tables allow: DATAERR where its path loses it (R363). -/
def State.pathRead (s : State) (mid a n : Nat) : State × Nat × List Byte :=
  let p := s.carry mid a
  if p.2 then p.1.rawRead mid a n else (p.1, rDATAERR, [])

/-- A write that the tables allow: DATAERR, and the target unchanged, where its path loses it (R363). -/
def State.pathWrite (s : State) (mid a : Nat) (b : List Byte) : State × Nat :=
  let p := s.carry mid a
  if p.2 then p.1.rawWrite mid a b else (p.1, rDATAERR)

/-- A checked read of one piece, which crosses no 4 KiB boundary, of HBM, a cluster store or the image store window. -/
def State.pieceRead (s : State) (mid a n : Nat) : State × Nat × List Byte :=
  match decodeAddr a with
  | .hbm _ =>
    if s.hbmUp a n then
      if s.granted (s.hbmTarget a) mid aRD then s.pathRead mid a n
      else (s.deny mid a (s.hbmTarget a) aRD, rDENIED, [])
    else (s, rDECERR, [])
  | .store c _ =>
    if s.granted (0x200 + c) mid aRD then s.pathRead mid a n
    else (s.deny mid a (0x200 + c) aRD, rDENIED, [])
  | .img off =>
    if s.imgReading off n then (s, rDECERR, [])
    else if s.granted 0x283 mid aRD then (s, rOK, readBytes 0xFF s.flash off n)
    else (s.deny mid a 0x283 aRD, rDENIED, [])
  | _ => (s, rDECERR, [])

/-- A checked write of one piece; the image store window refuses every write (R32). -/
def State.pieceWrite (s : State) (mid a : Nat) (b : List Byte) : State × Nat :=
  match decodeAddr a with
  | .hbm _ =>
    if s.hbmUp a b.length then
      if s.granted (s.hbmTarget a) mid aWR then s.pathWrite mid a b
      else (s.deny mid a (s.hbmTarget a) aWR, rDENIED)
    else (s, rDECERR)
  | .store c _ =>
    if s.granted (0x200 + c) mid aWR then s.pathWrite mid a b
    else (s.deny mid a (0x200 + c) aWR, rDENIED)
  | .img _ => (s, rDENIED)
  | _ => (s, rDECERR)

/-- Whether the response of an access to this address was already recorded by DENY or by the HBM UE event (R33). -/
def recorded (a resp : Nat) : Bool :=
  match decodeAddr a with
  | .hbm _ => resp ≠ rDECERR
  | .store _ _ => resp = rDENIED
  | _ => false

/-- Logs ACCESS_ERR unless a record of its own covers the response (R33). A refusal of the image store window by its table
is recorded by DENY. -/
def State.noteResp (s : State) (mid a resp : Nat) (denyLogged : Bool) : State :=
  if resp = rOK || recorded a resp || (resp = rDENIED && denyLogged) then s else s.accessErr mid a resp

/-- A checked read in pieces of at most 4 KiB (R374): the response, the address it concerns, and the bytes. -/
def State.memReadGo (s : State) (mid a n : Nat) : Nat → State × Nat × Nat × List Byte
  | 0 => (s, rOK, a, [])
  | fuel + 1 =>
    if n = 0 then (s, rOK, a, [])
    else
      let m := min n (4096 - a % 4096)
      let r := s.pieceRead mid a m
      if r.2.1 = rOK then
        let t := r.1.memReadGo mid (a + m) (n - m) fuel
        (t.1, t.2.1, t.2.2.1, r.2.2 ++ t.2.2.2)
      else (r.1.noteResp mid a r.2.1 true, r.2.1, a, [])

/-- A checked read of memory. -/
def State.memRead (s : State) (mid a n : Nat) : State × Nat × Nat × List Byte := s.memReadGo mid a n (n / 4096 + 2)

/-- A checked write in pieces of at most 4 KiB (R374): earlier pieces stand where one is refused; a piece that meets an
uncorrectable word is applied in part, and later pieces are written (R364). -/
def State.memWriteGo (s : State) (mid a : Nat) (b : List Byte) : Nat → State × Nat × Nat
  | 0 => (s, rOK, a)
  | fuel + 1 =>
    if b.isEmpty then (s, rOK, a)
    else
      let m := 4096 - a % 4096
      let r := s.pieceWrite mid a (b.take m)
      if r.2 = rOK then r.1.memWriteGo mid (a + m) (b.drop m) fuel
      else if r.2 = rDATAERR then
        let t := (r.1.noteResp mid a r.2 true).memWriteGo mid (a + m) (b.drop m) fuel
        if t.2.1 = rOK then (t.1, rDATAERR, a) else t
      else (r.1.noteResp mid a r.2 (match decodeAddr a with | .img _ => false | _ => true), r.2, a)

/-- A checked write of memory. -/
def State.memWrite (s : State) (mid a : Nat) (b : List Byte) : State × Nat × Nat := s.memWriteGo mid a b (b.length / 4096 + 2)

/-- The atomic OR on an aligned 8-byte word of HBM, which only the kiln complex issues (R369). -/
def State.memOr (s : State) (mid a : Nat) (v : W64) : State × Nat :=
  match decodeAddr a with
  | .hbm _ =>
    if mid ≠ 0x131 || a % 8 ≠ 0 || !s.hbmUp a 8 then (s.accessErr mid a rDECERR, rDECERR)
    else if !s.granted (s.hbmTarget a) mid aWR then (s.deny mid a (s.hbmTarget a) aWR, rDENIED)
    else
      let r := s.rawRead mid a 8
      if r.2.1 = rOK then r.1.rawWrite mid a (bytesLE 8 (natLE r.2.2 ||| v.toNat)) else (r.1, r.2.1)
  | _ => (s.accessErr mid a rDECERR, rDECERR)

end Sys2Proof.Machine
end

