-- ==== Sys2Proof/Machine/Arith.lean ====
section
/-!
DEFINITION. Machine/Arith.lean: the number formats of R39, rounding and overflow (R57-R62), special values (R46-R48) and the
exact operations that the units round (R53-R56, R100).
-/
namespace Sys2Proof.Machine

/-! ## Formats -/

/-- A binary format of R39: width, exponent and significand field widths, bias, infinity, NaN. -/
structure Fmt where
  bits : Nat
  ew : Nat
  mw : Nat
  bias : Nat
  hasInf : Bool
  hasNan : Bool
  deriving DecidableEq, Repr

/-- The floating-point format of a code 0-8 (R39). -/
def fmtOf (f : Nat) : Fmt :=
  match f with
  | 0 => ⟨64, 11, 52, 1023, true, true⟩
  | 1 => ⟨32, 8, 23, 127, true, true⟩
  | 2 => ⟨16, 8, 7, 127, true, true⟩
  | 3 => ⟨16, 5, 10, 15, true, true⟩
  | 4 => ⟨8, 5, 2, 15, true, true⟩
  | 5 => ⟨8, 4, 3, 7, false, true⟩
  | 6 => ⟨6, 3, 2, 3, false, false⟩
  | 7 => ⟨6, 2, 3, 1, false, false⟩
  | _ => ⟨4, 2, 1, 1, false, false⟩

/-- Bits of an element of format code `f` (R39). -/
def fmtBits (f : Nat) : Nat :=
  if f < 9 then (fmtOf f).bits
  else match f with
    | 9 => 8
    | 10 => 32
    | 11 => 16
    | 12 => 8
    | 13 => 4
    | _ => 32

/-- Integer formats: codes 10-13. -/
def isInt (f : Nat) : Bool := 10 ≤ f && f ≤ 13

/-- The largest finite magnitude's code (R39). -/
def maxCode (t : Fmt) : Nat :=
  if t.hasInf then (2 ^ t.ew - 1) * 2 ^ t.mw - 1
  else if t.hasNan then 2 ^ (t.ew + t.mw) - 2
  else 2 ^ (t.ew + t.mw) - 1

/-- The canonical NaN (R46); formats without NaN have none (R47). -/
def nanCode (f : Nat) : Nat :=
  match f with
  | 0 => 0x7FF8000000000000
  | 1 => 0x7FC00000
  | 2 => 0x7FC0
  | 3 => 0x7E00
  | 4 => 0x7F
  | 5 => 0x7F
  | 9 => 0xFF
  | _ => 0

/-- Two's complement of `bits` bits as an integer. -/
def toSigned (bits c : Nat) : Int := if c < 2 ^ (bits - 1) then (c : Int) else (c : Int) - (2 ^ bits : Nat)

/-- An integer modulo 2^bits as a code. -/
def ofSigned (bits : Nat) (v : Int) : Nat := (v % ((2 ^ bits : Nat) : Int)).toNat

/-- An integer as an exact number. -/
def ExNum.ofInt (v : Int) : ExNum := .fin (decide (v < 0)) v.natAbs 0

/-- The value of a code in a floating-point format of R39. -/
def decodeFp (t : Fmt) (c : Nat) : ExNum :=
  let neg := c / 2 ^ (t.bits - 1) % 2 == 1
  let m := c % 2 ^ t.mw
  let e := c / 2 ^ t.mw % 2 ^ t.ew
  let top := 2 ^ t.ew - 1
  if t.hasInf && e == top then
    if m == 0 then .inf neg else .nan (decide (t.mw ≥ 7) && m < 2 ^ (t.mw - 1))
  else if !t.hasInf && t.hasNan && e == top && m == 2 ^ t.mw - 1 then .nan false
  else if e == 0 then .fin neg m (1 - t.bias - t.mw)
  else .fin neg (2 ^ t.mw + m) ((e : Int) - t.bias - t.mw)

/-- The value of a code in format `f` (R39). -/
def decodeNum (f c : Nat) : ExNum :=
  if f < 9 then decodeFp (fmtOf f) c
  else if f == 9 then (if c == 0xFF then .nan false else .fin false 1 ((c : Int) - 127))
  else ExNum.ofInt (toSigned (fmtBits f) c)

/-- The value of a code under block scale `s` (R42). -/
def decodeScaled (f c s : Nat) : ExNum :=
  if s == 0xFF then .nan false
  else match decodeNum f c with
    | .fin n m e => .fin n m (e + (s : Int) - 127 - (if f == 12 then 6 else 0))
    | x => x

/-- Whether a code is subnormal in its format: E = 0 and M not 0 (R39). -/
def isSubnormal (f c : Nat) : Bool :=
  f < 9 && c / 2 ^ (fmtOf f).mw % 2 ^ (fmtOf f).ew == 0 && c % 2 ^ (fmtOf f).mw != 0

/-- Whether a code is a NaN of its format. -/
def isNanCode (f c : Nat) : Bool :=
  match decodeNum f c with
  | .nan _ => true
  | _ => false

/-! ## Exact numbers -/

/-- Positive zero. -/
def ExNum.zero : ExNum := .fin false 0 0

/-- Whether a number is a NaN. -/
def ExNum.isNan : ExNum → Bool
  | .nan _ => true
  | _ => false

/-- Whether a number is a signalling NaN. -/
def ExNum.isSnan : ExNum → Bool
  | .nan s => s
  | _ => false

/-- Whether a number is an infinity. -/
def ExNum.isInf : ExNum → Bool
  | .inf _ => true
  | _ => false

/-- Whether a number is zero of either sign. -/
def ExNum.isZero : ExNum → Bool
  | .fin _ 0 _ => true
  | _ => false

/-- The sign; that of a NaN is positive. -/
def ExNum.neg : ExNum → Bool
  | .nan _ => false
  | .inf n => n
  | .fin n _ _ => n

/-- The negation. -/
def ExNum.negate : ExNum → ExNum
  | .nan s => .nan s
  | .inf n => .inf (!n)
  | .fin n m e => .fin (!n) m e

/-- floor(log2) of a non-zero finite magnitude. -/
def flog2 (m : Nat) (e : Int) : Int := (Nat.log2 m : Int) + e

/-- A finite number as a multiple of 2^g, for g at most its exponent. -/
def ExNum.scaled (x : ExNum) (g : Int) : Int :=
  match x with
  | .fin n m e => let v : Int := ((m <<< (e - g).toNat : Nat) : Int); if n then -v else v
  | _ => 0

/-- The exponent of a finite number; that of another is `d`. -/
def ExNum.expOr (x : ExNum) (d : Int) : Int :=
  match x with
  | .fin _ _ e => e
  | _ => d

/-- v * 2^g, whose sign when v is 0 is `z`. -/
def ExNum.mk' (v g : Int) (z : Bool) : ExNum := if v == 0 then .fin z 0 0 else .fin (decide (v < 0)) v.natAbs g

/-- Exact sum with IEEE 754 special cases (R48, R63). -/
def nAdd (a b : ExNum) : ARes :=
  if a.isSnan || b.isSnan then ARes.invalid 2
  else match a, b with
    | .nan _, _ => .ok (.nan false)
    | _, .nan _ => .ok (.nan false)
    | .inf n, .inf k => if n == k then .ok (.inf n) else ARes.invalid 1
    | .inf n, _ => .ok (.inf n)
    | _, .inf n => .ok (.inf n)
    | .fin n _ e, .fin k _ f =>
      let g := min e f
      .ok (ExNum.mk' (a.scaled g + b.scaled g) g (n && k))

/-- Exact product. -/
def nMul (a b : ExNum) : ARes :=
  if a.isSnan || b.isSnan then ARes.invalid 2
  else match a, b with
    | .nan _, _ => .ok (.nan false)
    | _, .nan _ => .ok (.nan false)
    | .inf n, y => if y.isZero then ARes.invalid 0 else .ok (.inf (n != y.neg))
    | x, .inf n => if x.isZero then ARes.invalid 0 else .ok (.inf (n != x.neg))
    | .fin n m e, .fin k l f => .ok (.fin (n != k) (m * l) (if m * l == 0 then 0 else e + f))

/-- Exact a * b + c. -/
def nFma (a b c : ExNum) : ARes :=
  if a.isSnan || b.isSnan || c.isSnan then ARes.invalid 2
  else
    let p := nMul a b
    if p.fl != 0 then p else nAdd p.val c

/-- A quotient of naturals to 160 bits with a sticky last bit: (mantissa, exponent). -/
def quotSticky (n d : Nat) : Nat × Int :=
  let sh := (160 + Nat.log2 d) - Nat.log2 n
  let q := (n <<< sh) / d
  (2 * q + (if (n <<< sh) % d == 0 then 0 else 1), -(sh : Int) - 1)

/-- The quotient, with a sticky last bit where it is not exact. -/
def nDiv (a b : ExNum) : ARes :=
  if a.isSnan || b.isSnan then ARes.invalid 2
  else match a, b with
    | .nan _, _ => .ok (.nan false)
    | _, .nan _ => .ok (.nan false)
    | .inf _, .inf _ => ARes.invalid 4
    | .inf n, y => .ok (.inf (n != y.neg))
    | x, .inf n => .ok (.fin (n != x.neg) 0 0)
    | .fin n m e, .fin k l f =>
      if l == 0 then (if m == 0 then ARes.invalid 4 else ⟨.inf (n != k), fDZ, none⟩)
      else if m == 0 then .ok (.fin (n != k) 0 0)
      else
        let q := quotSticky m l
        .ok (.fin (n != k) q.1 (q.2 + e - f))

/-- The integer square root, one bit a round: `r` so far, `b` the bit tried. -/
def isqrt (n r : Nat) : Nat → Nat
  | 0 => r
  | b + 1 => let r' := r + 2 ^ b; isqrt n (if r' * r' ≤ n then r' else r) b

/-- The square root, with a sticky last bit where it is not exact. -/
def nSqrt (a : ExNum) : ARes :=
  match a with
  | .nan s => if s then ARes.invalid 2 else .ok (.nan false)
  | .inf n => if n then ARes.invalid 5 else .ok (.inf false)
  | .fin n m e =>
    if m == 0 then .ok (.fin n 0 0)
    else if n then ARes.invalid 5
    else
      let odd := (e % 2).toNat
      let m2 := m <<< (320 + odd)
      let r := isqrt m2 0 (Nat.log2 m2 / 2 + 1)
      .ok (.fin false (2 * r + (if r * r == m2 then 0 else 1)) ((e - odd - 320) / 2 - 1))

/-- Compares two numbers that are not NaN: less, equal, greater as -1, 0, 1; zeros are equal. -/
def nCmp (a b : ExNum) : Int :=
  match a, b with
  | .inf n, .inf k => if n == k then 0 else if n then -1 else 1
  | .inf n, _ => if n then -1 else 1
  | _, .inf n => if n then 1 else -1
  | _, _ =>
    let g := min (a.expOr 0) (b.expOr 0)
    let d := a.scaled g - b.scaled g
    if d < 0 then -1 else if d == 0 then 0 else 1

/-- maximum, minimum, maximumNumber, minimumNumber of R48 and IEEE 754-2019: `mx` chooses the larger, `num` the number
variants. A signalling NaN raises NV; the number variants then answer the other operand where that is a number (log 119). -/
def nMinMax (mx num : Bool) (a b : ExNum) : ARes :=
  let v : ExNum :=
    if a.isNan && b.isNan then .nan false
    else if a.isNan then (if num then b else .nan false)
    else if b.isNan then (if num then a else .nan false)
    else
      let c := nCmp a b
      let aLess := decide (c < 0) || (c == 0 && a.neg && !b.neg)
      if aLess == mx then b else a
  if a.isSnan || b.isSnan then ⟨v, fNV, some 2⟩ else .ok v

/-! ## Rounding -/

/-- mant * 2^e on the grid 2^g: the multiple, and whether it is inexact (R57, R58). -/
def roundGrid (r : Rnd) (m : Nat) (e g : Int) : Nat × Bool :=
  if g ≤ e then (m <<< (e - g).toNat, false)
  else
    let d := (g - e).toNat
    let q := m >>> d
    let rem := m % 2 ^ d
    if rem == 0 then (q, false)
    else
      let up := match r with
        | .rne => decide (2 ^ d < 2 * rem) || (2 * rem == 2 ^ d && q % 2 == 1)
        | .rz => false
        | .sr u =>
          let w := min d 32
          decide (2 ^ w ≤ rem >>> (d - w) + u.toNat >>> (64 - w))
      (if up then q + 1 else q, true)

/-- The result of an overflow (R59): the magnitude's code and the sign kept; the canonical NaN of E4M3 has no sign. -/
def overflowCode (f : Nat) (t : Fmt) (r : Rnd) (sat neg : Bool) : Nat :=
  let s := if neg then 2 ^ (t.bits - 1) else 0
  if r == .rz then s + maxCode t
  else if t.hasInf then s + (maxCode t + 1)
  else if t.hasNan && !sat then nanCode f
  else s + maxCode t

/-- Rounds a finite number into a floating-point format (R57-R61). DEDUCED (log 49): the worked examples after R60 give
0.75 in E2M1 no underflow, so a result is tiny when the code it is delivered as lies below the smallest normal one. -/
def roundFp (f : Nat) (r : Rnd) (sat neg : Bool) (m : Nat) (e : Int) : CRes :=
  let t := fmtOf f
  let s := if neg then 2 ^ (t.bits - 1) else 0
  if m == 0 then .ok s
  else
    let gmin : Int := 1 - t.bias - t.mw
    let g1 := flog2 m e - t.mw
    if g1 < gmin then
      let q := roundGrid r m e gmin
      ⟨s + q.1, if q.2 then (if q.1 < 2 ^ t.mw then fUF ||| fNX else fNX) else 0, none⟩
    else
      let q := roundGrid r m e g1
      let c := ((g1 - gmin).toNat <<< t.mw) + q.1
      if maxCode t < c then ⟨overflowCode f t r sat neg, fOF ||| fNX, none⟩
      else ⟨s + c, if q.2 then fNX else 0, none⟩

/-- An integer into an integer format under SAT (R55). -/
def intoInt (f : Nat) (sat : Bool) (v : Int) : CRes :=
  let b := fmtBits f
  let hi : Int := (2 ^ (b - 1) : Nat) - 1
  let lo : Int := -((2 ^ (b - 1) : Nat) : Int)
  if v < lo || hi < v then ⟨ofSigned b (if sat then (if v < 0 then lo else hi) else v), fOF, none⟩
  else .ok (ofSigned b v)

/-- A floating-point value into an integer format (R47, R59). -/
def roundInt (f : Nat) (r : Rnd) (x : ExNum) : CRes :=
  let b := fmtBits f
  let hi : Int := (2 ^ (b - 1) : Nat) - 1
  let lo : Int := -((2 ^ (b - 1) : Nat) : Int)
  match x with
  | .nan _ => ⟨0, fNV, some 3⟩
  | .inf n => ⟨ofSigned b (if n then lo else hi), fNV, some 3⟩
  | .fin n m e =>
    let q := roundGrid r m e 0
    let v : Int := if n then -(q.1 : Int) else q.1
    if v < lo || hi < v then ⟨ofSigned b (if n then lo else hi), fNV ||| fNX, some 3⟩
    else ⟨ofSigned b v, if q.2 then fNX else 0, none⟩

/-- A value into E8M0 (R62). -/
def roundE8M0 (x : ExNum) : CRes :=
  match x with
  | .fin _ m e =>
    if m == 0 then ⟨0, fUF, none⟩
    else
      let k := flog2 m e + 127
      .ok (if k < 0 then 0 else if 0xFE < k then 0xFE else k.toNat)
  | _ => ⟨0xFF, fNV, some 3⟩

/-- A value into format `f` under a rounding and SAT (R46, R47, R57-R62). -/
def convert (f : Nat) (r : Rnd) (sat : Bool) (x : ExNum) : CRes :=
  if f == 9 then roundE8M0 x
  else if isInt f then roundInt f r x
  else
    let t := fmtOf f
    match x with
    | .nan _ => if t.hasNan then .ok (nanCode f) else ⟨0, fNV, some 3⟩
    | .inf n =>
      let s := if n then 2 ^ (t.bits - 1) else 0
      if t.hasInf then .ok (s + maxCode t + 1)
      else if t.hasNan && !sat then ⟨nanCode f, fOF, none⟩
      else ⟨s + maxCode t, fOF, none⟩
    | .fin n m e => roundFp f r sat n m e

/-- Rounds an operation's result once into format `f`. -/
def ARes.into (a : ARes) (f : Nat) (r : Rnd) (sat : Bool) : CRes := (convert f r sat a.val).after a.fl a.kind

/-- Converts a stored code of format `fa` to `fd`: integer to integer by R55, otherwise by R46, R47, R57-R62; a signalling
NaN raises NV. -/
def convertCode (fa fd : Nat) (r : Rnd) (sat : Bool) (c : Nat) : CRes :=
  if isInt fa && isInt fd then intoInt fd sat (toSigned (fmtBits fa) c)
  else
    let x := decodeNum fa c
    if x.isSnan then (convert fd r sat x).after fNV (some 2) else convert fd r sat x

/-! ## Block-scaled destinations (R44) -/

/-- emax_elem of R44. -/
def emaxElem (f : Nat) : Int :=
  match f with
  | 4 => 15
  | 5 => 8
  | 6 => 4
  | 7 => 2
  | 8 => 2
  | _ => 0

/-- The larger of two floor(log2) of magnitudes, none for zero. -/
def maxLog (l : List ExNum) : Option Int :=
  l.foldl (fun a x => match x with
    | .fin _ m e =>
      if m == 0 then a
      else match a with
        | none => some (flog2 m e)
        | some k => some (max k (flog2 m e))
    | _ => a) none

/-- A block's scale and element results (R44): the values are the block's results before rounding with the rounding of
each; `made` says whether the instruction produced the NaN of each element. -/
def scaleBlock (f : Nat) (sat : Bool) (l : List (ExNum × Rnd × Bool)) : Nat × List CRes :=
  let xs := l.map (·.1)
  if xs.any ExNum.isNan then
    (0xFF, l.map fun x => if x.1.isNan && x.2.2 then ⟨0, fNV, some 3⟩ else .ok 0)
  else if xs.any ExNum.isInf && f != 4 then
    (0xFF, l.map fun x => if x.1.isInf then ⟨0, fOF, none⟩ else .ok 0)
  else
    let s : Nat := match maxLog xs with
      | none => 127
      | some k =>
        let v := k - emaxElem f + 127
        if v < 0 then 0 else if 254 < v then 254 else v.toNat
    (s, l.map fun x => match x.1 with
      | .fin n m e =>
        let e' := e + 127 - (s : Int)
        if f == 12 then roundInt 12 x.2.1 (.fin n m (e' + 6)) else convert f x.2.1 sat (.fin n m e')
      | y => convert f x.2.1 sat y)

/-! ## Transcendental operations (R100) -/

/-- ln 2 * 2^256. -/
def ln2Fix : Nat := 0xb17217f7d1cf79abc9e3b39803f2f6af40f343267298b62d8a0d175b8baafa2b
/-- log2 e * 2^256. -/
def log2eFix : Nat := 0x171547652b82fe1777d0ffda0d23a7d11d6aef551bad2b4b1164a2cd9a3426491

/-- The Taylor sum of exp at y / 2^256, as a multiple of 2^-256: term `t` number `k`. -/
def expSum (y t k acc : Nat) : Nat → Nat
  | 0 => acc
  | n + 1 => let t' := t * y / 2 ^ 256 / (k + 1); expSum y t' (k + 1) (acc + t') n

/-- 2^(f / 2^256) * 2^256, for f below 2^256. -/
def exp2Frac (f : Nat) : Nat := expSum (f * ln2Fix / 2 ^ 256) (2 ^ 256) 0 (2 ^ 256) 64

/-- 2^x for a dyadic x = v * 2^g: the mantissa with a sticky last bit unless x is an integer, and the exponent. Beyond
|x| = 4096 the result stands for any such power: it overflows or rounds to zero in formats 1-3. -/
def exp2Dyadic (v g : Int) : Nat × Int :=
  let n : Int := if 0 ≤ g then v * (2 ^ g.toNat : Nat) else v / (2 ^ (-g).toNat : Nat)
  if 4096 < n then (3, 4096)
  else if n < -4096 then (3, -4098)
  else if 0 ≤ g then (1, n)
  else
    let rem : Nat := (v - n * (2 ^ (-g).toNat : Nat)).toNat
    if rem == 0 then (1, n)
    else
      let f := rem * 2 ^ 256 / 2 ^ (-g).toNat
      (2 * exp2Frac f + 1, n - 257)

/-- `k` bits of the base-2 logarithm of x / 2^128 in [1, 2), by repeated squaring. -/
def log2Bits (x acc : Nat) : Nat → Nat
  | 0 => acc
  | k + 1 =>
    let y := x * x / 2 ^ 128
    if 2 ^ 129 ≤ y then log2Bits (y / 2) (2 * acc + 1) k else log2Bits y (2 * acc) k

/-- log2 of a positive finite number: the value between n / 2^96 and (n + 1) / 2^96 unless it is exact. -/
def log2Num (m : Nat) (e : Int) : ExNum :=
  let k := Nat.log2 m
  if m == 2 ^ k then ExNum.ofInt ((k : Int) + e)
  else
    let x := (m <<< 128) >>> k
    let n : Int := ((k : Int) + e) * (2 ^ 96 : Nat) + (log2Bits x 0 96 : Nat)
    ExNum.mk' (2 * n + 1) (-97) false

/-- tanh of a finite non-zero magnitude, with a sticky last bit. -/
def tanhMag (m : Nat) (e : Int) : Nat × Int :=
  if flog2 m e < -60 then (m * 2 ^ 80 - 1, e - 80)
  else if 6 < flog2 m e then (2 ^ 81 - 1, -81)
  else
    let y : Nat := if 0 ≤ e then m <<< (257 + e.toNat) else (m <<< 257) >>> (-e).toNat
    let t := y * log2eFix / 2 ^ 256
    let ex := exp2Frac (t % 2 ^ 256) <<< (t / 2 ^ 256)
    quotSticky (ex - 2 ^ 256) (ex + 2 ^ 256)

/-- The correctly rounded operands of the unary operations of R100, as exact results: opcode 0x05 SQRT, 0x06 RCP,
0x07 RSQRT, 0x08 EXP2, 0x09 LOG2, 0x0A TANH. -/
def nUnary (op : Nat) (a : ExNum) : ARes :=
  if a.isSnan then ARes.invalid 2
  else match op with
    | 5 => nSqrt a
    | 6 => nDiv (.fin false 1 0) a
    | 7 =>
      match a with
      | .fin n 0 _ => ⟨.inf n, fDZ, none⟩
      | _ =>
        let r := nSqrt a
        if r.fl != 0 then r else nDiv (.fin false 1 0) r.val
    | 8 =>
      match a with
      | .nan s => .ok (.nan s)
      | .inf n => .ok (if n then ExNum.zero else .inf false)
      | .fin n m e =>
        let p := exp2Dyadic (if n then -(m : Int) else m) e
        .ok (.fin false p.1 p.2)
    | 9 =>
      match a with
      | .nan s => .ok (.nan s)
      | .inf n => if n then ARes.invalid Config.logKind.toNat else .ok (.inf false)
      | .fin n m e =>
        if m == 0 then ⟨.inf true, fDZ, none⟩
        else if n then ARes.invalid Config.logKind.toNat
        else .ok (log2Num m e)
    | _ =>
      match a with
      | .nan s => .ok (.nan s)
      | .inf n => .ok (.fin n 1 0)
      | .fin n m e =>
        if m == 0 then .ok (.fin n 0 0)
        else
          let p := tanhMag m e
          .ok (.fin n p.1 p.2)

/-- Moves a finite non-zero code of a floating-point format by `k` units in the last place, within `bound` (R56, R100):
the offset is a free value (log entry 14). A moved result is inexact. -/
def nudge (f bound : Nat) (k : Int) (r : CRes) : CRes :=
  let t := fmtOf f
  let half := 2 ^ (t.bits - 1)
  let mag := r.code % half
  if isInt f || f == 9 || mag == 0 || maxCode t < mag then r
  else
    let d : Int := if k < -(bound : Int) then -(bound : Int) else if (bound : Int) < k then bound else k
    let mag' := ((mag : Int) + d).toNat
    let mag' := if maxCode t + 1 < mag' then maxCode t + 1 else mag'
    ⟨r.code - mag + mag', if d == 0 then r.fl else r.fl ||| fNX, r.kind⟩

/-! ## Integer operations (R55, R56, R101) -/

/-- The integer ADD, SUB, MUL and DIV of R101: op 0-2 and 4. Where a quotient is not exact, whether it is truncated is a
free value of the operands (log entry 14). -/
def intOp (op fd : Nat) (sat : Bool) (a b : Int) : CRes :=
  match op with
  | 0 => intoInt fd sat (a + b)
  | 1 => intoInt fd sat (a - b)
  | 2 => intoInt fd sat (a * b)
  | _ =>
    if b == 0 then (intoInt fd sat (-1)).after fDZ none
    else
      let q := a.natAbs / b.natAbs
      let away := a.natAbs % b.natAbs != 0 && Config.ulpOff 4 fd (BitVec.ofInt 64 a) (BitVec.ofInt 64 b) % 2 == 1
      let q : Nat := if away then q + 1 else q
      intoInt fd sat (if decide (a < 0) != decide (b < 0) then -(q : Int) else q)

/-- The comparisons of R48: conditions 0 EQ to 5 GE; the answer, the flags and the KIND. -/
def nCompare (cond : Nat) (a b : ExNum) : Bool × Nat × Option Nat :=
  if a.isNan || b.isNan then
    let sn := a.isSnan || b.isSnan
    (cond == 1, if sn || 2 ≤ cond then fNV else 0, if sn then some 2 else if 2 ≤ cond then some 6 else none)
  else
    let c := nCmp a b
    (match cond with
      | 0 => c == 0
      | 1 => c != 0
      | 2 => decide (c < 0)
      | 3 => decide (c ≤ 0)
      | 4 => decide (0 < c)
      | _ => decide (0 ≤ c), 0, none)

end Sys2Proof.Machine
end

