-- ==== Sys2Proof/Machine/Cl.lean ====
section
/-!
DEFINITION. Machine/Cl.lean: a cluster's registers, its completion records (R95, R96), the locator (R64), taking an exception
(R92) and resuming from one (R114), pauses (R115), and the frame in which every cluster instruction runs (R75-R80).
-/
namespace Sys2Proof.Machine

/-! ## Registers (R74, R82) -/

/-- A cluster. -/
def State.cl (s : State) (n : Nat) : Cluster := s.clusters.get Cluster.reset n

/-- Updates a cluster. -/
def State.modCl (s : State) (n : Nat) (f : Cluster → Cluster) : State :=
  { s with clusters := s.clusters.modify Cluster.reset n f }

/-- Scalar register `r`; S0 reads as zero (R74). -/
def State.sReg (s : State) (n r : Nat) : W64 := if r = 0 then 0 else s.rd (clS n r)

/-- Writes scalar register `r`; writes to S0 are discarded (R74). -/
def State.setS (s : State) (n r : Nat) (v : W64) : State := if r = 0 then s else s.wr (clS n r) v

/-- Vector register `r`. -/
def State.vReg (s : State) (n r : Nat) : BitVec 8192 := (s.cl n).v.get 0 r

/-- Writes vector register `r`. -/
def State.setV (s : State) (n r : Nat) (v : BitVec 8192) : State := s.modCl n fun c => { c with v := c.v.set 0 r v }

/-- Predicate register `r`; P0 reads as all ones (R74). -/
def State.pReg (s : State) (n r : Nat) : BitVec 512 := if r = 0 then BitVec.allOnes 512 else (s.cl n).p.get 0 r

/-- Writes predicate register `r`. -/
def State.setP (s : State) (n r : Nat) (v : BitVec 512) : State := s.modCl n fun c => { c with p := c.p.set 0 r v }

/-- Descriptor register `r`. -/
def State.tReg (s : State) (n r : Nat) : BitVec 128 := (s.cl n).t.get 0 r

/-- Writes descriptor register `r`. -/
def State.setT (s : State) (n r : Nat) (v : BitVec 128) : State := s.modCl n fun c => { c with t := c.t.set 0 r v }

/-- Accumulator set `r`. -/
def State.aSet (s : State) (n r : Nat) : AccSet := (s.cl n).a.get AccSet.reset r

/-- Writes accumulator set `r`. -/
def State.setA (s : State) (n r : Nat) (v : AccSet) : State := s.modCl n fun c => { c with a := c.a.set AccSet.reset r v }

/-- A vector register from its bytes. -/
def vOfBytes (b : List Byte) : BitVec 8192 := BitVec.ofNat 8192 (natLE b)

/-- The bytes of a vector register. -/
def vBytes (v : BitVec 8192) : List Byte := bytesLE 1024 v.toNat

/-- The `n` element codes of `w` bits of a register (R40, R82). -/
def vCodes (v : BitVec 8192) (w n : Nat) : List Nat := (List.range n).map fun i => v.toNat / 2 ^ (i * w) % 2 ^ w

/-- A register from element codes of `w` bits; the remaining bits are zero (R82). -/
def vPack (w : Nat) (codes : List Nat) : BitVec 8192 :=
  BitVec.ofNat 8192 (codes.reverse.foldl (fun a c => a * 2 ^ w + c % 2 ^ w) 0)

/-! ## Mode (R52, R57, R76) -/

/-- Whether strict mode applies to an instruction (R52). -/
def State.strictFor (s : State) (n : Nat) (i : Issue) : Bool := i.strict || s.flag (clMode_STRICT n)

/-- The RND code in force for an instruction (R57). -/
def State.rndMode (s : State) (n : Nat) (i : Issue) : Nat := if i.rnd = 3 then s.get (clMode_RND n) else i.rnd.toNat

/-- PC of a cluster: the next instruction to issue. -/
def State.pc (s : State) (n : Nat) : Nat := s.get (clState_PC n)

/-- The rounding of an instruction at element `e` (R57, R58). -/
def State.rndFor (s : State) (n : Nat) (i : Issue) (e : Nat) : Rnd :=
  rndAt (s.rndMode n i) (s.rd (clSeed n)) n (s.pc n) e

/-! ## Completion records (R95, R96) -/

/-- Handle field of a record that returns none. -/
def noHandle : Nat := 0x1FFF

/-- Writes a completion record: the exception field is ORed into CL.XSTATUS, and the record is kept in the ring as CREC
says. CYCLES is a free value (log entry 12); a full ring loses its oldest record. -/
def State.record (s : State) (n exc status cls op seq pc handle : Nat) : State :=
  let s := s.put (clXstatus_EXC n) (s.get (clXstatus_EXC n) ||| exc)
  if s.get (clCtrl_CREC n) = 1 || exc ≠ 0 || status ≠ 0 || handle ≠ noHandle then
    let t := s.fresh 32
    let w0 := exc % 256 * 2 ^ 56 + status % 16 * 2 ^ 52 + cls % 16 * 2 ^ 48 + op % 256 * 2 ^ 40 + seq % 2 ^ 16 * 2 ^ 24 + pc % 2 ^ 23
    let w1 := handle % 2 ^ 13 * 2 ^ 51 + t.1.toNat
    let size := 2 ^ (s.get (clCring_SIZE n) + 8)
    let off := s.get (clCring_BASE n) * 4096 + s.get (clCring_HEAD n) % size * 16
    let s := if off + 16 ≤ storeSize then t.2.poke (storeAddr n off) (bytesLE 8 w0 ++ bytesLE 8 w1) else t.2
    let s := if (s.cl n).recs < size then s.modCl n fun c => { c with recs := c.recs + 1 } else s.bump (clCring_LOST n)
    s.put (clCring_HEAD n) ((s.get (clCring_HEAD n) + 1) % size)
  else s

/-- Captures the first invalid event of a strict instruction at `pc` (R64): UNIT, then (TILE, ELEM, KIDX, KIND). -/
def State.locateAt (s : State) (n : Nat) (strict : Bool) (pc unit : Nat) (ev : Option (Nat × Nat × Nat × Nat)) : State :=
  match ev with
  | some (tile, elem, kidx, kind) =>
    if strict && !s.flag (clLoc0_VALID n) then
      (s.wr (clLoc0 n) (BitVec.ofNat 64 (2 ^ 63 + unit % 8 * 2 ^ 60 + kind % 16 * 2 ^ 56 + pc % 2 ^ 23))).wr (clLoc1 n)
        (BitVec.ofNat 64 (tile % 2 ^ 32 * 2 ^ 32 + kidx % 2 ^ 16 * 2 ^ 16 + elem % 1024))
    else s
  | none => s

/-- Captures the first invalid event of the instruction at PC. -/
def State.locate (s : State) (n : Nat) (i : Issue) (unit : Nat) (ev : Option (Nat × Nat × Nat × Nat)) : State :=
  s.locateAt n (s.strictFor n i) (s.pc n) unit ev

/-! ## States and exceptions (R91, R92) -/

/-- IDLE of CL.STATE. -/
def clIDLE : Nat := 0
/-- RUNNING. -/
def clRUNNING : Nat := 1
/-- EXCEPTION. -/
def clEXCEPTION : Nat := 2
/-- PAUSED. -/
def clPAUSED : Nat := 3
/-- HALTED. -/
def clHALTED : Nat := 4

/-- STATE of a cluster. -/
def State.clSt (s : State) (n : Nat) : Nat := s.get (clState_STATE n)

/-- ILLEGAL (R91). -/
def xILLEGAL : Nat := 1
/-- FETCH. -/
def xFETCH : Nat := 2
/-- ACCESS. -/
def xACCESS : Nat := 3
/-- ALIGN. -/
def xALIGN : Nat := 4
/-- MXCHK. -/
def xMXCHK : Nat := 5
/-- RESCHK. -/
def xRESCHK : Nat := 6
/-- BREAK. -/
def xBREAK : Nat := 7
/-- SERVICE. -/
def xSERVICE : Nat := 8
/-- STEP_SKEW. -/
def xSTEPSKEW : Nat := 9
/-- HANDLE. -/
def xHANDLE : Nat := 10
/-- ASYNC. -/
def xASYNC : Nat := 11
/-- COLL. -/
def xCOLL : Nat := 12

/-- What an exception carries: cause, response, address, and the handle and PC of EXC_ORIG. -/
structure Exc where
  cause : Nat
  resp : Nat
  addr : Nat
  handle : Nat
  origPc : Nat
  deriving DecidableEq, Repr

/-- An exception that concerns no address and no other operation. -/
def Exc.plain (cause : Nat) (addr : Nat := 0) (resp : Nat := 0) : Exc := ⟨cause, resp, addr, noHandle, 0⟩

/-- CL.EXC.UNIT of a class (R113). -/
def unitOf (cls : Nat) : Nat :=
  match cls with
  | 2 => 2
  | 3 => 1
  | 4 => 3
  | 5 => 4
  | 6 => 3
  | 7 => 4
  | _ => 0

/-- The exception field of a faulting instruction (R63): MXCHK and RESCHK only. -/
def excField (cause : Nat) : Nat := if cause = xMXCHK then fMXCHK else if cause = xRESCHK then fRESCHK else 0

/-- Takes an exception at `pc` (R92): CL.EXC, CL.EXC_ADDR, CL.EXC_ORIG and CL.DONE are written, the completion record has
STATUS EXCEPTION, and the cluster enters EXCEPTION; no younger instruction has issued (log entry 2). -/
def State.takeExc (s : State) (n : Nat) (x : Exc) (cls op pc len : Nat) : State :=
  let s := s.wr (clExc n) (BitVec.ofNat 64 (x.cause * 2 ^ 56 + x.resp % 4 * 2 ^ 54 + unitOf cls * 2 ^ 51 + pc % 2 ^ 23))
  let s := (s.wr (clExcAddr n) (BitVec.ofNat 64 (x.addr % 2 ^ 48))).wr (clExcOrig n)
    (BitVec.ofNat 64 (x.handle % 2 ^ 13 * 2 ^ 51 + x.origPc % 2 ^ 23))
  let s := s.wr (clDone n) 0
  let s := s.record n (excField x.cause) 2 cls op (s.cl n).seq pc noHandle
  let s := ((s.put (clState_STATE n) clEXCEPTION).put (clState_WINDOW n) 1).put (clState_PC n) pc
  s.modCl n fun c => { c with wait := none, excLen := len, faulted := true }

/-- Abandons the wait of an issued instruction: it is not done and issues again at its PC (R115). -/
def State.abandonWait (s : State) (n : Nat) : State :=
  match (s.cl n).wait with
  | some w => ((s.modCl n fun c => { c with wait := none }).put (clState_PC n) w.pc).put (clState_WINDOW n) 1
  | none => s.put (clState_WINDOW n) 0

/-- The stall timers of a cluster freeze at a pause (R150). -/
def State.freezeStall (s : State) (n : Nat) : State :=
  { s with colls := s.colls.map fun c =>
      if c.cl = n then (match c.stall with
        | .runs t => { c with stall := .frozen (t - s.now) }
        | _ => c)
      else c }

/-- The stall timers of a cluster run on from RESUME (R150). -/
def State.thawStall (s : State) (n : Nat) : State :=
  { s with colls := s.colls.map fun c =>
      if c.cl = n then (match c.stall with
        | .frozen l => { c with stall := .runs (s.now + l) }
        | _ => c)
      else c }

/-- A pause takes effect (R115): the wait is abandoned, CL.DONE records the window, and the cluster enters PAUSED. -/
def State.pauseCl (s : State) (n : Nat) : State :=
  ((((s.abandonWait n).wr (clDone n) 0).put (clState_STATE n) clPAUSED).freezeStall n).autoState

/-- Whether the pause of CL.PAUSE_AT is due (R115). -/
def State.pauseDue (s : State) (n : Nat) : Bool := s.flag (clCtrl_PAT_EN n) && (s.rd (clPauseAt n)).toNat ≤ s.now

/-- The pause of CL.PAUSE_AT falls due (R115): PAT_EN is cleared; a RUNNING cluster pauses, one in EXCEPTION keeps it
pending. -/
def State.duePause (s : State) (n : Nat) : State :=
  let s := s.put (clCtrl_PAT_EN n) 0
  if s.clSt n = clRUNNING then s.pauseCl n
  else if s.clSt n = clEXCEPTION then s.put (clState_PAUSE_PEND n) 1
  else s

/-- PAUSE (R114, R115) of a RUNNING cluster. -/
def State.cmdPause (s : State) (n : Nat) : State := s.pauseCl n

/-- Leaves EXCEPTION or PAUSED: RUNNING, or PAUSED where a pause is pending (R114). -/
def State.leaveExc (s : State) (n : Nat) : State :=
  if s.flag (clState_PAUSE_PEND n) then (((s.put (clState_PAUSE_PEND n) 0).put (clState_STATE n) clPAUSED).freezeStall n).autoState
  else (s.put (clState_STATE n) clRUNNING).put (clState_WINDOW n) 0

/-- The STALL period of a plan in ns (R119). -/
def Plan.stallNs (p : Plan) : Nat := (if p.stall = 0 then 500 else p.stall) * 100000

/-- What RESUME and SKIP do to the collective that a COLL exception reported (R145): RESUME restarts its stall timer, SKIP
leaves it stopped. -/
def State.collResume (s : State) (n : Nat) (skip : Bool) : State :=
  if bitsOf (s.rd (clExc n)) 56 8 = xCOLL then
    let h := s.get (clExcOrig_HANDLE n)
    { s with colls := s.colls.map fun c =>
        if c.cl = n && c.plan * 64 + c.q % 64 = h then
          match s.plans.find (n * 64 + c.plan) with
          | some p => { c with fired := none, stall := if skip then .stopped else .runs (s.now + p.plan.stallNs) }
          | none => c
        else c }
  else s

/-- RESUME (R92, R114): the faulting instruction issues again. -/
def State.cmdResume (s : State) (n : Nat) : State :=
  if s.clSt n = clEXCEPTION then (s.collResume n false).leaveExc n
  else ((s.put (clState_STATE n) clRUNNING).put (clState_WINDOW n) 0).thawStall n

/-- SKIP (R114): as RESUME, but the faulting instruction counts as done. -/
def State.cmdSkip (s : State) (n : Nat) : State :=
  ((s.collResume n true).put (clState_PC n) (s.pc n + (s.cl n).excLen)).leaveExc n

/-- START (R114): PC := ENTRY, RUNNING. -/
def State.cmdStart (s : State) (n : Nat) : State :=
  let s := ((s.put (clState_PC n) (s.get (clCtrl_ENTRY n))).put (clState_STATE n) clRUNNING).put (clState_WINDOW n) 0
  (s.modCl n fun c => { c with wait := none, retry := none, faulted := false }).put (clState_PAUSE_PEND n) 0

/-! ## The frame of an instruction -/

/-- Whether a class takes an extension word: never, may, must (R78). -/
inductive ExtKind where
  | no | opt | req
  deriving DecidableEq, Repr

/-- What an instruction does once it may execute: it completes (with flags, a status, a handle and a branch target), it
raises an exception, it waits on an event outside the cluster, or it does not issue. -/
inductive Exe where
  | done (s : State) (exc status handle : Nat) (jump : Option Nat)
  | raise (s : State) (x : Exc)
  | wait (s : State) (k : WaitKind)
  | stall (s : State)

/-- Completes with STATUS OK and no flag, handle or jump. -/
def Exe.ok (s : State) : Exe := .done s 0 0 noHandle none

/-- Completes with flags. -/
def Exe.flags (s : State) (exc : Nat) : Exe := .done s exc 0 noHandle none

/-- Completes with a handle. -/
def Exe.handle (s : State) (exc h : Nat) : Exe := .done s exc 0 h none

/-- ILLEGAL. -/
def Exe.illegal (s : State) : Exe := .raise s (Exc.plain xILLEGAL)

/-- Bytes of an instruction: 8, or 16 with an extension word (R77). -/
def instrLen (i : Issue) : Nat := if i.x then 16 else 8

/-- An instruction completes: its record, the next issue sequence number and PC. -/
def State.retire (s : State) (n cls op seq pc len exc status handle : Nat) (jump : Option Nat) : State :=
  let s := s.record n exc status cls op seq pc handle
  let s := s.modCl n fun c => { c with seq := (seq + 1) % 65536, wait := none }
  (s.put (clState_PC n) (jump.getD (pc + len))).put (clState_WINDOW n) 0

/-- What becomes of an instruction after it has executed. -/
def finish (n cls op : Nat) (i : Issue) : Exe → Host.Outcome State Fault Refusal
  | .done t exc status handle jump => .next (t.retire n cls op (t.cl n).seq (t.pc n) (instrLen i) exc status handle jump)
  | .raise t x => .next (t.takeExc n x cls op (t.pc n) (instrLen i))
  | .wait t k => .next ((t.modCl n fun c => { c with wait := some ⟨k, i, cls, op, t.pc n, (instrLen i), (t.cl n).seq⟩ }).put
      (clState_WINDOW n) 1)
  | .stall t => .next t

/-- Whether an instruction can be considered at all: the cluster is RUNNING, waits for nothing and is not held by its own
firmware-visible state (R87). -/
def State.canIssue (s : State) (n : Nat) : Bool := s.clSt n = clRUNNING && (s.cl n).wait.isNone

/-- Runs one instruction of class `cls` and opcode `op` (R75-R80): a due pause comes first (R115); then the fetch (R78), the
extension word and the reserved encodings (`legal`), the predicate bit of instructions predicated as a whole (`whole`),
and the instruction itself. A cluster that is not RUNNING, or whose instruction waits, issues nothing. -/
def runInstr (n cls op : Nat) (i : Issue) (ek : ExtKind) (legal whole : Bool) (body : State → Exe) (s : State) :
    Host.Outcome State Fault Refusal :=
  if !s.canIssue n then .next s
  else if s.pauseDue n then .next (s.duePause n)
  else if storeSize ≤ s.pc n then .next (s.takeExc n (Exc.plain xFETCH (s.pc n)) cls op (s.pc n) (instrLen i))
  else if i.x && storeSize ≤ s.pc n + 8 then .next (s.takeExc n (Exc.plain xFETCH (s.pc n + 8)) cls op (s.pc n) (instrLen i))
  else if !legal || (i.x && ek = .no) || (!i.x && ek = .req) then finish n cls op i (.illegal s)
  else if whole && !(s.pReg n i.pred.toNat).getLsbD 0 then finish n cls op i (.ok s)
  else finish n cls op i (body s)

/-- The branch target of an instruction (R97): PC + sext(IMM8) * 8, or IMM64[22:0]; modulo 2^64 as the sequencer adds. -/
def State.target (s : State) (n : Nat) (i : Issue) : Nat :=
  if i.x then bitsOf i.ext 0 23 else (BitVec.ofNat 64 (s.pc n) + i.imm8.signExtend 64 * 8).toNat

/-- A taken branch (R78): FETCH at the branch where the target is misaligned or at or above the store's end. -/
def jumpTo (s : State) (t : Nat) : Exe :=
  if t % 8 ≠ 0 || storeSize ≤ t then .raise s (Exc.plain xFETCH t) else .done s 0 0 noHandle (some t)

/-- The address Ss1 + sext(IMM8) * scale, modulo 2^64. -/
def State.offAddr (s : State) (n : Nat) (i : Issue) (scale : Nat) : Nat :=
  (s.sReg n i.src1.toNat + i.imm8.signExtend 64 * BitVec.ofNat 64 scale).toNat

/-! ## STOP (R114) -/

/-- STOP of the cluster's own part (R114): an instruction that waits is discarded with STATUS CANCELLED (its record), and the
cluster enters HALTED. Its collectives are cancelled by the caller (R146). -/
def State.stopCl (s : State) (n : Nat) : State :=
  let s := match (s.cl n).wait with
    | some w => s.record n 0 4 w.cls w.op w.seq w.pc noHandle
    | none => s
  let s := (s.modCl n fun c => { c with wait := none, retry := none }).put (clState_STATE n) clHALTED
  (s.put (clState_PAUSE_PEND n) 0).put (clState_WINDOW n) 0

end Sys2Proof.Machine
end

