-- ==== Sys2Proof/Machine/ControlCx.lean ====
section
/-!
DEFINITION. Machine/ControlCx.lean: the control class CX (R97, R98) and the waits that end on events outside the cluster.
-/
namespace Sys2Proof.Machine

/-- An S register index. -/
def sIdx (r : BitVec 6) : Bool := r.toNat < 32

/-- CL.MODE as it reads: DETERMINISTIC copies the module's setting (R76). -/
def State.clModeVal (s : State) (n : Nat) : W64 := setBits (s.rd (clMode n)) 7 1 (s.get digDet_DETERMINISTIC)

/-! ## Move slots (R90, R93) -/

/-- A move slot of a cluster. -/
def State.slot (s : State) (n k : Nat) : MoveSlot := (s.cl n).slots.get MoveSlot.reset k

/-- Writes a move slot. -/
def State.setSlot (s : State) (n k : Nat) (m : MoveSlot) : State :=
  s.modCl n fun c => { c with slots := c.slots.set MoveSlot.reset k m }

/-- Frees a move slot: the next operation in it has the next generation (R90; log entry 8). -/
def State.freeSlot (s : State) (n k : Nat) : State := s.setSlot n k ⟨((s.slot n k).gen + 1) % 8, none⟩

/-- The move handle of a slot (R90). -/
def State.slotHandle (s : State) (n k : Nat) : Nat := 0x1000 + (s.slot n k).gen * 64 + k

/-- Whether an asynchronous operation of the cluster is still running. -/
def State.asyncRunning (s : State) (n : Nat) : Bool :=
  (s.cl n).slots.any fun m => match m.2.op with
    | some o => o.st == .running
    | none => false

/-- The failed operation that issued first, with its slot and its response and address (R93). -/
def State.asyncFailed (s : State) (n : Nat) : Option (Nat × AsyncOp × Nat × Nat) :=
  let now := (s.cl n).seq
  ((s.cl n).slots.filterMap fun m => match m.2.op with
    | some o => (match o.st with
      | .failed r a => some (m.1, o, r, a)
      | .running => none)
    | none => none).foldl (fun b x => match b with
      | none => some x
      | some y => if (now + 65536 - y.2.1.seq) % 65536 < (now + 65536 - x.2.1.seq) % 65536 then some x else b) none

/-- Reports a failed operation: its slot is freed and the exception is ASYNC (R93). -/
def State.reportAsync (s : State) (n k : Nat) (o : AsyncOp) (resp addr : Nat) : Exe :=
  .raise (s.freeSlot n k) ⟨xASYNC, resp, addr, s.slotHandle n k, o.pc⟩

/-- CX.FENCE once every older instruction has completed (R97): it waits for the asynchronous operations, then reports a
failure (R93). -/
def fenceExe (n : Nat) (s : State) : Exe :=
  if s.asyncRunning n then .wait s .fence
  else match s.asyncFailed n with
    | some (k, o, r, a) => s.reportAsync n k o r a
    | none => .ok s

/-- TX.WAIT on handle `h` (R90, R93). -/
def moveExe (n h : Nat) (s : State) : Exe :=
  if h < 0x1000 || 0x1200 ≤ h then .raise s (Exc.plain xHANDLE)
  else
    let k := h % 64
    if (s.slot n k).gen ≠ h / 64 % 8 then .ok s
    else match (s.slot n k).op with
      | some o => (match o.st with
        | .running => .wait s (.move h)
        | .failed r a => s.reportAsync n k o r a)
      | none => .ok s

/-! ## Collectives that have failed or stalled (R144, R145) -/

/-- The collective ID (R134). -/
def Coll.id (c : Coll) : Nat := c.plan * 64 + c.q % 64

/-- The COLL exception of a collective that has failed or whose stall timer has fired (R144, R145). -/
def Coll.excOf (c : Coll) : Option Exc :=
  match c.fail, c.fired with
  | some ph, _ => some ⟨xCOLL, 0, 2 * 2 ^ 37 + ph * 2 ^ 32, c.id, c.pc⟩
  | none, some r => some ⟨xCOLL, 0, r, c.id, c.pc⟩
  | none, none => none

/-- The oldest collective of a cluster that has failed or fired. -/
def State.badColl (s : State) (n : Nat) : Option Exc := s.colls.findSome? fun c => if c.cl = n then c.excOf else none

/-- CX.HALT (R97, R141, R145): it raises COLL for a collective that has failed or whose timer has fired, and waits until no
collective of the cluster is in flight. -/
def haltExe (n : Nat) (s : State) : Exe :=
  match s.badColl n with
  | some x => .raise s x
  | none => if s.colls.any (·.cl == n) then .wait s .halt else .ok s

/-- Resumes the instruction that waits: `e` is what it does now. HALT leaves the cluster HALTED. -/
def State.rewait (s : State) (n : Nat) (w : Wait) (e : Exe) : State :=
  match e with
  | .done t exc status handle jump =>
    let t := t.retire n w.cls w.op w.seq w.pc w.len exc status handle jump
    if w.kind = .halt then (t.put (clState_STATE n) clHALTED).autoState else t
  | .raise t x => t.takeExc n x w.cls w.op w.pc w.len
  | .wait _ _ => s
  | .stall _ => s

/-- Re-evaluates a wait on move slots or on the end of the collectives: after an asynchronous operation has finished or a
collective has completed. -/
def State.wakeMove (s : State) (n : Nat) : State :=
  match (s.cl n).wait with
  | some w => (match w.kind with
    | .fence => s.rewait n w (fenceExe n s)
    | .move h => s.rewait n w (moveExe n h s)
    | .halt => s.rewait n w (haltExe n s)
    | _ => s)
  | none => s

/-! ## The instructions -/

/-- CX.NOP (R97). -/
def execCxNop (cl : Fin 128) (i : Issue) (s : State) : Host.Outcome State Fault Refusal :=
  runInstr cl 0 0x00 i .no true true .ok s

/-- CX.JMP (R97). -/
def execCxJmp (cl : Fin 128) (i : Issue) (s : State) : Host.Outcome State Fault Refusal :=
  runInstr cl 0 0x01 i .opt true true (fun s => jumpTo s (s.target cl i)) s

/-- The frame of BZ, BNZ and BLT (R97): a branch that is not taken raises nothing (R78). -/
def cxBranch (op : Nat) (legal : Bool) (cond : State → Bool) (cl : Fin 128) (i : Issue) (s : State) :
    Host.Outcome State Fault Refusal :=
  runInstr cl 0 op i .opt legal true (fun s => if cond s then jumpTo s (s.target cl i) else .ok s) s

/-- CX.BZ (R97). -/
def execCxBz (cl : Fin 128) (i : Issue) (s : State) : Host.Outcome State Fault Refusal :=
  cxBranch 0x02 (sIdx i.src1) (fun s => s.sReg cl i.src1.toNat == 0) cl i s

/-- CX.BNZ (R97). -/
def execCxBnz (cl : Fin 128) (i : Issue) (s : State) : Host.Outcome State Fault Refusal :=
  cxBranch 0x03 (sIdx i.src1) (fun s => s.sReg cl i.src1.toNat != 0) cl i s

/-- CX.BLT (R97): signed. -/
def execCxBlt (cl : Fin 128) (i : Issue) (s : State) : Host.Outcome State Fault Refusal :=
  cxBranch 0x04 (sIdx i.src1 && sIdx i.src2) (fun s => (s.sReg cl i.src1.toNat).slt (s.sReg cl i.src2.toNat)) cl i s

/-- CX.LOOP (R97): Sd := Sd - 1; branch if Sd is not zero. A taken branch that raises FETCH leaves Sd (R92). -/
def execCxLoop (cl : Fin 128) (i : Issue) (s : State) : Host.Outcome State Fault Refusal :=
  runInstr cl 0 0x05 i .opt (sIdx i.dst) true (fun s =>
    let t := s.setS cl i.dst.toNat (s.sReg cl i.dst.toNat - 1)
    if t.sReg cl i.dst.toNat = 0 then .ok t
    else match jumpTo t (s.target cl i) with
      | .raise _ x => .raise s x
      | e => e) s

/-- CX.CALL (R97): Sd := offset of the next instruction; jump. -/
def execCxCall (cl : Fin 128) (i : Issue) (s : State) : Host.Outcome State Fault Refusal :=
  runInstr cl 0 0x06 i .opt (sIdx i.dst) true (fun s =>
    match jumpTo (s.setS cl i.dst.toNat (BitVec.ofNat 64 (s.pc cl + instrLen i))) (s.target cl i) with
    | .raise _ x => .raise s x
    | e => e) s

/-- CX.RET (R97): jump to Ss1[22:0]. -/
def execCxRet (cl : Fin 128) (i : Issue) (s : State) : Host.Outcome State Fault Refusal :=
  runInstr cl 0 0x07 i .no (sIdx i.src1) true (fun s => jumpTo s (bitsOf (s.sReg cl i.src1.toNat) 0 23)) s

/-- CX.WAITCONE (R98): OK_LATE where the cone count is already at or past CONE; else it waits. -/
def execCxWaitcone (cl : Fin 128) (i : Issue) (s : State) : Host.Outcome State Fault Refusal :=
  runInstr cl 0 0x08 i .req true true (fun s =>
    if i.ext.toNat ≤ s.now then .done s 0 1 noHandle none else .wait s (.cone i.ext)) s

/-- WAITCONE_DUE (R98): the cone count has reached CONE and the waiting CX.WAITCONE completes with STATUS OK. -/
def execWaitconeDue (cl : Fin 128) (s : State) : Host.Outcome State Fault Refusal :=
  .next (match (s.cl cl).wait with
    | some w => (match w.kind with
      | .cone c => if c.toNat ≤ s.now then s.rewait cl w (.ok s) else s
      | _ => s)
    | none => s)

/-- CX.FENCE (R93, R97): instructions run one at a time and nothing fetched ahead is kept, so IFLUSH changes no state. -/
def execCxFence (cl : Fin 128) (i : Issue) (s : State) : Host.Outcome State Fault Refusal :=
  runInstr cl 0 0x09 i .no true true (fenceExe cl) s

/-- CX.MODE (R76, R97, R98): ILLEGAL for the reserved RND and for a SEED write under DETERMINISTIC. -/
def execCxMode (cl : Fin 128) (i : Issue) (s : State) : Host.Outcome State Fault Refusal :=
  runInstr cl 0 0x0A i .no (sIdx i.src1 && sIdx i.src2) true (fun s =>
    let a := s.sReg cl i.src1.toNat
    let b0 := i.imm8.getLsbD 0
    let b2 := i.imm8.getLsbD 2
    if (b0 && bitsOf a 4 2 == 3) || (b2 && s.flag digDet_DETERMINISTIC) then .illegal s
    else
      let t := if b0 then s.put (clMode_RND cl) (bitsOf a 4 2) else s
      let t := if i.imm8.getLsbD 1 then t.put (clMode_STRICT cl) (bitsOf a 6 1) else t
      .ok (if b2 then t.wr (clSeed cl) (s.sReg cl i.src2.toNat) else t)) s

/-- CX.RDMODE (R97). -/
def execCxRdmode (cl : Fin 128) (i : Issue) (s : State) : Host.Outcome State Fault Refusal :=
  runInstr cl 0 0x0B i .no (sIdx i.dst) true (fun s => .ok (s.setS cl i.dst.toNat (s.clModeVal cl))) s

/-- CX.HALT (R97, R141). -/
def execCxHalt (cl : Fin 128) (i : Issue) (s : State) : Host.Outcome State Fault Refusal :=
  match runInstr cl 0 0x0C i .no true true (haltExe cl) s with
  | .next t =>
    -- completed where the issue sequence number moved on under a predicate bit of 1
    if (t.cl cl).seq ≠ (s.cl cl).seq && (s.pReg cl i.pred.toNat).getLsbD 0 then .next (t.put (clState_STATE cl) clHALTED).autoState
    else .next t
  | o => o

/-- CX.BRK (R97). -/
def execCxBrk (cl : Fin 128) (i : Issue) (s : State) : Host.Outcome State Fault Refusal :=
  runInstr cl 0 0x0D i .no true true (fun s => .raise s (Exc.plain xBREAK)) s

/-- CX.TRAP (R97): the service number stays in the instruction word at CL.EXC.PC. -/
def execCxTrap (cl : Fin 128) (i : Issue) (s : State) : Host.Outcome State Fault Refusal :=
  runInstr cl 0 0x0E i .no true true (fun s => .raise s (Exc.plain xSERVICE)) s

end Sys2Proof.Machine
end

