-- ==== Sys2Proof/Machine/Operands.lean ====
section
/-!
DEFINITION. Machine/Operands.lean: the operand forms of cluster instructions: register format fields (R41, R79, R82), tensor
descriptors (R83-R85), block-scaled tensors (R42, R44), and reading and writing the elements of a tensor.
-/
namespace Sys2Proof.Machine

/-! ## Format fields (R41, R45) -/

/-- An element format: codes 0-8 and 10-13. -/
def elemFmt (f : Nat) : Bool := f ≤ 8 || isInt f

/-- An element format or E8M0. -/
def elemOrScale (f : Nat) : Bool := elemFmt f || f == 9

/-- N of R82 over the formats that an instruction uses. -/
def lanes (fs : List Nat) : Nat :=
  if fs.any (fun f => fmtBits f == 64) then 128
  else if fs.all (fun f => fmtBits f == 16) then 512
  else 256

/-! ## Descriptors (R83) -/

/-- A tensor descriptor; strides are in bytes. -/
structure TD where
  base : Nat
  fmt : Nat
  bsc : Bool
  layout : Nat
  dim0 : Nat
  dim1 : Nat
  dim2 : Nat
  stride1 : Nat
  stride2 : Nat
  deriving DecidableEq, Repr

/-- The fields of a 128-bit descriptor (R83). -/
def TD.of (d : BitVec 128) : TD :=
  let f := fun (lo wid : Nat) => d.toNat / 2 ^ lo % 2 ^ wid
  { base := f 0 44 * 16, fmt := f 44 4, bsc := f 48 1 == 1, layout := f 49 3, dim2 := f 52 12, dim0 := f 64 16,
    dim1 := f 80 16, stride1 := f 96 20 * 16, stride2 := f 116 12 * 4096 }

/-- Elements of a tensor. -/
def TD.count (t : TD) : Nat := t.dim0 * t.dim1 * t.dim2

/-- A tensor with a dimension 0 (R84). -/
def TD.empty (t : TD) : Bool := t.count == 0

/-- The contiguous dimension (R84). -/
def TD.cdim (t : TD) : Nat := if t.layout == 1 then t.dim1 else t.dim0

/-- Lines of a plane (R85). -/
def TD.lines (t : TD) : Nat :=
  match t.layout with
  | 0 => t.dim1
  | 1 => t.dim0
  | _ => t.dim1 / 32

/-- Elements of a line. -/
def TD.lineElems (t : TD) : Nat :=
  match t.layout with
  | 0 => t.dim0
  | 1 => t.dim1
  | _ => t.dim0 * 32

/-- Bytes of `n` packed elements, padded to a byte or, in the 6-bit formats, to a group (R40). -/
def packedBytes (f n : Nat) : Nat := if fmtBits f == 6 then (n + 3) / 4 * 3 else (n * fmtBits f + 7) / 8

/-- Bytes of a line. -/
def TD.lineBytes (t : TD) : Nat := packedBytes t.fmt t.lineElems

/-- Bytes from the first to the last of a plane. -/
def TD.planeSpan (t : TD) : Nat := (t.lines - 1) * t.stride1 + t.lineBytes

/-- Bytes from the lowest to the highest of a tensor that is not empty (R85). -/
def TD.span (t : TD) : Nat := (t.dim2 - 1) * t.stride2 + t.planeSpan

/-- The line of element (i0, i1) in its plane, and its place in the line (R84). -/
def TD.place (t : TD) (i0 i1 : Nat) : Nat × Nat :=
  match t.layout with
  | 0 => (i1, i0)
  | 1 => (i0, i1)
  | _ => (i1 / 32, i0 / 32 * 1024 + i1 % 32 * 32 + i0 % 32)

/-- The element (i0, i1) at place `k` of line `l`. -/
def TD.unplace (t : TD) (l k : Nat) : Nat × Nat :=
  match t.layout with
  | 0 => (k, l)
  | 1 => (l, k)
  | _ => (k / 1024 * 32 + k % 32, l * 32 + k % 1024 / 32)

/-- Address of line `l` of plane `i2`. -/
def TD.lineAddr (t : TD) (i2 l : Nat) : Nat := t.base + l * t.stride1 + i2 * t.stride2

/-- A row of the local address map that an address lies in (R32); none for addresses outside every row. -/
def mapRow (a : Nat) : Nat :=
  match decodeAddr a with
  | .hbm _ => 1
  | .store n _ => 0x100 + n
  | .ctx _ => 2
  | .pool _ => 3
  | .img _ => 4
  | .reg _ _ => 5
  | .none =>
    if storeBase ≤ a && a < storeBase + 128 * 0x1000000 then 0x200 + (a - storeBase) / 0x1000000 else 0

/-- The descriptor rules of R43 and R85 for a tensor in register `n` whose scale array is `sc`. -/
def TD.valid (t : TD) (n : Nat) (sc : TD) (dest : Bool) : Bool :=
  elemOrScale t.fmt && t.layout ≤ 2
  && (t.layout != 2 || (t.dim0 % 32 == 0 && t.dim1 % 32 == 0))
  && (!t.bsc || ((4 ≤ t.fmt && t.fmt ≤ 8 || t.fmt == 12) && n % 2 == 0 && sc.fmt == 9 && !sc.bsc && sc.layout == t.layout
      && sc.cdim == (t.cdim + 31) / 32 && sc.dim2 == t.dim2
      && (if t.layout == 1 then sc.dim0 == t.dim0 else sc.dim1 == t.dim1)))
  && (!dest || ((t.lines ≤ 1 || t.lineBytes ≤ t.stride1) && (t.dim2 ≤ 1 || t.planeSpan ≤ t.stride2)))
  && (t.empty || mapRow t.base == mapRow (t.base + t.span - 1))

/-- Whether a tensor operand may be used: the format field agrees (R79) and the rules of R43 and R85 hold, those of its scale
array included. -/
def State.tensorOk (s : State) (c n fmtField : Nat) (dest : Bool) : Bool :=
  let t := TD.of (s.tReg c n)
  let sc := TD.of (s.tReg c (n + 1))
  t.fmt == fmtField && t.valid n sc dest && (!t.bsc || sc.valid (n + 1) sc dest)

/-! ## Reading and writing elements -/

/-- How a unit reads and writes bytes: the response of R33 and the address it concerns. -/
structure Port where
  read : State → Nat → Nat → State × Nat × Nat × List Byte
  write : State → Nat → List Byte → State × Nat × Nat

/-- A tensor's lines as numbers, plane by plane. -/
structure Data where
  td : TD
  lines : List Nat
  deriving DecidableEq, Repr

/-- Reads the lines whose addresses are listed: the first response that is not OK ends it. -/
def readLines (p : Port) (n : Nat) (s : State) : List Nat → State × Nat × Nat × List Nat
  | [] => (s, rOK, 0, [])
  | a :: rest =>
    let r := p.read s a n
    if r.2.1 = rOK then
      let t := readLines p n r.1 rest
      (t.1, t.2.1, t.2.2.1, natLE r.2.2.2 :: t.2.2.2)
    else (r.1, r.2.1, r.2.2.1, [])

/-- The addresses of a tensor's lines, plane by plane. -/
def TD.lineAddrs (t : TD) : List Nat :=
  (List.range t.dim2).flatMap fun i2 => (List.range t.lines).map fun l => t.lineAddr i2 l

/-- Reads a tensor. -/
def readTensor (p : Port) (s : State) (t : TD) : State × Nat × Nat × Data :=
  if t.empty then (s, rOK, 0, ⟨t, []⟩)
  else
    let r := readLines p t.lineBytes s t.lineAddrs
    (r.1, r.2.1, r.2.2.1, ⟨t, r.2.2.2⟩)

/-- The code of element (i0, i1, i2). -/
def Data.code (d : Data) (i0 i1 i2 : Nat) : Nat :=
  let p := d.td.place i0 i1
  (d.lines.getD (i2 * d.td.lines + p.1) 0) / 2 ^ (p.2 * fmtBits d.td.fmt) % 2 ^ fmtBits d.td.fmt

/-- The index (i0, i1, i2) of the element with row-major linear index `j` (R58, R81). -/
def TD.index (t : TD) (j : Nat) : Nat × Nat × Nat := (j % t.dim0, j / t.dim0 % t.dim1, j / t.dim0 / t.dim1)

/-- The element codes in row-major order. -/
def Data.codes (d : Data) : List Nat :=
  (List.range d.td.count).map fun j => let i := d.td.index j; d.code i.1 i.2.1 i.2.2

/-- The index in a scale array of the block of element (i0, i1) (R42). -/
def TD.scaleIdx (t : TD) (i0 i1 : Nat) : Nat × Nat := if t.layout == 1 then (i0, i1 / 32) else (i0 / 32, i1)

/-- A tensor with its scale array, where it is block-scaled. -/
structure Scaled where
  data : Data
  scale : Option Data
  deriving DecidableEq, Repr

/-- Reads the tensor of descriptors (t, sc), its scale array included. -/
def readScaled (p : Port) (s : State) (t sc : TD) : State × Nat × Nat × Scaled :=
  let r := readTensor p s t
  if r.2.1 ≠ rOK || !t.bsc then (r.1, r.2.1, r.2.2.1, ⟨r.2.2.2, none⟩)
  else
    let q := readTensor p r.1 sc
    (q.1, q.2.1, q.2.2.1, ⟨r.2.2.2, some q.2.2.2⟩)

/-- The value of an element (R39, R42). -/
def Scaled.num (d : Scaled) (i0 i1 i2 : Nat) : ExNum :=
  let c := d.data.code i0 i1 i2
  match d.scale with
  | none => decodeNum d.data.td.fmt c
  | some sc =>
    let k := d.data.td.scaleIdx i0 i1
    decodeScaled d.data.td.fmt c (sc.code k.1 k.2 i2)

/-- The bytes of line `l` of plane `i2` of a tensor whose code at (i0, i1, i2) is `f`; pads are zero (R40). -/
def lineOf (t : TD) (f : Nat → Nat → Nat → Nat) (i2 l : Nat) : List Byte :=
  let v := (List.range t.lineElems).reverse.foldl
    (fun a k => let i := t.unplace l k; a * 2 ^ fmtBits t.fmt + f i.1 i.2 i2 % 2 ^ fmtBits t.fmt) 0
  bytesLE t.lineBytes v

/-- Writes byte strings at their addresses in order: the first refusal ends it; a part refused under R364 does not. -/
def writeLines (p : Port) (s : State) : List (Nat × List Byte) → State × Nat × Nat
  | [] => (s, rOK, 0)
  | (a, b) :: rest =>
    let r := p.write s a b
    if r.2.1 = rOK then writeLines p r.1 rest
    else if r.2.1 = rDATAERR then
      let t := writeLines p r.1 rest
      if t.2.1 = rOK then (t.1, rDATAERR, r.2.2) else t
    else r

/-- The lines that a tensor's codes make: (address, bytes), plane by plane. -/
def TD.linesOf (t : TD) (f : Nat → Nat → Nat → Nat) : List (Nat × List Byte) :=
  (List.range t.dim2).flatMap fun i2 => (List.range t.lines).map fun l => (t.lineAddr i2 l, lineOf t f i2 l)

/-- Writes a tensor's codes. -/
def writeTensor (p : Port) (s : State) (t : TD) (f : Nat → Nat → Nat → Nat) : State × Nat × Nat :=
  if t.empty then (s, rOK, 0) else writeLines p s (t.linesOf f)

/-! ## Results into a tensor -/

/-- A tensor's results: its codes in row-major order, its scale codes in row-major order of the scale array, and what they
raised by element. -/
structure Results where
  codes : List Nat
  scales : List Nat
  res : List CRes
  deriving DecidableEq, Repr

/-- Rounds an exact result into a format: an integer result of the integer path (`ip`) into an integer format by the SAT
rule of R55, any other by R46, R47 and R57-R62. -/
def intoFmt (ip : Bool) (f : Nat) (r : Rnd) (sat : Bool) (a : ARes) : CRes :=
  if ip && isInt f then (intoInt f sat (a.val.scaled 0)).after a.fl a.kind else a.into f r sat

/-- Rounds the exact results `f j` (row-major index j) into a destination that is not block-scaled. -/
def plainResults (t : TD) (ip sat : Bool) (rnd : Nat → Rnd) (f : Nat → ARes) : Results :=
  let rs := (List.range t.count).map fun j => intoFmt ip t.fmt (rnd j) sat (f j)
  ⟨rs.map (·.code), [], rs⟩

/-- Rounds the exact results into a block-scaled destination, block by block along the contiguous dimension (R44). -/
def scaledResults (t sc : TD) (sat : Bool) (rnd : Nat → Rnd) (f : Nat → ARes) : Results :=
  let lin := fun (i0 i1 i2 : Nat) => i0 + t.dim0 * (i1 + t.dim1 * i2)
  -- the blocks in row-major order of the scale array: its code and the (index, result) of its elements
  let blocks := (List.range sc.count).map fun b =>
    let k := sc.index b
    let js := (List.range 32).filterMap fun m =>
      if t.layout == 1 then (if k.2.1 * 32 + m < t.dim1 then some (lin k.1 (k.2.1 * 32 + m) k.2.2) else none)
      else (if k.1 * 32 + m < t.dim0 then some (lin (k.1 * 32 + m) k.2.1 k.2.2) else none)
    let as := js.map f
    let r := scaleBlock t.fmt sat ((js.zip as).map fun x => (x.2.val, rnd x.1, x.2.fl &&& fNV != 0))
    (r.1, js.zip ((as.zip r.2).map fun x => x.2.after x.1.fl x.1.kind))
  let byIdx : Tab CRes := blocks.foldl (fun tb b => b.2.foldl (fun tb x => tb.insert x.1 x.2) tb) []
  let rs := (List.range t.count).map fun j => (byIdx.find j).getD (.ok 0)
  ⟨rs.map (·.code), blocks.map (·.1), rs⟩

/-- Rounds exact results into a destination. -/
def resultsFor (t sc : TD) (ip sat : Bool) (rnd : Nat → Rnd) (f : Nat → ARes) : Results :=
  if t.bsc then scaledResults t sc sat rnd f else plainResults t ip sat rnd f

/-- Writes a destination's codes and, where it is block-scaled, its scale array. -/
def writeResults (p : Port) (s : State) (t sc : TD) (r : Results) : State × Nat × Nat :=
  let at' := fun (l : List Nat) (u : TD) (i0 i1 i2 : Nat) => l.getD (i0 + u.dim0 * (i1 + u.dim1 * i2)) 0
  let w := writeTensor p s t (at' r.codes t)
  if w.2.1 ≠ rOK || !t.bsc then w else writeTensor p w.1 sc (at' r.scales sc)

/-- The exact value of element `j` of a source as a result: a signalling NaN raises NV (R46). -/
def Scaled.ares (d : Scaled) (j : Nat) : ARes :=
  let i := d.data.td.index j
  let x := d.num i.1 i.2.1 i.2.2
  if x.isSnan then ARes.invalid 2 else .ok x

/-- Flags and first event of a destination's results: TILE and ELEM from the row-major index as R64 has them for UNIT 2. -/
def Results.gather (r : Results) : Gather :=
  (r.res.foldl (fun (a : Gather × Nat) x => (a.1.res x (a.2 / 1024) (a.2 % 1024) 0, a.2 + 1)) (Gather.none, 0)).1

/-! ## Hazards of collectives (R88, R131, R132) -/

/-- The address range of a tensor; none where it is empty. -/
def TD.range (t : TD) : Option (Nat × Nat) := if t.empty then none else some (t.base, t.base + t.span)

/-- Whether a range overlaps the range of a tensor. -/
def TD.overlaps (t : TD) (lo hi : Nat) : Bool :=
  match t.range with
  | some (a, b) => decide (lo < b) && decide (a < hi)
  | none => false

/-- Whether an instruction that reads and writes these V registers and these ranges (lowest and one past the highest local
address, and whether it writes) must wait for a collective of its cluster, which reads its held source and writes its
landing destination. -/
def State.hazard (s : State) (n : Nat) (vr vw : List Nat) (rng : List (Nat × Nat × Bool)) : Bool :=
  s.colls.any fun c => c.cl == n && (
    (match c.src with
      | .vreg r => vw.contains r
      | .tensor ta => rng.any fun x => x.2.2 && (TD.of ta).overlaps x.1 x.2.1
      | _ => false)
    || (match c.dst with
      | .vreg r => vr.contains r || vw.contains r || (c.op == 5 && (vr.contains (r + 1) || vw.contains (r + 1)))
      | .tensor td tc => rng.any fun x => (TD.of td).overlaps x.1 x.2.1 || (c.op == 5 && (TD.of tc).overlaps x.1 x.2.1)
      | .none => false))

/-- Holds an instruction at issue while a collective of its cluster has one of its operands (R88, R131). -/
def unheld (s : State) (n : Nat) (vr vw : List Nat) (rng : List (Nat × Nat × Bool)) (e : Exe) : Exe :=
  if s.hazard n vr vw rng then .stall s else e

/-- The range of a tensor operand as a hazard range. -/
def TD.hz (t : TD) (w : Bool) : List (Nat × Nat × Bool) :=
  match t.range with
  | some (a, b) => [(a, b, w)]
  | none => []

/-! ## Digest folds (R81, R345) -/

/-- One fold: SUM, COUNT and NANS (R345); COUNT and NANS have the widths of R107. -/
def DigSlot.fold (d : DigSlot) (seed : W64) (idx code fmt : Nat) : DigSlot :=
  ⟨d.sum + mix64 (BitVec.ofNat 64 idx ^^^ seed) (BitVec.ofNat 64 code), (d.count + 1) % 2 ^ 48,
   (d.nans + (if isNanCode fmt code then 1 else 0)) % 2 ^ 32⟩

/-- Folds codes with rising indices into a slot of a cluster. -/
def State.foldCodes (s : State) (c slot fmt base : Nat) (codes : List Nat) : State :=
  let seed := s.rd digSeed
  s.modCl c fun k => { k with digs := k.digs.modify DigSlot.reset slot fun d =>
    (codes.foldl (fun (a : DigSlot × Nat) x => (a.1.fold seed a.2 x fmt, a.2 + 1)) (d, base)).1 }

/-- DEN of an XF extension. -/
def denOf (i : Issue) : Bool := i.x && bitsOf i.ext 57 1 == 1

/-- The fold that an XF extension with DEN asks for: element j with index IMM32 + j into DSLOT (R81). -/
def State.denFold (s : State) (c : Nat) (i : Issue) (fmt : Nat) (codes : List Nat) : State :=
  if denOf i then s.foldCodes c (bitsOf i.ext 51 6) fmt (bitsOf i.ext 0 32) codes else s

end Sys2Proof.Machine
end

