-- ==== Sys2Proof/Machine/MatrixMx.lean ====
section
/-!
DEFINITION. Machine/MatrixMx.lean: the matrix class MX (R49-R55, R86, R103, R104), but for the fused forms; their tile results
are computed here too.
-/
namespace Sys2Proof.Machine

/-! ## Operands in the own store -/

/-- The sequencer's unchecked port to its own store (R375); an error is logged (R33). -/
def ownPort (n : Nat) : Port where
  read s a len :=
    let r := s.rawRead n a len
    (if r.2.1 = rOK then r.1 else r.1.accessErr n a r.2.1, r.2.1, a, r.2.2)
  write s a b :=
    let r := s.rawWrite n a b
    (if r.2 = rOK then r.1 else r.1.accessErr n a r.2, r.2, a)

/-- A tensor and its scale array. -/
def State.tPair (s : State) (n r : Nat) : TD × TD := (TD.of (s.tReg n r), TD.of (s.tReg n (r + 1)))

/-- The first plane of a tensor. -/
def TD.plane0 (t : TD) : TD := { t with dim2 := min t.dim2 1 }

/-- A matrix operand and its scale array: R103 names DIM1 and DIM0, and the engine uses the first plane (log entry 28). -/
def State.mPair (s : State) (n r : Nat) : TD × TD := ((TD.of (s.tReg n r)).plane0, (TD.of (s.tReg n (r + 1))).plane0)

/-- Whether a tensor operand, its scale array included, lies in the cluster's own store (R103). -/
def inStore (n : Nat) (t : TD × TD) : Bool :=
  (t.1.empty || mapRow t.1.base == 0x100 + n) && (!t.1.bsc || t.2.empty || mapRow t.2.base == 0x100 + n)

/-- The formats of a matrix operand: 1-8 and 10-13 (R41, R45). -/
def mxFmt (f : Nat) : Bool := elemFmt f && f != 0

/-- The ACCESS exception of an operand outside the own store (R103), logged. -/
def outsideStore (s : State) (n : Nat) (t : TD) : Exe := .raise (s.accessErr n t.base rDECERR) (Exc.plain xACCESS t.base rDECERR)

/-! ## Dot products (R53, R54) -/

/-- An operand as the engine decodes it (R49, R53): fast mode reads a subnormal element as zero of its sign; INT32 beside a
floating-point operand is rounded to 24 bits, to nearest, ties to even. The flag is NX. -/
def mxOperand (d : Scaled) (strict ip : Bool) (i0 i1 : Nat) : ExNum × Nat :=
  let f := d.data.td.fmt
  let x := d.num i0 i1 0
  if !strict && isSubnormal f (d.data.code i0 i1 0) then
    (match x with | .fin n _ _ => .fin n 0 0 | y => y, 0)
  else if f == 10 && !ip then
    match x with
    | .fin n m e =>
      if m == 0 then (x, 0)
      else
        let g := flog2 m e - 23
        let r := roundGrid .rne m e g
        if r.2 then (.fin n r.1 g, fNX) else (x, 0)
    | y => (y, 0)
  else (x, 0)

/-- The invalid event of one product: KIND 2 for a signalling NaN, 0 for 0 x infinity. -/
def productKind (a b : ExNum) : Option Nat :=
  if a.isSnan || b.isSnan then some 2
  else if (a.isZero && b.isInf) || (a.isInf && b.isZero) then some 0
  else none

/-- The exact sum of finite terms, with the sign of an exact zero. -/
def sumExact (l : List ExNum) : ExNum :=
  let g := l.foldl (fun g x => min g (x.expOr 0)) 0
  ExNum.mk' (l.foldl (fun a x => a + x.scaled g) 0) g (l.all ExNum.neg)

/-- The fast-mode sum (R53): each term truncated to a multiple of 2^(emax - F); NX where a bit is lost (log entry 28). -/
def sumFast (f : Int) (l : List ExNum) : ExNum × Nat :=
  match maxLog l with
  | none => (.fin (l.all ExNum.neg) 0 0, 0)
  | some emax =>
    let g := emax - f
    let r := l.foldl (fun (a : Int × Nat) x => match x with
      | .fin n m e =>
        let q := roundGrid .rz m e g
        (a.1 + (if n then -(q.1 : Int) else q.1), if q.2 then fNX else a.2)
      | _ => a) (0, 0)
    (ExNum.mk' r.1 g (l.all ExNum.neg), r.2)

/-- The dot product of one output element: the accumulator input, the operand pairs, and whether it is exact (strict) or the
fast sum with F (R53, R54): the result before rounding, and (KIDX, KIND) of its first invalid event. -/
def dotProduct (strict : Bool) (f : Int) (c : ExNum) (ab : List (ExNum × ExNum)) : ARes × Nat :=
  let bad := (ab.zipIdx.filterMap fun x => (productKind x.1.1 x.1.2).map fun k => (x.2, k)).head?
  match bad with
  | some (k, kd) => (ARes.invalid kd, k)
  | none =>
    if c.isSnan then (ARes.invalid 2, 0)
    else if c.isNan || ab.any (fun x => x.1.isNan || x.2.isNan) then (.ok (.nan false), 0)
    else
      let ps := ab.map fun x => (nMul x.1 x.2).val
      let ts := c :: ps
      let pos := ts.any fun x => x.isInf && !x.neg
      let neg := ts.any fun x => x.isInf && x.neg
      if pos && neg then (ARes.invalid 1, (ps.zipIdx.filterMap fun x => if x.1.isInf then some x.2 else none).headD 0)
      else if pos then (.ok (.inf false), 0)
      else if neg then (.ok (.inf true), 0)
      else if strict then (.ok (sumExact ts), 0)
      else let r := sumFast f ts; (⟨r.1, r.2, none⟩, 0)

/-- What the engine computes for an output element: the exact or fast sum, its flags, and (KIDX, KIND). -/
structure MxElem where
  val : ARes
  kidx : Nat
  deriving DecidableEq, Repr

/-- Element (i, j) of A x B plus an accumulator input (R49-R55). -/
def mxElem (a b : Scaled) (strict wacc ip : Bool) (c : ExNum) (i j : Nat) : MxElem :=
  let ab := (List.range a.data.td.dim0).map fun k => (mxOperand a strict ip k i, mxOperand b strict ip j k)
  let nx := ab.foldl (fun n x => n ||| x.1.2 ||| x.2.2) 0
  let r := dotProduct (strict || ip) (if wacc then 51 else 27) c (ab.map fun x => (x.1.1, x.2.1))
  ⟨⟨r.1.val, r.1.fl ||| nx, r.1.kind⟩, r.2⟩

/-- Whether the integer path is taken (R55): both operands are integers, not block-scaled (log entry 28). -/
def intPath (a b : TD) : Bool := isInt a.fmt && isInt b.fmt && !a.bsc && !b.bsc

/-- Rounds into a significand of 48 bits with the 10-bit exponent range of R49 (R51): an F32W accumulator. -/
def roundWide (r : Rnd) (a : ARes) : ExNum × CRes :=
  match a.val with
  | .fin n m e =>
    if m == 0 then (.fin n 0 0, ⟨0, a.fl, a.kind⟩)
    else
      let g := max (flog2 m e - 47) (-512 - 47)
      let q := roundGrid r m e g
      let nx := if q.2 then fNX else 0
      if q.1 == 0 then (.fin n 0 0, ⟨0, a.fl ||| nx ||| fUF, a.kind⟩)
      else if 511 < flog2 q.1 g then
        (if r == .rz then .fin n (2 ^ 48 - 1) (511 - 47) else .inf n, ⟨0, a.fl ||| fOF ||| fNX, a.kind⟩)
      else (.fin n q.1 g, ⟨0, a.fl ||| nx ||| (if q.2 && flog2 q.1 g < -512 then fUF else 0), a.kind⟩)
  | x => (x, ⟨0, a.fl, a.kind⟩)

/-- Rounds a result into an accumulator of a tag (R51, R55): the element and what was raised. -/
def intoAcc (tag : AccTag) (r : Rnd) (sat ip : Bool) (a : ARes) : ExNum × CRes :=
  match tag with
  | .i32 => let c := intoFmt ip 10 r sat a; (decodeNum 10 c.code, c)
  | .f32w => roundWide r a
  | _ => let c := a.into 1 r sat; (decodeNum 1 c.code, c)

/-! ## The instructions -/

/-- Holds an MX instruction while a collective has its sets or tensors (R88, R131). -/
def mxFree (s : State) (n : Nat) (sets : List Nat) (rng : List (Nat × Nat × Bool)) (e : Exe) : Exe :=
  if sets.any fun a => (s.aSet n a).held then .stall s else unheld s n [] [] rng e

/-- Ranges of a tensor pair. -/
def pairHz (t : TD × TD) (w : Bool) : List (Nat × Nat × Bool) := t.1.hz w ++ (if t.1.bsc then t.2.hz w else [])

/-- Output tile and element of (row, col) with `w` columns (R64, R104). -/
def tileOf (w row col : Nat) : Nat × Nat := (row / 32 * ((w + 31) / 32) + col / 32, row % 32 * 32 + col % 32)

/-- An A register index. -/
def accIdx (r : BitVec 6) : Bool := r.toNat < 8

/-- MX.AZERO (R103): Ad := 0; tag EMPTY. -/
def execMxAzero (cl : Fin 128) (i : Issue) (s : State) : Host.Outcome State Fault Refusal :=
  runInstr cl 3 0x00 i .no (accIdx i.dst) true (fun s =>
    mxFree s cl [i.dst.toNat] [] (.ok (s.setA cl i.dst.toNat AccSet.reset))) s

/-- Elements outside M x N after MX.ALD: the spec does not state them (log entry 28). -/
def aldRest (base m n : Nat) (tag : AccTag) (l : Tab ExNum) : Tab ExNum :=
  (List.range 16384).foldl (fun t k =>
    if k / 128 < m && k % 128 < n then t
    else t.set ExNum.zero k (decodeNum (if tag = .i32 then 10 else 1) (Config.freeBits 32 (base + k)).toNat)) l

/-- MX.ALD (R103): Ad := Ta, with the tag of IMM8[1:0]. -/
def execMxAld (cl : Fin 128) (i : Issue) (s : State) : Host.Outcome State Fault Refusal :=
  runInstr cl 3 0x01 i .no (accIdx i.dst && mxFmt i.fmta.toNat && i.imm8.toNat % 4 ≠ 3) true (fun s =>
    let t := s.mPair cl i.src1.toNat
    let m := t.1.dim1
    let n := t.1.dim0
    mxFree s cl [i.dst.toNat] (pairHz t false)
      (if !s.tensorOk cl i.src1.toNat i.fmta.toNat false || 128 < m || 128 < n then .illegal s
      else if t.1.empty then .ok s
      else if !inStore cl t then outsideStore s cl t.1
      else
        let tag : AccTag := match i.imm8.toNat % 4 with | 0 => .f32 | 1 => .f32w | _ => .i32
        let r := readScaled (ownPort cl) s t.1 t.2
        if r.2.1 ≠ rOK then .raise r.1 (Exc.plain xACCESS r.2.2.1 r.2.1)
        else
          let ip := isInt t.1.fmt && !t.1.bsc
          let es := (List.range (m * n)).map fun j =>
            (j, intoAcc tag (s.rndFor cl i (j / n * 128 + j % n)) i.sat ip (r.2.2.2.ares (j % n + n * (j / n))))
          let g := es.foldl (fun (g : Gather) x => let p := tileOf 128 (x.1 / n) (x.1 % n); g.res x.2.2 p.1 p.2 0) Gather.none
          let tab := es.foldl (fun (tb : Tab ExNum) x => tb.set ExNum.zero (x.1 / n * 128 + x.1 % n) x.2.1) []
          let u := if m = 128 && n = 128 then r.1 else { r.1 with free := r.1.free + 16384 }
          let tab := if m = 128 && n = 128 then tab else aldRest r.1.free m n tag tab
          .flags ((u.setA cl i.dst.toNat ⟨tag, tab, false⟩).locate cl i 0 g.ev) g.fl)) s

/-- A tensor destination's port writes; then the locator, the digest fold and the flags. -/
def mxStore (s : State) (n : Nat) (i : Issue) (t : TD × TD) (r : Results) (g : Gather) : Exe :=
  let w := writeResults (ownPort n) s t.1 t.2 r
  if w.2.1 ≠ rOK then .raise w.1 (Exc.plain xACCESS w.2.2 w.2.1)
  else .flags ((w.1.denFold n i t.1.fmt r.codes).locate n i 0 g.ev) g.fl

/-- What the results of a matrix destination raised: TILE, ELEM by the output tiles of R104, KIDX by element. -/
def mxGather (w : Nat) (r : Results) (kidx : Nat → Nat) : Gather :=
  (r.res.zipIdx).foldl (fun (g : Gather) x => let p := tileOf w (x.2 / w) (x.2 % w); g.res x.1 p.1 p.2 (kidx x.2)) Gather.none

/-- MX.AMOV (R103): Td := As rounded into FMTD under RND and SAT; FMTA matches the tag. -/
def execMxAmov (cl : Fin 128) (i : Issue) (s : State) : Host.Outcome State Fault Refusal :=
  let fd := i.fmtd.toNat
  runInstr cl 3 0x02 i .opt (accIdx i.src1 && mxFmt fd && (i.fmta = 1 || i.fmta = 10)) true (fun s =>
    let t := s.mPair cl i.dst.toNat
    let a := s.aSet cl i.src1.toNat
    mxFree s cl [i.src1.toNat] (pairHz t true)
      (if !s.tensorOk cl i.dst.toNat fd true || 128 < t.1.dim1 || 128 < t.1.dim0 then .illegal s
      else if (a.tag = .i32 && i.fmta ≠ 10) || ((a.tag = .f32 || a.tag = .f32w) && i.fmta ≠ 1) then .illegal s
      else if t.1.empty then .ok s
      else if !inStore cl t then outsideStore s cl t.1
      else
        let w := t.1.dim0
        let f := fun (j : Nat) =>
          let k := t.1.index j
          ARes.ok (if k.2.2 = 0 then a.elems.get ExNum.zero (k.2.1 * 128 + k.1) else ExNum.zero)
        let r := resultsFor t.1 t.2 (a.tag = .i32) i.sat (fun j => s.rndFor cl i j) f
        mxStore s cl i t r (mxGather w r fun _ => 0))) s

/-- The operand checks that every MMA form shares: formats, descriptors, own store, K. -/
def mmaLegal (s : State) (n ra rb fa fb : Nat) : Bool :=
  s.tensorOk n ra fa false && s.tensorOk n rb fb false && (TD.of (s.tReg n ra)).dim0 == (TD.of (s.tReg n rb)).dim1

/-- Blocks of 128 x 128 of an output (R104). -/
def mxBlocks (m n : Nat) : Nat := (m + 127) / 128 * ((n + 127) / 128)

/-- The tag that an MMA gives a set and the exact element type. -/
def mmaTag (ip wacc : Bool) : AccTag := if ip then .i32 else if wacc then .f32w else .f32

/-- Reads both operands of an MMA. -/
def readPair (n : Nat) (s : State) (a b : TD × TD) : State × Nat × Nat × Scaled × Scaled :=
  let ra := readScaled (ownPort n) s a.1 a.2
  if ra.2.1 ≠ rOK then (ra.1, ra.2.1, ra.2.2.1, ra.2.2.2, ra.2.2.2)
  else
    let rb := readScaled (ownPort n) ra.1 b.1 b.2
    (rb.1, rb.2.1, rb.2.2.1, ra.2.2.2, rb.2.2.2)

/-- The accumulator form of MX.MMA (R86, R104). -/
def mmaAcc (n : Nat) (i : Issue) (s : State) : Exe :=
  let a := s.mPair n i.src1.toNat
  let b := s.mPair n i.src2.toNat
  let wacc := i.imm8.getLsbD 0
  let ip := intPath a.1 b.1
  let m := a.1.dim1
  let w := b.1.dim0
  let d := s.aSet n i.dst.toNat
  let tag := mmaTag ip wacc
  mxFree s n [i.dst.toNat] (pairHz a false ++ pairHz b false)
    (if !accIdx i.dst || !mmaLegal s n i.src1.toNat i.src2.toNat i.fmta.toNat i.fmtb.toNat || 128 < m || 128 < w
        || i.fmtd.toNat ≠ (if ip then 10 else 1) then .illegal s
    else if d.tag ≠ .empty && (d.tag ≠ tag || (ip && wacc)) then .illegal s
    else if a.1.empty || b.1.empty then .ok s
    else if !inStore n a then outsideStore s n a.1
    else if !inStore n b then outsideStore s n b.1
    else
      let r := readPair n s a b
      if r.2.1 ≠ rOK then .raise r.1 (Exc.plain xACCESS r.2.2.1 r.2.1)
      else if i.upset then .raise r.1 (Exc.plain xMXCHK)
      else
        let strict := s.strictFor n i
        let es := (List.range (m * w)).map fun j =>
          let k := j / w * 128 + j % w
          let e := mxElem r.2.2.2.1 r.2.2.2.2 strict wacc ip (d.elems.get ExNum.zero k) (j / w) (j % w)
          (k, e.kidx, intoAcc tag (s.rndFor n i k) i.sat ip e.val)
        let g := es.foldl (fun (g : Gather) x => let p := tileOf 128 (x.1 / 128) (x.1 % 128); g.res x.2.2.2 p.1 p.2 x.2.1) Gather.none
        let tab := es.foldl (fun (tb : Tab ExNum) x => tb.set ExNum.zero x.1 x.2.2.1) d.elems
        .flags ((r.1.setA n i.dst.toNat ⟨tag, tab, false⟩).locate n i 0 g.ev) g.fl)

/-- The tensor form of MX.MMA (R104): the result is staged in A0 to A(b - 1), which end EMPTY. -/
def mmaTensor (n : Nat) (i : Issue) (s : State) : Exe :=
  let a := s.mPair n i.src1.toNat
  let b := s.mPair n i.src2.toNat
  let t := s.mPair n i.dst.toNat
  let wacc := i.imm8.getLsbD 0
  let acc := i.imm8.getLsbD 1
  let ip := intPath a.1 b.1
  let m := a.1.dim1
  let w := b.1.dim0
  let nb := mxBlocks m w
  mxFree s n (List.range (min nb 8)) (pairHz a false ++ pairHz b false ++ pairHz t true)
    (if !mmaLegal s n i.src1.toNat i.src2.toNat i.fmta.toNat i.fmtb.toNat || !s.tensorOk n i.dst.toNat i.fmtd.toNat true
        || t.1.dim1 ≠ m || t.1.dim0 ≠ w || 8 < nb || !mxFmt i.fmtd.toNat then .illegal s
    else if a.1.empty || b.1.empty || t.1.empty then .ok s
    else if !inStore n a then outsideStore s n a.1
    else if !inStore n b then outsideStore s n b.1
    else if !inStore n t then outsideStore s n t.1
    else
      let r := readPair n s a b
      if r.2.1 ≠ rOK then .raise r.1 (Exc.plain xACCESS r.2.2.1 r.2.1)
      else
        let o := if acc then readScaled (ownPort n) r.1 t.1 t.2 else (r.1, rOK, 0, ⟨⟨t.1, []⟩, none⟩)
        if o.2.1 ≠ rOK then .raise o.1 (Exc.plain xACCESS o.2.2.1 o.2.1)
        else if i.upset then .raise o.1 (Exc.plain xMXCHK)
        else
          let strict := s.strictFor n i
          let es := (List.range (m * w)).map fun j =>
            mxElem r.2.2.2.1 r.2.2.2.2 strict wacc ip (if acc then o.2.2.2.num (j % w) (j / w) 0 else ExNum.zero) (j / w) (j % w)
          let f := fun (j : Nat) =>
            let e := (es.getD j ⟨.ok ExNum.zero, 0⟩).val
            if ip && !isInt i.fmtd.toNat then
              let c := intoInt 10 i.sat (e.val.scaled 0)
              (⟨decodeNum 10 c.code, e.fl ||| c.fl, e.kind⟩ : ARes)
            else e
          let x := resultsFor t.1 t.2 ip i.sat (fun j => s.rndFor n i j) f
          let u := (List.range nb).foldl (fun u k => u.setA n k AccSet.reset) o.1
          mxStore u n i t x (mxGather w x fun j => (es.getD j ⟨.ok ExNum.zero, 0⟩).kidx))

/-- MX.MMA (R103, R104): the accumulator form with TDST = 0, the tensor form with TDST = 1, which alone takes an extension. -/
def execMxMma (cl : Fin 128) (i : Issue) (s : State) : Host.Outcome State Fault Refusal :=
  let td := i.imm8.getLsbD 2
  runInstr cl 3 0x03 i (if td then .opt else .no) (mxFmt i.fmta.toNat && mxFmt i.fmtb.toNat && mxFmt i.fmtd.toNat) true
    (fun s => if td then mmaTensor cl i s else mmaAcc cl i s) s

/-- MX.RMAX (R48, R103): Td[i] := maximum of row i of Ta; Td is DIM1 x 1. -/
def execMxRmax (cl : Fin 128) (i : Issue) (s : State) : Host.Outcome State Fault Refusal :=
  runInstr cl 3 0x04 i .no (mxFmt i.fmta.toNat && mxFmt i.fmtd.toNat) true (fun s =>
    let a := s.mPair cl i.src1.toNat
    let t := s.mPair cl i.dst.toNat
    mxFree s cl [] (pairHz a false ++ pairHz t true)
      (if !s.tensorOk cl i.src1.toNat i.fmta.toNat false || !s.tensorOk cl i.dst.toNat i.fmtd.toNat true
          || t.1.dim1 ≠ a.1.dim1 || t.1.dim0 ≠ 1 then .illegal s
      else if a.1.empty || t.1.empty then .ok s
      else if !inStore cl a then outsideStore s cl a.1
      else if !inStore cl t then outsideStore s cl t.1
      else
        let r := readScaled (ownPort cl) s a.1 a.2
        if r.2.1 ≠ rOK then .raise r.1 (Exc.plain xACCESS r.2.2.1 r.2.1)
        else
          let row := fun (k : Nat) => (List.range a.1.dim0).map fun c => r.2.2.2.num c k 0
          let f := fun (j : Nat) =>
            let l := row (j % t.1.dim1)
            l.tail.foldl (fun (x : ARes) y => let z := nMinMax true false x.val y; ⟨z.val, x.fl ||| z.fl, x.kind.or z.kind⟩)
              (if (l.headD ExNum.zero).isSnan then ARes.invalid 2 else .ok (l.headD ExNum.zero))
          let x := resultsFor t.1 t.2 (isInt a.1.fmt && !a.1.bsc) i.sat (fun j => s.rndFor cl i j) f
          let kidx := fun (j : Nat) => ((row (j % t.1.dim1)).zipIdx.filterMap fun y => if y.1.isSnan then some y.2 else none).headD 0
          mxStore r.1 cl i t x (mxGather 1 x kidx))) s

end Sys2Proof.Machine
end

