-- ==== Sys2Proof/Machine/Pool.lean ====
section
/-!
DEFINITION. Machine/Pool.lean: the buffer pool (R243-R250): partitions and shares, allocating, referencing and releasing cells,
the cell groups of the plan part, and the data that the cells hold.
-/
namespace Sys2Proof.Machine

/-! ## Partitions and shares (R247, R248) -/

/-- Cells of the pool (R255). -/
def poolCells : Nat := 262144

/-- The partition code of a class (R243, R247). -/
def classPart (cls : Nat) : Nat :=
  if cls ≤ 1 then 3 else if cls = 2 then 0 else if cls = 5 then 2 else 1

/-- The size of a partition in cells (R247, R255). -/
def State.partSize (s : State) (p : Nat) : Nat :=
  match p with
  | 0 => s.get poolPart_COLL * 16
  | 2 => s.get poolPart_MIRROR * 16
  | 3 => 5248
  | _ => poolCells - 5248 - s.get poolPart_COLL * 16 - s.get poolPart_MIRROR * 16

/-- The link share of a partition: the allowances of its classes over ports 0-13 (R248). -/
def State.linkShare (s : State) (p : Nat) : Nat :=
  (List.range 8).foldl (fun a c =>
    if classPart c = p then a + 24 * s.get (fabAllow_TORUS c) + 2 * s.get (fabAllow_SERVICE c) else a) 0

/-- The plan part in groups of 16 cells (R247). -/
def State.planGroups (s : State) : Nat := (s.partSize 0 - s.linkShare 0 - s.get poolPart_INJ * 16) / 16

/-! ## Charges

A cell's `charge` names the share it is taken from: 0 the local share, 1 the READ_RSP and DONE reserve of MEM, 2 INJ, 3 the plan
part, and 16 + 16 * port + 2 * class + VC a link's credit. -/

/-- The charge of a cell received on a link. -/
def linkCharge (port cls vc : Nat) : Nat := 16 + 16 * port + 2 * cls + vc

/-- A cell's tag. -/
def State.cell (s : State) (c : Nat) : CellTag := s.cells.get CellTag.reset c

/-- Occupancy of a partition: cells allocated or quarantined (R255). -/
def State.occ (s : State) (p : Nat) : Nat := s.cells.countP fun e => e.2.part = p && (e.2.alloc || e.2.quar)

/-- Cells of a partition under a charge. -/
def State.chargeUse (s : State) (p ch : Nat) : Nat := s.cells.countP fun e => e.2.part = p && e.2.alloc && e.2.charge = ch

/-- Cells of a share (R247, R250): the local share of a partition (without MEM's answer reserve), that reserve, or INJ. -/
def State.shareSize (s : State) (p ch : Nat) : Nat :=
  match ch with
  | 0 => if p = 0 then 0 else s.partSize p - s.linkShare p - (if p = 1 then 1024 else 0)
  | 1 => 1024
  | 2 => s.get poolPart_INJ * 16
  | _ => s.partSize p

/-- The level that an occupancy gives, from the level it has (R249): a level is cleared when the occupancy falls 3.125 %
below its threshold. In units of 1/32 of the size: 24, 28 and 30.4. -/
def nextLevel (cur occ size : Nat) : Nat :=
  let up := fun (k n : Nat) => decide (n * size ≤ occ * 1000) || (decide (k ≤ cur) && decide (n * size ≤ occ * 1000 + size * 31250 / 1000))
  if up 3 950 then 3 else if up 2 875 then 2 else if up 1 750 then 1 else 0

/-- Whether local injection and credit returns of a class wait (R249). -/
def State.withheld (s : State) (cls : Nat) : Bool :=
  let l := s.get (poolOcc_LEVEL (classPart cls))
  (classPart cls = 1 || classPart cls = 2) && ((3 ≤ cls && 3 ≤ l) || (4 ≤ cls && 2 ≤ l))

/-- Whether the state of a link permits credits of a class (R193, R198): C0 from BISQUE on, every class in GLOST. -/
def State.permits (s : State) (i cls : Nat) : Bool :=
  let st := s.get (lnkStatus_STATE i)
  st = 8 || (cls = 0 && 5 ≤ st && st ≤ 9)

/-- Returns the credits owed on a link that its state and the pool's levels permit (R193, R249; log entry 30). -/
def State.flushOwed (s : State) (i : Nat) : State :=
  let l := s.links.get Link.reset i
  let l := (List.range 16).foldl (fun (l : Link) j =>
    if s.permits i (j / 2) && !s.withheld (j / 2) then
      { l with granted := l.granted.modify 0 j (· + l.owed.get 0 j), owed := l.owed.set 0 j 0 }
    else l) l
  { s with links := s.links.set Link.reset i l }

/-- Credits that a freed link cell owes to its sender (R193, R249). -/
def State.oweCell (s : State) (ch : Nat) : State :=
  if 16 ≤ ch then
    { s with links := s.links.modify Link.reset ((ch - 16) / 16) fun l =>
      { l with owed := l.owed.modify 0 ((ch - 16) % 16) (· + 1) } }.flushOwed ((ch - 16) / 16)
  else s

/-- Keeps LEVEL and HWM of a partition (R249, R255); COLL and MGMT reach level 1 at most. Credits withheld at a level are
returned when it clears. -/
def State.poolNote (s : State) (p : Nat) : State :=
  let o := s.occ p
  let lv := s.get (poolOcc_LEVEL p)
  let l := nextLevel lv o (s.partSize p)
  let s := s.put (poolOcc_LEVEL p) (if p = 0 || p = 3 then min l 1 else l)
  let s := if s.get (poolOcc_HWM p) < o then s.put (poolOcc_HWM p) o else s
  if l < lv then (List.range 14).foldl State.flushOwed s else s

/-! ## Allocating and releasing (R244, R245) -/

/-- Withdraws a cell whose tag is uncorrectable (R246): QUAR is set and counted; a free cell counts for partition `p`. A partition
with more than 1/64 of its cells quarantined fences the module (log entry 122). -/
def State.quarantine (s : State) (c p : Nat) : State :=
  let g := s.cell c
  let p := if g.alloc then g.part else p
  let s := { s with
    cells := s.cells.set CellTag.reset c { g with quar := true, part := p }
    tagErr := s.tagErr.set false c false }.bump poolCntQuar_COUNT
  let n := s.cells.countP fun e => e.2.part = p && e.2.quar
  (if s.partSize p < 64 * n then { s with fenceReq := some (3, p) } else s).poolNote p

/-- Reads the tags of cells: one that is uncorrectable is withdrawn. -/
def State.readTags (s : State) (cs : List Nat) (p : Nat) : State :=
  cs.foldl (fun s c => if s.tagErr.get false c then s.quarantine c p else s) s

/-- Reads the tags of the free cells that a search from `lo` passed before it found `hi`. -/
def State.readFree (s : State) (lo hi p : Nat) : State :=
  s.readTags ((s.tagErr.map (·.1)).filter fun c => lo ≤ c && c < hi && !(s.cell c).alloc) p

/-- Whether cells c to c + n - 1 can be allocated: free, not quarantined, and with a tag that reads (R244, R246). -/
def State.runFree (s : State) (c : Nat) : Nat → Bool
  | 0 => true
  | n + 1 => !(s.cell c).alloc && !(s.cell c).quar && !s.tagErr.get false c && s.runFree (c + 1) n

/-- The lowest run of `n` free cells at or above `c` (log entry 18); `fuel` places are tried. -/
def State.findRun (s : State) (c n : Nat) : Nat → Option Nat
  | 0 => none
  | fuel + 1 => if s.runFree c n then some c else s.findRun (c + 1) n fuel

/-- Marks cells as allocated with one reference; the data that is written into them is free of errors. -/
def State.takeCells (s : State) (cs : List Nat) (p owner ch : Nat) : State :=
  { s with
    cells := cs.foldl (fun t c => t.set CellTag.reset c ⟨true, 1, p, owner, false, ch⟩) s.cells
    cellErr := s.cellErr.filter fun e => !cs.contains (e.1 / 32) }.poolNote p

/-- Allocates `n` cells of a partition in consecutive banks outside the plan part (R225, R244); none where the share is
exhausted. -/
def State.alloc (s : State) (n p owner ch : Nat) : Option (List Nat × State) :=
  if ch < 3 && s.shareSize p ch < s.chargeUse p ch + n then none
  else match s.findRun (s.planGroups * 16) n (poolCells - s.planGroups * 16 + 1 - n) with
    | some c => let cs := (List.range n).map (c + ·); some (cs, (s.readFree (s.planGroups * 16) c p).takeCells cs p owner ch)
    | none => none

/-- The cells of group `g` (R154). -/
def groupCells (g : Nat) : List Nat := (List.range 16).map (16 * g + ·)

/-- The lowest free group at or above `g`. -/
def State.findGroup (s : State) (g : Nat) : Nat → Option Nat
  | 0 => none
  | fuel + 1 => if s.runFree (16 * g) 16 then some g else s.findGroup (g + 1) fuel

/-- Allocates a cell group of the plan part for the kiln complex. -/
def State.allocGroup (s : State) : Option (Nat × State) :=
  match s.findGroup 0 s.planGroups with
  | some g => some (g, (s.readFree 0 (16 * g) 0).takeCells (groupCells g) 0 0x131 3)
  | none => none

/-- ADDREF on cells (R244). One refused at 255 references is counted; the requester then copies the data, and here the copy
shares the packet's bytes and holds no reference (false). -/
def State.addRef (s : State) (cs : List Nat) : State × Bool :=
  let s := s.readTags cs 0
  if cs.all fun c => (s.cell c).alloc && (s.cell c).ref < 255 then
    ({ s with cells := cs.foldl (fun t c => t.modify CellTag.reset c fun g => { g with ref := g.ref + 1 }) s.cells }, true)
  else (s.bump poolCntRefovf_COUNT, false)

/-- RELEASE of one cell by a master (R244, R245). A quarantined cell stays occupied, so its credit does not return (R246). -/
def State.release1 (s : State) (mid c : Nat) : State :=
  let s := s.readTags [c] 0
  let g := s.cell c
  if g.alloc then
    if g.ref ≤ 1 then
      let t := { s with cells := s.cells.set CellTag.reset c (if g.quar then { g with alloc := false, ref := 0 } else CellTag.reset) }
      if g.quar then t.poolNote g.part else (t.poolNote g.part).oweCell g.charge
    else { s with cells := s.cells.set CellTag.reset c { g with ref := g.ref - 1 } }
  else
    let s := s.bump poolCntDfree_COUNT
    let s := if s.flag poolDfree_VALID then s
      else (((s.put poolDfree_VALID 1).put poolDfree_MID mid).put poolDfree_OWNER g.owner).put poolDfree_CELL c
    s.logEv 0x0701 mid c (BitVec.ofNat 64 mid) (BitVec.ofNat 64 g.owner)

/-- RELEASE of a list of cells. -/
def State.release (s : State) (mid : Nat) (cs : List Nat) : State := cs.foldl (fun s c => s.release1 mid c) s

/-- Releases a cell group. -/
def State.releaseGroup (s : State) (g : Nat) : State := s.release 0x131 (groupCells g)

/-! ## Cell data -/

/-- Writes bytes into the pool from cell `c`. -/
def State.poolPut (s : State) (c off : Nat) (b : List Byte) : State :=
  { s with poolMem := writeBytes 0 s.poolMem (256 * c + off) b }

/-- Reads `n` bytes of the pool from byte `off` of cell `c`. -/
def State.poolGet (s : State) (c off n : Nat) : List Byte := readBytes 0 s.poolMem (256 * c + off) n

/-- Whether one of some cells holds an uncorrectable word (R246); `cellErr` is keyed by word. -/
def State.cellsBad (s : State) (cs : List Nat) : Bool := s.cellErr.any fun e => cs.contains (e.1 / 32)

/-- A write of the pool from outside (R364): a word that it covers whole is replaced with its check byte; part of an uncorrectable word is
refused (false), and the rest is written. -/
def State.poolWrite (s : State) (off : Nat) (b : List Byte) : State × Bool :=
  let whole := fun (w : Nat) => decide (off ≤ 8 * w) && decide (8 * w + 8 ≤ off + b.length)
  let part := (s.cellErr.map (·.1)).filter fun w => decide (8 * w < off + b.length) && decide (off < 8 * w + 8) && !whole w
  let new := b.zipIdx.map fun x => if part.contains ((off + x.2) / 8) then (readBytes 0 s.poolMem (off + x.2) 1).headD 0 else x.1
  ({ s with
    poolMem := writeBytes 0 s.poolMem off new
    cellErr := s.cellErr.filter fun e => !whole e.1 }, part.isEmpty)

/-- A packet in its cells: the header in the first cell, the payload after it (R225). -/
def State.putPkt (s : State) (cs : List Nat) (p : Pkt) : State :=
  match cs with
  | c :: _ => s.poolPut c 0 (p.header ++ p.payload.take p.carried)
  | [] => s

/-- A packet with the payload that its cells hold now. -/
def State.livePkt (s : State) (p : Pkt) (cs : List Nat) (off : Nat) : Pkt :=
  match cs with
  | c :: _ => { p with payload := s.poolGet c off p.carried }
  | [] => p

/-! ## Packets delivered to a port -/

/-- Takes the first packet of a kind, unless one of its TYPE stands before it. -/
def takeFirst (ok : Pkt → Bool) (pre : List Desc) : List Desc → Option (Desc × List Desc)
  | [] => none
  | d :: t => if ok d.pkt && pre.all (·.pkt.typ ≠ d.pkt.typ) then some (d, pre ++ t) else takeFirst ok (pre ++ [d]) t

/-- The first packet of its TYPE that a port has delivered, where it is of the kind asked for: the units of a port take their packets
apart from each other. -/
def State.takeHead (s : State) (port : Nat) (ok : Pkt → Bool) : Option (Desc × State) :=
  match takeFirst ok [] (s.delivered.get [] port) with
  | some (d, t) => some (d, { s with delivered := s.delivered.set [] port t })
  | none => none

end Sys2Proof.Machine
end

