-- ==== Sys2Proof/Machine/Coll.lean ====
section
/-!
DEFINITION. Machine/Coll.lean: plans and collectives (R117-R146): members, ranges and owners, expected masks (R156), credits
(R173), the numbering and words of contributions (R65-R70, R127, R130), and landing results (R177, R178).
-/
namespace Sys2Proof.Machine

/-! ## Members and axes (R120, R124) -/

/-- The extent of an axis in the topology in force (R256). -/
def State.extent (s : State) (axis : Nat) : Nat :=
  match axis with
  | 0 => s.topo.ex
  | 1 => s.topo.ey
  | _ => s.topo.ez

/-- The coordinate of an axis in the order of the header's DST field (R210). -/
def axisOf (coord axis : Nat) : Nat :=
  match axis with
  | 0 => coord / 512 % 32
  | 1 => coord / 16 % 32
  | _ => coord % 16

/-- A coordinate with one axis replaced. -/
def withAxis (coord axis v : Nat) : Nat :=
  match axis with
  | 0 => v * 512 + coord % 512
  | 1 => coord / 512 * 512 + v * 16 + coord % 16
  | _ => coord / 16 * 16 + v

/-- Phase `k` of a plan. -/
def Plan.ph (p : Plan) (k : Nat) : Phase := p.phases.getD k ⟨0, 0, 0, 0, 0⟩

/-- Phases of a plan (NPH). -/
def Plan.nph (p : Plan) : Nat := p.phases.length

/-- Members of phase `k`. -/
def Plan.n (p : Plan) (k : Nat) : Nat := (p.ph k).nm + 1

/-- The coordinate of member `i` of a phase (R120). -/
def State.memberCoord (s : State) (f : Phase) (i : Nat) : Nat :=
  withAxis s.coord f.axis ((f.base + i * f.step) % s.extent f.axis)

/-- The line index of a coordinate in a phase's line; none where it is not a member (R238). -/
def State.memberOf (s : State) (f : Phase) (coord : Nat) : Option Nat :=
  (List.range (f.nm + 1)).find? fun i => s.memberCoord f i == coord

/-- The plan's account at (cluster, plan register); none while it is not valid. -/
def State.plan (s : State) (cl p : Nat) : Option PlanAcct := s.plans.find (cl * 64 + p)

/-- Updates a valid plan's account. -/
def State.modPlan (s : State) (cl p : Nat) (f : PlanAcct → PlanAcct) : State :=
  match s.plan cl p with
  | some a => { s with plans := s.plans.insert (cl * 64 + p) (f a) }
  | none => s

/-! ## The CHUNK field (R118) -/

/-- A CHUNK field. -/
def chunkOf (cl p1 ph j : Nat) : Nat := cl * 2 ^ 17 + p1 * 2 ^ 16 + ph * 2 ^ 14 + j
/-- CL of a CHUNK field. -/
def ckCl (c : Nat) : Nat := c / 2 ^ 17 % 128
/-- P1 of a CHUNK field. -/
def ckP1 (c : Nat) : Nat := c / 2 ^ 16 % 2
/-- PH of a CHUNK field. -/
def ckPh (c : Nat) : Nat := c / 2 ^ 14 % 4
/-- J of a CHUNK field. -/
def ckJ (c : Nat) : Nat := c % 2 ^ 14

/-! ## Ranges and owners (R124, R126, R130) -/

/-- Whether an instruction reduces (R126). -/
def Fused.reduces : Fused → Bool
  | .mmaRs | .mmaAr | .redAr => true
  | _ => false

/-- The range of phase `k` for this member, (start, size), of `r0` chunks. ROOT gives the whole range to member 0, except to
an all-gather, whose parts are numbered by final-range position in every algorithm (R130). -/
def Plan.range (p : Plan) (root : Bool) (r0 : Nat) : Nat → Nat × Nat
  | 0 => (0, r0)
  | k + 1 =>
    let r := p.range root r0 k
    let i := (p.ph k).idx
    if root then (r.1, if i = 0 then r.2 else 0)
    else
      let q := (r.2 + p.n k - 1) / p.n k
      (r.1 + i * q, min q (r.2 - i * q))

/-- Chunks of a pass. -/
def Coll.count (c : Coll) (p1 : Nat) : Nat := if p1 = 1 then (c.nchunks + 255) / 256 else c.nchunks

/-- Whether ROOT ownership applies. -/
def Coll.rootOwned (c : Coll) (p : Plan) : Bool := p.alg == 2 && c.kind.reduces

/-- The range of a phase of a collective. -/
def Coll.range (c : Coll) (p : Plan) (p1 ph : Nat) : Nat × Nat := p.range (c.rootOwned p) (c.count p1) ph

/-- The line index of the owner of chunk `j` in a phase: R124; the root of a broadcast; the sender of an all-to-all part. -/
def Coll.owner (c : Coll) (p : Plan) (p1 ph j : Nat) : Nat :=
  match c.kind with
  | .bcast => c.root
  | .a2a => j / c.n1
  | _ =>
    if c.rootOwned p then 0
    else
      let r := c.range p p1 ph
      (j - r.1) / ((r.2 + p.n ph - 1) / p.n ph)

/-- Phases in which a collective moves. -/
def Coll.phases (c : Coll) (p : Plan) : Nat :=
  match c.kind with
  | .bcast | .a2a => 1
  | _ => p.nph

/-- This member's final range (R124). -/
def Coll.finalRange (c : Coll) (p : Plan) : Nat × Nat := c.range p 0 p.nph

/-- The position of this member among the final ranges (R124). -/
def Plan.position (p : Plan) : Nat := (List.range p.nph).foldl (fun a k => a * p.n k + (p.ph k).idx) 0

/-- Members of a plan over all phases. -/
def Plan.members (p : Plan) : Nat := (List.range p.nph).foldl (fun a k => a * p.n k) 1

/-! ## Expected masks (R156) -/

/-- The mask of line indices. -/
def maskOf (l : List Nat) : Nat := l.foldl (fun a k => a ||| 2 ^ k) 0

/-- The canonical order of the operands of a context (R163), its own last where it is folded last: the sides below and above
for a LINE owner, otherwise one sequence. -/
def foldSeqs (alg n m o : Nat) : List Nat × List Nat :=
  let up := fun (k : Nat) => List.range (k + 1)
  let down := fun (k : Nat) => ((List.range n).filter (k ≤ ·)).reverse
  match alg with
  | 0 => if m < o then (up m, []) else if m > o then (down m, []) else (up o, down (o + 1))
  | 1 => ((List.range n).map (fun t => (o + 1 + t) % n) |>.take ((m + n - o - 1) % n + 1), [])
  | _ => (down m, [])

/-- EMASK (R156). -/
def emaskOf (alg n m o : Nat) : Nat := let q := foldSeqs alg n m o; maskOf (q.1 ++ q.2)

/-- The member that a complete context goes to and the direction (0 minus, 1 plus); none at the owner (R156). -/
def nextOf (alg n m o : Nat) : Option (Nat × Nat) :=
  if m = o then none
  else match alg with
    | 0 => if m < o then some (m + 1, 1) else some (m - 1, 0)
    | 1 => some ((m + 1) % n, 1)
    | _ => some (m - 1, 0)

/-- The upstream neighbours of a chunk (R156): the side each lies on (0 minus, 1 plus). -/
def upstreamOf (alg n m o : Nat) : List Nat :=
  match alg with
  | 0 => (if m ≤ o && 0 < m then [0] else []) ++ (if o ≤ m && m + 1 < n then [1] else [])
  | 1 => if m ≠ (o + 1) % n then [0] else []
  | _ => if m + 1 < n then [1] else []

/-- The line index of the neighbour on a side. -/
def neighbour (n m side : Nat) : Nat := if side = 0 then (m + n - 1) % n else (m + 1) % n

/-! ## Credits (R172, R173) -/

/-- s of R172. -/
def Plan.sources (p : Plan) : Nat := if p.alg = 0 then 3 else 2

/-- CR of R172; `f` is 2 under FIX. -/
def Plan.cr (p : Plan) (f : Nat) : Nat := p.ctxq / (2 * f * p.sources * p.nph)

/-- f of R172. -/
def PlanAcct.f (a : PlanAcct) : Nat := if a.fix then 2 else 1

/-- The credit part of CTXQ. -/
def PlanAcct.creditPart (a : PlanAcct) : Nat := a.plan.cr a.f * a.f * a.plan.sources * a.plan.nph

/-- Credits available on a counter: phase * 4 + direction (0 minus, 1 plus, 2 local). -/
def PlanAcct.credits (a : PlanAcct) (k : Nat) : Nat := a.plan.cr a.f + a.ret.get 0 k - a.spent.get 0 k

/-- Spends one credit. -/
def State.spend (s : State) (cl p k : Nat) : State :=
  s.modPlan cl p fun a => { a with spent := a.spent.modify 0 k (· + 1) }

/-- Returns a local credit. -/
def State.returnLocal (s : State) (cl p ph : Nat) : State :=
  s.modPlan cl p fun a => { a with ret := a.ret.modify 0 (ph * 4 + 2) (· + 1) }

/-! ## Collectives in flight -/

/-- The collective of a cluster with an ID that is in flight. -/
def State.coll (s : State) (cl id : Nat) : Option Coll := s.colls.find? fun c => c.cl == cl && c.id == id

/-- Updates a collective in flight. -/
def State.modColl (s : State) (cl id : Nat) (f : Coll → Coll) : State :=
  { s with colls := s.colls.map fun c => if c.cl == cl && c.id == id then f c else c }

/-- ORs flags into what the second completion record will carry (R140). -/
def State.collFlags (s : State) (cl id fl : Nat) : State := s.modColl cl id fun c => { c with exc := c.exc ||| fl }

/-- Class and opcode of a fused instruction (R129). -/
def Fused.code : Fused → Nat × Nat
  | .mmaRs => (3, 5)
  | .mmaAr => (3, 6)
  | .redAr => (2, 0x40)
  | .ag => (4, 8)
  | .bcast => (5, 2)
  | .a2a => (5, 3)

/-! ## Words (R65-R70, R127-R130) -/

/-- Chunk size in bytes (R119). -/
def Plan.chunkBytes (p : Plan) : Nat := 256 * 2 ^ p.chunk

/-- Elements of a chunk (R127). -/
def Plan.epc (p : Plan) : Nat := p.chunkBytes / (if p.op = 5 then 8 else 4)

/-- The exponent byte of a block of FP32 values (R67). -/
def blockExp (l : List Nat) : Nat :=
  l.foldl (fun b w =>
    match decodeNum 1 w with
    | .fin _ m e => if b = 255 || m = 0 then b else max b (max (flog2 m e + 127) 1).toNat
    | _ => 255) 0

/-- The word of an element on the grid of exponent byte `e` with headroom `h` (R67); `blk` is the element's own block. -/
def bfxWord (h e : Nat) (blk : List Nat) (w : Nat) : Nat :=
  if e = 255 then
    let p := blk.any fun x => match decodeNum 1 x with | .nan _ => true | .inf n => !n | _ => false
    let m := blk.any fun x => match decodeNum 1 x with | .nan _ => true | .inf n => n | _ => false
    (if p then 65536 else 0) + (if m then 1 else 0)
  else if e = 0 then 0
  else match decodeNum 1 w with
    | .fin n m x =>
      let lim := 2 ^ (31 - h) - 1
      let r := min (roundGrid .rne m x ((e : Int) + h - 157)).1 lim
      ofSigned 32 (if n then -(r : Int) else r)
    | _ => 0

/-- The count word of an element (R128): 1 unless it is zero. -/
def countWord (isInt : Bool) (w : Nat) : Nat := if (if isInt then w else w % 2 ^ 31) = 0 then 0 else 1

/-- Blocks of 64 elements (R65). -/
def blocksOf (l : List Nat) : Nat → List (List Nat)
  | 0 => []
  | fuel + 1 => if l.isEmpty then [] else l.take 64 :: blocksOf (l.drop 64) fuel

/-- Whether chunk `j` can be made: in BFX mode the agreed bytes of its blocks have arrived (R139). -/
def Coll.ready (c : Coll) (p : Plan) (j : Nat) : Bool :=
  !p.bfx || (List.range p.epc).all fun t =>
    let e := j * p.epc + t
    c.vals.length ≤ e || (c.agreed.find (e / 64)).isSome

/-- Blocks of a pass-1 chunk (R139). -/
def Plan.bpc (p : Plan) : Nat := 256 * p.epc / 64

/-- The bytes of this member's contribution to chunk `j` of a pass (R67, R127, R130). -/
def Coll.words (c : Coll) (p : Plan) (p1 j : Nat) : List Byte :=
  if p1 = 1 then ((c.exps.drop (j * p.bpc)).take p.bpc).map (BitVec.ofNat 8 ·)
  else
    let es := ((c.vals.drop (j * p.epc)).take p.epc).zipIdx (j * p.epc)
    es.flatMap fun x =>
      let w := if p.bfx then bfxWord p.h (c.agreed.get 0 (x.2 / 64)) ((c.vals.drop (x.2 / 64 * 64)).take 64) x.1 else x.1
      bytesLE 4 w ++ (if p.op = 5 then bytesLE 4 (countWord c.isInt x.1) else [])

/-- The FMT of a contribution's words: INT32, FP32, or the BFX word and exponent byte (R39). -/
def Coll.wordFmt (c : Coll) (p : Plan) (p1 : Nat) : Nat := if p1 = 1 || p.bfx then 14 else if c.isInt then 10 else 1

/-- 32-bit words of a byte string. -/
def words32 (b : List Byte) : Nat → List Nat
  | 0 => []
  | fuel + 1 => if b.isEmpty then [] else natLE (b.take 4) :: words32 (b.drop 4) fuel

/-- The kiln adder on one word (R70, R128, R153): the result and whether a BFX word saturated. `cnt` marks a count word. -/
def wordAdd (op fmt : Nat) (cnt : Bool) (x y : Nat) : Nat × Bool :=
  let a := toSigned 32 x
  let b := toSigned 32 y
  if cnt then ((x + y) % 2 ^ 32, false)
  else match op with
    | 1 | 2 =>
      if fmt = 1 then ((((nMinMax (op == 1) false (decodeNum 1 x) (decodeNum 1 y))).into 1 .rne false).code, false)
      else (if (a < b) = (op = 1) then y else x, false)
    | 3 => (x &&& y, false)
    | 4 => (x ||| y, false)
    | _ =>
      if fmt = 1 then (((nAdd (decodeNum 1 x) (decodeNum 1 y)).into 1 .rne false).code, false)
      else if fmt = 14 then
        (if 2 ^ 31 ≤ a + b then (0x7FFFFFFF, true) else if a + b < -(2 ^ 31) then (0x80000000, true) else (ofSigned 32 (a + b), false))
      else ((x + y) % 2 ^ 32, false)

/-- The fold of two operands (R153): the result and the number of saturated words. -/
def foldBytes (p1 op fmt : Nat) (x y : List Byte) : List Byte × Nat :=
  if p1 = 1 then ((x.zip y).map fun z => if z.1.toNat < z.2.toNat then z.2 else z.1, 0)
  else
    let r := (((words32 x x.length).zip (words32 y y.length)).zipIdx).map fun z =>
      wordAdd op fmt (op == 5 && z.2 % 2 == 1) z.1.1 z.1.2
    (r.flatMap fun z => bytesLE 4 z.1, r.countP (·.2))

/-! ## Final conversion (R69, R127, R128) -/

/-- The conversion of a BFX total with agreed byte `e` (R69). -/
def bfxFinal (f h e : Nat) (sat : Bool) (w : Nat) : CRes :=
  if e = 255 then
    let hi := decide (0 < w / 65536)
    let lo := decide (0 < w % 65536)
    if hi && lo then (ARes.invalid 1).into f .rne sat
    else if hi then (ARes.ok (.inf false)).into f .rne sat
    else if lo then (ARes.ok (.inf true)).into f .rne sat
    else ⟨((ARes.ok (.nan false)).into f .rne sat).code, 0, none⟩
  else if e = 0 || w = 0 then (ARes.ok ExNum.zero).into f .rne sat
  else (ARes.ok (ExNum.mk' (toSigned 32 w) ((e : Int) + h - 157) false)).into f .rne sat

/-- The conversion of one final word (R55, R69, R127). -/
def Coll.finalWord (c : Coll) (p : Plan) (elem w : Nat) : CRes :=
  if p.bfx then bfxFinal c.fmt p.h (c.agreed.get 0 (elem / 64)) c.issue.sat w
  else
    let r : Rnd := if c.rnd = 1 then .rz else .rne
    if c.isInt then intoFmt true c.fmt r c.issue.sat (.ok (ExNum.ofInt (toSigned 32 w)))
    else (ARes.ok (decodeNum 1 w)).into c.fmt r c.issue.sat

/-- Packs element codes of `w` bits into bytes (R40). -/
def packBits (w : Nat) (codes : List Nat) : List Byte :=
  bytesLE ((codes.length * w + 7) / 8) (codes.reverse.foldl (fun a c => a * 2 ^ w + c % 2 ^ w) 0)

/-- The words at every second place from `k`: value words (0) or count words (1). -/
def everySecond : List Nat → List Nat × List Nat
  | x :: y :: t => let r := everySecond t; (x :: r.1, y :: r.2)
  | l => (l, [])

/-- A final chunk converted once into FMTD (R127): the packed elements, then INT32 counts (log entry 29), and its flags. A
pass-1 chunk is its bytes. -/
def Coll.convertChunk (c : Coll) (p : Plan) (p1 j : Nat) (b : List Byte) : List Byte × Nat :=
  if p1 = 1 then (b, 0)
  else
    let ws := words32 b b.length
    let vs := if p.op = 5 then everySecond ws else (ws, [])
    let rs := (vs.1.zipIdx (j * p.epc)).map fun x => c.finalWord p x.2 x.1
    (packBits (fmtBits c.fmt) (rs.map (·.code)) ++ vs.2.flatMap (fun n => bytesLE 4 n), rs.foldl (fun f r => f ||| r.fl) 0)

/-! ## Output tiles (R104, R130) -/

/-- The (row, column) of element `e` of an M x N output in output-tile order. -/
def tileElem (m n e : Nat) : Nat × Nat :=
  let r := e / (32 * n)
  let h := min 32 (m - 32 * r)
  let x := e - r * 32 * n
  let t := x / (h * 32)
  let y := x - t * h * 32
  let w := min 32 (n - 32 * t)
  (32 * r + y / w, 32 * t + y % w)

/-! ## Landing (R130, R177, R178) -/

/-- A piece of a landing: an address in bits, a width and a value. -/
structure BitPiece where
  at_ : Nat
  wid : Nat
  val : Nat
  deriving DecidableEq, Repr

/-- The address in bits of the element with row-major index `l` of a tensor. -/
def TD.bitAddr (t : TD) (l : Nat) : Nat :=
  let i := t.index l
  let p := t.place i.1 i.2.1
  8 * t.lineAddr i.2.2 p.1 + p.2 * fmtBits t.fmt

/-- The row-major index in Td of element `e` of the collective's order: tile order for an MX all-reduce; for a
reduce-scatter, counted from the start of the final range; lane order for VX.RED.AR (log entry 28). -/
def Coll.elemIndex (c : Coll) (p : Plan) (e : Nat) : Nat :=
  match c.kind with
  | .mmaAr => let k := tileElem c.part c.n1 e; k.1 * c.n1 + k.2
  | .mmaRs => e - (c.finalRange p).1 * p.epc
  | _ => e

/-- The byte offset in Td of chunk `j` of a gather (R130). -/
def Coll.byteOff (c : Coll) (p : Plan) (j : Nat) : Nat :=
  match c.kind with
  | .bcast => j * p.chunkBytes
  | _ => j / c.n1 * c.part + j % c.n1 * p.chunkBytes

/-- The pieces of `data` at byte offset `off` of the packed row-major elements of a tensor. -/
def streamPieces (t : TD) (off : Nat) (data : List Byte) : List BitPiece :=
  let w := fmtBits t.fmt
  let lo := 8 * off
  let hi := lo + 8 * data.length
  let v := natLE data
  (List.range ((hi + w - 1) / w - lo / w)).filterMap fun k =>
    let l := lo / w + k
    let a := max (l * w) lo
    let b := min (l * w + w) hi
    if l < t.count && a < b then some ⟨t.bitAddr l + (a - l * w), b - a, v / 2 ^ (a - lo) % 2 ^ (b - a)⟩ else none

/-- Elements of chunk `j` of a reduction. -/
def Coll.elems (c : Coll) (p : Plan) (j : Nat) : Nat := min p.epc (c.vals.length - j * p.epc)

/-- The codes and counts that a converted chunk carries. -/
def Coll.codesOf (c : Coll) (p : Plan) (j : Nat) (data : List Byte) : List Nat × List Nat :=
  let n := c.elems p j
  let w := fmtBits c.fmt
  let nb := (n * w + 7) / 8
  let v := natLE (data.take nb)
  ((List.range n).map fun k => v / 2 ^ (k * w) % 2 ^ w, words32 (data.drop nb) (data.length - nb))

/-- The pieces that a chunk writes to a tensor destination and its count tensor. -/
def Coll.pieces (c : Coll) (p : Plan) (j : Nat) (data : List Byte) (td tc : TD) : List BitPiece :=
  if c.kind.reduces then
    let x := c.codesOf p j data
    let idx := fun (k : Nat) => c.elemIndex p (j * p.epc + k)
    (x.1.zipIdx.map fun y => ⟨td.bitAddr (idx y.2), fmtBits td.fmt, y.1⟩) ++
      (x.2.zipIdx.map fun y => ⟨tc.bitAddr (idx y.2), 32, y.1⟩)
  else streamPieces td (c.byteOff p j) data

/-- Pieces as bytes: (mask, value) by address. -/
def pieceBytes (l : List BitPiece) : Tab (Nat × Nat) :=
  l.foldl (fun t x =>
    let sh := x.at_ % 8
    let nb := (sh + x.wid + 7) / 8
    let m := (2 ^ x.wid - 1) * 2 ^ sh
    let v := x.val * 2 ^ sh
    (List.range nb).foldl (fun t k =>
      let a := x.at_ / 8 + k
      let o := (t.find a).getD (0, 0)
      let mk := m / 256 ^ k % 256
      t.insert a (o.1 ||| mk, (o.2 &&& (255 - mk)) ||| (v / 256 ^ k % 256))) t) []

/-- Runs of consecutive bytes, within 4 KiB blocks. -/
def byteRuns : List (Nat × Byte) → List (Nat × List Byte)
  | [] => []
  | (a, b) :: t =>
    match byteRuns t with
    | (a', l) :: r => if a' = a + 1 && a' % 4096 ≠ 0 then (a, b :: l) :: r else (a, [b]) :: (a', l) :: r
    | [] => [(a, [b])]

/-- Writes pieces through master 0x131 (R177): the response, and the addresses of the runs written. A byte written in part is
merged with what the target holds. -/
def State.landPieces (s : State) (l : List BitPiece) : State × Nat × Nat × List (Nat × Nat) :=
  let bytes := (pieceBytes l).map fun x =>
    if x.2.1 = 255 then (x.1, BitVec.ofNat 8 x.2.2)
    else (x.1, BitVec.ofNat 8 (((s.rawRead 0x131 x.1 1).2.2.headD 0).toNat &&& (255 - x.2.1) ||| x.2.2))
  (byteRuns bytes).foldl (fun (a : State × Nat × Nat × List (Nat × Nat)) r =>
    if a.2.1 = rOK then
      let w := a.1.memWrite 0x131 r.1 r.2
      if w.2.1 = rOK then (w.1, rOK, 0, a.2.2.2 ++ [(r.1, r.1 + r.2.length)]) else (w.1, w.2.1, w.2.2, a.2.2.2)
    else a) (s, rOK, 0, [])

/-- The blocks of the gradient landing region that runs write to (R178). -/
def State.touchBlocks (s : State) (runs : List (Nat × Nat)) : List Nat :=
  if s.flag klnTouchCtrl_EN then
    let lo := s.get klnLandBase_BASE
    let n := s.get klnLandSize_BLOCKS
    (runs.flatMap fun r =>
      if r.2 ≤ r.1 then []
      else ((List.range ((r.2 - 1) / 4096 - r.1 / 4096 + 1)).map (r.1 / 4096 + ·)).filterMap fun b =>
        if lo ≤ b && b < lo + n then some (b - lo) else none).eraseDups
  else []

/-- Sets touch bits by atomic ORs of the words that hold them (R178): the response. -/
def State.touch (s : State) (blocks : List Nat) : State × Nat :=
  blocks.foldl (fun (a : State × Nat) b =>
    if a.2 = rOK then a.1.memOr 0x131 (a.1.get klnTouchBase_BASE * 4096 + b / 64 * 8) (1#64 <<< (b % 64)) else a) (s, rOK)

/-- Whether the landing region or the bitmap lies outside HBM, so that a landing in the region ends as in R171 (R182). -/
def State.landBaseBad (s : State) : Bool := 0x8000000 ≤ s.get klnLandBase_BASE || 0x8000000 ≤ s.get klnTouchBase_BASE

/-- Elements of a V register destination with a chunk's elements in place. -/
def vLand (v : BitVec 8192) (w e0 : Nat) (codes : List Nat) : BitVec 8192 :=
  (codes.zipIdx).foldl (fun v x =>
    let sh := (e0 + x.2) * w
    (v &&& ~~~(BitVec.ofNat 8192 (2 ^ w - 1) <<< sh)) ||| (BitVec.ofNat 8192 (x.1 % 2 ^ w) <<< sh)) v

/-- Lands a chunk's data at this member (R130, R132, R177): the response of the writes, the address refused, and the blocks of
the landing region written. -/
def State.landChunk (s : State) (c : Coll) (p : Plan) (j : Nat) (data : List Byte) : State × Nat × Nat × List Nat :=
  match c.dst with
  | .none => (s, rOK, 0, [])
  | .vreg n =>
    let x := c.codesOf p j data
    let t := s.setV c.cl n (vLand (s.vReg c.cl n) (fmtBits c.fmt) (j * p.epc) x.1)
    (if p.op = 5 then t.setV c.cl (n + 1) (vLand (t.vReg c.cl (n + 1)) 32 (j * p.epc) x.2) else t, rOK, 0, [])
  | .tensor td tc =>
    let r := s.landPieces (c.pieces p j data (TD.of td) (TD.of tc))
    let bs := r.1.touchBlocks r.2.2.2
    if r.2.1 = rOK && !bs.isEmpty && r.1.landBaseBad then (r.1, rDECERR, 0, [])
    else (r.1, r.2.1, r.2.2.1, bs)

/-- The digest fold of what landed (R81, R129): every element of the destination that this member received, in one go when the
collective completes. -/
def State.collDigest (s : State) (c : Coll) (p : Plan) : State :=
  if denOf c.issue && !c.landed.isEmpty then
    let slot := bitsOf c.issue.ext 51 6
    let base := bitsOf c.issue.ext 0 32
    let seed := s.rd digSeed
    let w := fmtBits c.fmt
    let items : List (Nat × Nat) :=
      if c.kind.reduces then
        c.landed.flatMap fun x => (c.codesOf p x.1 x.2).1.zipIdx.map fun y => (c.elemIndex p (x.1 * p.epc + y.2), y.1)
      else
        let n := match c.dst with | .tensor td _ => (TD.of td).count | _ => 0
        let m := c.landed.foldl (fun m x => writeBytes 0 m (c.byteOff p x.1) x.2) ([] : List Host.Cell)
        let v := natLE (readBytes 0 m 0 ((n * w + 7) / 8))
        (List.range n).map fun k => (k, v / 2 ^ (k * w) % 2 ^ w)
    let fold := fun (d : DigSlot) => items.foldl (fun d x => d.fold seed (base + x.1) x.2 c.fmt) d
    s.modCl c.cl fun k => { k with digs := k.digs.modify DigSlot.reset slot fold }
  else s

end Sys2Proof.Machine
end

