-- ==== Sys2Proof/Machine/Kiln.lean ====
section
/-!
DEFINITION. Machine/Kiln.lean: the kiln complex (R152-R180): stream contexts and watch entries, matching operands, folding in
arrival or canonical order, finalising, gathering, repair and completion.
-/
namespace Sys2Proof.Machine

/-! ## Timers -/

/-- ARR in ns (R166, R182). -/
def State.arr (s : State) : Nat := (if s.get klnTimer_ARR = 0 then 100 else s.get klnTimer_ARR) * 20000

/-- RES_HOLD in ns (R166, R182). -/
def State.resHold (s : State) : Nat := (if s.get klnTimer_RES_HOLD = 0 then 400 else s.get klnTimer_RES_HOLD) * 20000

/-- AGE_LIMIT in ns (R239). -/
def State.ageLimit (s : State) : Nat := (if s.get fabAgeLimit_LIMIT = 0 then 50000 else s.get fabAgeLimit_LIMIT) * 1000

/-- Cone count bits [29:6] of a time. -/
def cone24 (t : Nat) : Nat := t / 64 % 2 ^ 24

/-- Whether an AGE is earlier than a time: R170's comparison. -/
def ageBefore (age t : Nat) : Bool :=
  let d := (cone24 t + 2 ^ 24 - age) % 2 ^ 24
  d != 0 && decide (d < 2 ^ 23)

/-! ## Entries (R154, R155) -/

/-- The primary accumulating context of a chunk; an entry whose tag is lost is not found (R171). -/
def State.findAcc (s : State) (coll chunk : Nat) : Option (Nat × Ctx) :=
  s.ctx.findSome? fun e => match e.2 with
    | .acc c => if c.coll = coll && c.chunk = chunk && !c.comp && !s.ctxErr.get false e.1 then some (e.1, c) else none
    | .watch _ => none

/-- The accumulating context at an index. -/
def State.accAt (s : State) (i : Nat) : Option Ctx :=
  match s.ctx.find i with
  | some (.acc c) => some c
  | _ => none

/-- The watch entry that covers a chunk. -/
def State.findWatch (s : State) (coll chunk : Nat) : Option (Nat × Watch) :=
  s.ctx.findSome? fun e => match e.2 with
    | .watch w => if w.coll = coll && w.chunk = chunk - chunk % 64 && !s.ctxErr.get false e.1 then some (e.1, w) else none
    | .acc _ => none

/-- Writes an accumulating context. -/
def State.setAcc (s : State) (i : Nat) (c : Ctx) : State := { s with ctx := s.ctx.insert i (.acc c) }

/-- Writes a watch entry. -/
def State.setWatch (s : State) (i : Nat) (w : Watch) : State := { s with ctx := s.ctx.insert i (.watch w) }

/-- Frees an entry and its group; its companion goes with it. -/
def State.freeAcc (s : State) (i : Nat) : State :=
  match s.accAt i with
  | some c =>
    let s := { s with ctx := s.ctx.erase i }.releaseGroup c.group
    (match c.link with
      | some k => (match s.accAt k with
        | some d => { s with ctx := s.ctx.erase k }.releaseGroup d.group
        | none => s)
      | none => s)
  | none => s

/-- Accumulating entries of a plan. -/
def State.accCount (s : State) (cl p : Nat) : Nat :=
  s.ctx.countP fun e => match e.2 with
    | .acc c => ckCl c.chunk = cl && c.coll / 64 = p
    | .watch _ => false

/-- Watch entries of a plan. -/
def State.watchCount (s : State) (cl p : Nat) : Nat :=
  s.ctx.countP fun e => match e.2 with
    | .watch w => ckCl w.chunk = cl && w.coll / 64 = p
    | .acc _ => false

/-- The oldest HELD context of a plan. -/
def State.oldestHeld (s : State) (cl p : Nat) : Option Nat :=
  (s.ctx.foldl (fun (b : Option (Nat × Nat)) e => match e.2 with
    | .acc c =>
      if c.st = .held && ckCl c.chunk = cl && c.coll / 64 = p then
        (match b with
          | some x => if c.heldAt < x.2 then some (e.1, c.heldAt) else b
          | none => some (e.1, c.heldAt))
      else b
    | .watch _ => b) none).map (·.1)

/-- Makes room for `need` entries of a plan, releasing its oldest HELD contexts (R176); none where it cannot. -/
def State.makeRoom (s : State) (cl p need : Nat) (a : PlanAcct) : Nat → Option State
  | 0 => none
  | fuel + 1 =>
    if s.accCount cl p + need ≤ a.creditPart then some s
    else match s.oldestHeld cl p with
      | some i => ((s.freeAcc i).bump klnCntEvict_COUNT).makeRoom cl p need a fuel
      | none => none

/-- The lowest free entry (log entry 18). -/
def State.freeEntry (s : State) : Option Nat := s.ctx.firstFree 0 1048576

/-- A new context of a plan in entry and group of its own; none where no room is left. -/
def State.newAcc (s : State) (cl p : Nat) (a : PlanAcct) (need : Nat) (f : Nat → Ctx) : Option (Nat × State) :=
  match s.makeRoom cl p need a (s.ctx.length + 1) with
  | some s => (match s.freeEntry, s.allocGroup with
    | some i, some (g, t) => some (i, t.setAcc i (f g))
    | _, _ => none)
  | none => none

/-- The bytes of a context's partial sum or result. -/
def State.accData (s : State) (c : Ctx) : List Byte := s.poolGet (16 * c.group) 0 c.len

/-- Writes them. -/
def State.putAcc (s : State) (c : Ctx) (b : List Byte) : State := s.poolPut (16 * c.group) 0 b

/-! ## Sending (R157, R210, R265) -/

/-- A packet of the reduction family: word 2 as R157 has it. -/
def collPkt (typ : BitVec 6) (dst coll chunk fmt op mask flow low : Nat) (payload : List Byte) : Pkt :=
  mkPkt typ 2 dst 0 true (mkW1 coll chunk payload.length fmt op)
    (BitVec.ofNat 64 (mask % 2 ^ 32 * 2 ^ 32 + flow % 2 ^ 16 * 2 ^ 16 + low % 2 ^ 16)) payload

/-- CMASK of word 2. -/
def Pkt.cmask (p : Pkt) : Nat := bitsOf p.w2 32 32
/-- LATE of word 2. -/
def Pkt.late (p : Pkt) : Nat := bitsOf p.w2 11 5

/-- Queues a packet of the kiln complex on port 18. -/
def State.kilnSend (s : State) (p : Pkt) (group : Option Nat) (age : Option Nat) : State :=
  s.inject 130 ⟨(match age with | some a => { p with age := BitVec.ofNat 24 a } | none => p), false, age.isSome, none, group, false⟩

/-- Queues a packet of a cluster's fabric interface: FLOW names the cluster and the plan register (R265). -/
def State.fiSend (s : State) (cl : Nat) (p : Pkt) (age : Option Nat) : State :=
  s.inject cl ⟨(match age with | some a => { p with age := BitVec.ofNat 24 a } | none => p), false, age.isSome, none, none, false⟩

/-- FLOW of a collective packet of a cluster. -/
def fiFlow (cl plan : Nat) : Nat := plan * 1024 + cl

/-- The span of a multicast by a member over its line (R237): both ways, or plus only. -/
def Plan.span (p : Plan) (ph : Nat) (both : Bool) : Nat :=
  let f := p.ph ph
  let plus := if both then (f.nm - f.idx) * f.step else f.nm * f.step
  let minus := if both then f.idx * f.step else 0
  f.axis * 2 ^ 14 + minus % 32 * 32 + plus % 32

/-- Whether results go both ways along the line: LINE; and ROOT for a broadcast or an all-gather, whose sender need not be
member 0 (R125, R126). -/
def Plan.bothWays (p : Plan) (reduces : Bool) : Bool := p.alg = 0 || (p.alg = 2 && !reduces)

/-- Multicasts a result or a finality DONE of a chunk (R161, R237); a member alone on its line sends nothing. -/
def State.multicast (s : State) (p : Plan) (coll chunk fmt : Nat) (isDone reduces : Bool) (data : List Byte)
    (group : Option Nat) : State :=
  let ph := ckPh chunk
  let sp := p.span ph (p.bothWays reduces)
  if sp % 1024 = 0 then s
  else
    let pk := collPkt (if isDone then tDONE else tREDRES) s.coord coll chunk fmt p.op (2 ^ p.n ph - 1) 0x131 sp
      (if isDone then [] else data)
    match group with
    | some g =>
      let r := s.addRef (groupCells g)
      r.1.kilnSend pk (if r.2 && !isDone then some g else none) none
    | none => s.kilnSend pk none none

/-! ## Watch bits (R162, R169) -/

/-- Sets FWD or RES of a chunk; a change rearms the DEADLINE while RES bits are missing. -/
def State.setBit (s : State) (coll chunk : Nat) (fwd res : Bool) : State :=
  match s.findWatch coll chunk with
  | some (i, w) =>
    let b : BitVec 64 := 1#64 <<< (chunk % 64)
    let v := { w with fwd := if fwd then w.fwd ||| b else w.fwd, res := if res then w.res ||| b else w.res }
    if v = w then s
    else s.setWatch i (if v.res = BitVec.allOnes 64 then v else { v with deadline := s.now + s.arr })
  | none => s

/-- Whether a chunk's FWD (0) or RES (1) bit is set. -/
def State.watchBit (s : State) (coll chunk : Nat) (res : Bool) : Bool :=
  match s.findWatch coll chunk with
  | some (_, w) => (if res then w.res else w.fwd).getLsbD (chunk % 64)
  | none => false

/-! ## Waits on collectives (R136, R145) -/

/-- FX.WAIT on handle `h`. -/
def fxWaitExe (n h : Nat) (s : State) : Exe :=
  if 0xFFF < h || (s.plan n (h / 64)).isNone then .raise s (Exc.plain xHANDLE)
  else match s.coll n h with
    | none => .ok s
    | some c => (match c.excOf with
      | some x => .raise s x
      | none => .wait s (.fxWait h))

/-- FX.FENCE. -/
def fxFenceExe (n : Nat) (s : State) : Exe :=
  match s.badColl n with
  | some x => .raise s x
  | none => if s.colls.any (·.cl == n) then .wait s .fxFence else .ok s

/-- Re-evaluates a wait of a cluster after a collective has completed, failed or stalled. -/
def State.wakeColl (s : State) (n : Nat) : State :=
  match (s.cl n).wait with
  | some w => (match w.kind with
    | .fxWait h => s.rewait n w (fxWaitExe n h s)
    | .fxFence => s.rewait n w (fxFenceExe n s)
    | .halt => s.rewait n w (haltExe n s)
    | _ => s)
  | none => s

/-! ## Completion (R140, R162, R170) -/

/-- Releases what a collective holds (R131, R140): sets become EMPTY. -/
def State.releaseSrc (s : State) (c : Coll) : State :=
  match c.src with
  | .acc a0 b => (List.range b).foldl (fun s k => s.setA c.cl (a0 + k) AccSet.reset) s
  | _ => s

/-- Whether every RES bit of a collective's watch entries is set. -/
def State.settled (s : State) (cl id : Nat) : Bool :=
  s.ctx.all fun e => match e.2 with
    | .watch w => !(w.coll = id && ckCl w.chunk = cl) || w.res = BitVec.allOnes 64
    | .acc _ => true

/-- Removes a collective's watch entries. -/
def State.dropWatch (s : State) (cl id : Nat) : State :=
  { s with ctx := s.ctx.filter fun e => match e.2 with
    | .watch w => !(w.coll = id && ckCl w.chunk = cl)
    | .acc _ => true }

/-- The second completion record of a collective (R140, R146). -/
def State.collRecord (s : State) (c : Coll) (status : Nat) : State :=
  let k := c.kind.code
  s.record c.cl c.exc status k.1 k.2 c.seq c.pc c.id

/-- A collective completes once every RES bit is set (R140, R162). -/
def State.complete (s : State) (cl id : Nat) : State :=
  match s.coll cl id, s.plan cl (id / 64) with
  | some c, some a =>
    if s.settled cl id then
      let s := ((s.dropWatch cl id).collDigest c a.plan).releaseSrc c
      let s := { s with colls := s.colls.filter (fun d => !(d.cl == cl && d.id == id)),
                        idDone := s.idDone.insert (cl * 4096 + id) s.now }
      ((s.collRecord c 0).wakeColl cl).autoState
    else s
  | _, _ => s

/-- A collective fails in a phase (R144, R171). -/
def State.failColl (s : State) (cl id ph : Nat) : State :=
  (s.modColl cl id fun c => if c.fail.isNone then { c with fail := some ph } else c).wakeColl cl

/-- KLN.FAULT and its log record (R171, R182). -/
def State.kilnFault (s : State) (cause coll chunk : Nat) : State :=
  let s := if s.flag klnFault_VALID then s
    else (((s.put klnFault_VALID 1).put klnFault_CAUSE cause).put klnFault_COLL coll).put klnFault_CHUNK chunk
  s.logEv 0x0801 0x131 cause (BitVec.ofNat 64 coll) (BitVec.ofNat 64 chunk)

/-! ## Credits back (R173) -/

/-- Returns the credits of a chunk whose context leaves FINAL, or is freed from FAULT: one to each upstream neighbour and one
to the local counter. -/
def State.returnCredits (s : State) (cl p : Nat) (a : PlanAcct) (ph o : Nat) : State :=
  let f := a.plan.ph ph
  let n := f.nm + 1
  let s := (upstreamOf a.plan.alg n f.idx o).foldl (fun s side =>
    let s := s.modPlan cl p fun a => { a with rcum := a.rcum.modify 0 (ph * 2 + side) (· + 1) }
    let total := match s.plan cl p with | some b => b.rcum.get 0 (ph * 2 + side) | none => 0
    s.kilnSend (collPkt tDONE (s.memberCoord f (neighbour n f.idx side)) (p * 64) (chunkOf cl 0 ph 0) 0 a.plan.op total 0x131
      0x2000 []) none none) s
  s.returnLocal cl p ph

/-! ## Folding (R159, R163-R165, R171, R180) -/

/-- The fold of an operand into a context's own group: it becomes the partial sum where `first`. -/
def State.foldInto (s : State) (i : Nat) (first : Bool) (data : List Byte) : State :=
  match s.accAt i with
  | some c =>
    if first then (s.putAcc c data).setAcc i { c with len := data.length }
    else
      let r := foldBytes (ckP1 c.chunk) c.op c.word (s.accData c) data
      ((s.putAcc c r.1).setAcc i { c with sat := c.sat || r.2 != 0 }).bump klnCntSat_COUNT r.2
  | none => s

/-- The first position of a sequence that is not in a mask. -/
def firstMissing (l : List Nat) (mask : Nat) : Option Nat := l.find? fun k => !mask.testBit k

/-- The parked operand whose turn it is: it holds the first missing member of a side (R165). -/
def Ctx.turn (c : Ctx) (l : List Nat) : Option (Nat × Nat × List Byte) :=
  match firstMissing l c.rmask with
  | some k => c.parked.find? fun x => x.1.testBit k
  | none => none

/-- Folds parked operands in canonical order: the primary's side, then the companion's (R163, R165). -/
def State.drain (s : State) (i : Nat) (q : List Nat × List Nat) : Nat → State
  | 0 => s
  | fuel + 1 =>
    match s.accAt i with
    | some c =>
      (match c.turn q.1 with
        | some x =>
          let s := s.foldInto i (!(q.1.any fun k => c.rmask.testBit k)) x.2.2
          (match s.accAt i with
            | some d => (s.setAcc i { d with rmask := d.rmask ||| x.1, parked := d.parked.erase x }).drain i q fuel
            | none => s)
        | none => (match c.turn q.2, c.link with
          | some x, some k =>
            let s := s.foldInto k (!(q.2.any fun b => c.rmask.testBit b)) x.2.2
            (match s.accAt i, s.accAt k with
              | some d, some e =>
                ((s.setAcc i { d with rmask := d.rmask ||| x.1, parked := d.parked.erase x }).setAcc k
                  { e with rmask := e.rmask ||| x.1 }).drain i q fuel
              | _, _ => s)
          | _, _ => s))
    | none => s

/-- The sequences of a context (R163) once its collective is issued here. -/
def PlanAcct.seqs (a : PlanAcct) (c : Ctx) : List Nat × List Nat :=
  let f := a.plan.ph (ckPh c.chunk)
  foldSeqs a.plan.alg (f.nm + 1) f.idx c.oidx

/-- Whether a context holds every expected operand; it then becomes FINAL and its late member is counted (R159, R164, R180). -/
def State.finalise (s : State) (i : Nat) (a : PlanAcct) : State :=
  match s.accAt i with
  | some c =>
    if c.st = .opened && c.issued && c.rmask = c.emask then
      let s := match c.link with
        | some k => (match s.accAt k with
          | some d => if d.rmask = 0 then s else s.foldInto i ((a.seqs c).1.all fun b => !c.emask.testBit b) (s.accData d)
          | none => s)
        | none => s
      let s := match s.accAt i with
        | some d => s.setAcc i { d with st := .final }
        | none => s
      let s := if 2 ≤ c.nops then s.modPlan (ckCl c.chunk) (c.coll / 64) fun a =>
          { a with late := a.late.modify (0, 0) (ckPh c.chunk * 32 + c.last) fun x => (x.1 + 1, x.2 + c.lag) } else s
      if c.ndet then ((s.bump klnNdet_COUNT).bump (digNdet_COUNT 0)).bump digNdetCount_COUNT else s
    else s
  | none => s

/-- An operand without a check mismatch reaches a context in OPEN (R159): duplicates and overlaps are dropped by the masks. -/
def State.operand (s : State) (i : Nat) (a : PlanAcct) (mask late : Nat) (data : List Byte) : State :=
  match s.accAt i with
  | some c =>
    let got := c.parked.foldl (fun m x => m ||| x.1) c.rmask
    if c.st ≠ .opened then s.bump klnCntDup_COUNT
    else if mask &&& got ≠ 0 then (if mask &&& got = mask then s.bump klnCntDup_COUNT else s.bump klnCntOverlap_COUNT)
    else
      let lag := if c.nops = 0 then 0 else s.now - c.prevt
      let c' := { c with prevt := s.now, last := late, lag := min lag (2 ^ 30 - 1), nops := min (c.nops + 1) 31 }
      if c.fix then
        let s := s.setAcc i { c' with parked := c.parked ++ [(mask, late, data)] }
        if c.issued then (s.drain i (a.seqs c) 64).finalise i a else s
      else
        let nd := c.ndet || (3 ≤ c.nops + 1 && c.word = 1 && (c.op = 0 || c.op = 5) && ckP1 c.chunk = 0)
        let s := (s.setAcc i { c' with ndet := nd }).foldInto i (c.rmask = 0) data
        (match s.accAt i with
          | some d => (s.setAcc i { d with rmask := d.rmask ||| mask }).finalise i a
          | none => s)
  | none => s

/-- Whether a plan folds this kind of words in canonical order (R165). -/
def PlanAcct.fixes (a : PlanAcct) (word p1 : Nat) : Bool := a.fix && word = 1 && p1 = 0 && (a.plan.op = 0 || a.plan.op = 5)

/-- EMASK, OWN and OIDX of a context for a collective issued here, and the companion of a fixed-order LINE owner (R159, R165). -/
def State.setGeom (s : State) (i : Nat) (a : PlanAcct) (c : Coll) : State :=
  match s.accAt i with
  | some x =>
    let f := a.plan.ph (ckPh x.chunk)
    let o := c.owner a.plan (ckP1 x.chunk) (ckPh x.chunk) (ckJ x.chunk)
    let y := { x with issued := true, oidx := o, own := o == f.idx, fmt := c.fmt,
                      emask := emaskOf a.plan.alg (f.nm + 1) f.idx o }
    let s := s.setAcc i y
    if x.fix && a.plan.alg = 0 && o = f.idx && x.link.isNone then
      let comp := { y with comp := true, link := some i, rmask := 0, emask := 0, len := 0, nops := 0, parked := [] }
      match s.newAcc (ckCl x.chunk) (x.coll / 64) a 1 (fun g => { comp with group := g }) with
      | some (k, t) => (match t.accAt i with
        | some z => t.setAcc i { z with link := some k }
        | none => t)
      | none => s
    else s
  | none => s

/-- Opens a context for a chunk (R159, FREE to OPEN); none where the plan has no room. -/
def State.openAcc (s : State) (cl p : Nat) (a : PlanAcct) (coll chunk word : Nat) : Option (Nat × State) :=
  let fix := a.fixes word (ckP1 chunk)
  match s.newAcc cl p a 1 (fun g =>
      { st := .opened, fix := fix, own := false, comp := false, hres := false, fmt := 0, op := a.plan.op,
        bfx := a.plan.bfx, coll := coll, chunk := chunk, oidx := 0, link := none, rmask := 0, emask := 0, group := g,
        deadline := s.now + s.arr, repcnt := 0, errcnt := 0, ndet := false, prevt := 0, last := 0, lag := 0, nops := 0, len := 0,
        heldAt := 0, issued := false, parked := [], word := word, sat := false, sent := false }) with
  | some (i, t) => some (i, match t.coll cl coll with
    | some c => t.setGeom i a c
    | none => t)
  | none => none

/-- This member's contribution enters its own kiln: it folds into the context of the chunk or opens one (R159). -/
def State.ownOperand (s : State) (cl p : Nat) (a : PlanAcct) (coll chunk word : Nat) (data : List Byte) : State :=
  let m := (a.plan.ph (ckPh chunk)).idx
  match s.findAcc coll chunk with
  | some (i, _) => s.operand i a (2 ^ m) m data
  | none => (match s.openAcc cl p a coll chunk word with
    | some (i, t) => t.operand i a (2 ^ m) m data
    | none => s)

/-! ## Answering repairs (R167-R169) -/

/-- The held sum of phase p - 1 that answers a contribution request in phase p. -/
def State.heldSum (s : State) (coll chunk : Nat) : Option (List Byte) :=
  if ckPh chunk = 0 then none
  else match s.findAcc coll (chunk - 2 ^ 14) with
    | some (_, c) => if c.st = .held && !c.hres then some (s.accData c) else none
    | none => none

/-- This member's contribution to a chunk from its held source or HELD sum (R168); none where there is neither. -/
def State.heldContribution (s : State) (cl p : Nat) (a : PlanAcct) (coll chunk : Nat) : Option (List Byte) :=
  match s.coll cl coll with
  | some c =>
    if !c.kind.reduces || p ≠ c.plan then none
    else if ckPh chunk = 0 then
      (if ckP1 chunk = 1 || c.ready a.plan (ckJ chunk) then some (c.words a.plan (ckP1 chunk) (ckJ chunk)) else none)
    else s.heldSum coll chunk
  | none => none

/-- The contributors that a repair round asks (R165, R167). -/
def PlanAcct.askFor (a : PlanAcct) (c : Ctx) (full : Bool) : List Nat :=
  let n := a.plan.n (ckPh c.chunk)
  let got := c.parked.foldl (fun m x => m ||| x.1) c.rmask
  let ks := (List.range n).filter fun k => c.emask.testBit k && (full || !got.testBit k)
  if c.fix then
    let q := a.seqs c
    (match firstMissing q.1 got with | some k => [k] | none => []) ++ (match firstMissing q.2 got with | some k => [k] | none => [])
  else ks

/-- Sends a repair round and rearms the DEADLINE (R167); a request for this module's own bit is answered here. -/
def State.repairRound (s : State) (i : Nat) (a : PlanAcct) (full : Bool) : State :=
  match s.accAt i with
  | some c =>
    let ph := ckPh c.chunk
    let f := a.plan.ph ph
    let cl := ckCl c.chunk
    let s := s.setAcc i { c with deadline := s.now + s.arr, repcnt := min (c.repcnt + 1) 7 }
    (a.askFor c full).foldl (fun s k =>
      if k = f.idx then
        match s.heldContribution cl (c.coll / 64) a c.coll c.chunk with
        | some b => s.operand i a (2 ^ k) k b
        | none => s.bump klnCntRepairUnserved_COUNT
      else (s.kilnSend (collPkt tREPAIR (s.memberCoord f k) c.coll c.chunk 0 a.plan.op (2 ^ k) 0x131 0 []) none none).bump
        klnCntRepairTx_COUNT) s
  | none => s

/-- Discards a partial sum (R159, R171). -/
def State.discardSum (s : State) (i : Nat) : State :=
  match s.accAt i with
  | some c =>
    let s := s.setAcc i { c with rmask := 0, parked := [], nops := 0, ndet := false, len := 0 }
    (match c.link with
      | some k => (match s.accAt k with
        | some d => s.setAcc k { d with rmask := 0, len := 0 }
        | none => s)
      | none => s)
  | none => s

/-- A chunk is abandoned (R171): FAULT is reported, the credits return, the entry is freed and the collective fails. -/
def State.abandon (s : State) (i cause : Nat) (a : PlanAcct) : State :=
  match s.accAt i with
  | some c =>
    let cl := ckCl c.chunk
    let s := s.kilnFault cause c.coll c.chunk
    let s := if c.issued then s.returnCredits cl (c.coll / 64) a (ckPh c.chunk) c.oidx else s
    (s.freeAcc i).failColl cl c.coll (ckPh c.chunk)
  | none => s

/-- A fault in an OPEN context (R171): the first discards the partial sum and repairs every bit; the second abandons the chunk.
Three residue mismatches on one kiln within 60 s fence the module. -/
def State.foldFault (s : State) (i : Nat) (a : PlanAcct) (chk : KilnCheck) : State :=
  match s.accAt i with
  | some c =>
    let s := if chk = .residue then
        let k := (Config.kilnOf (BitVec.ofNat 12 c.coll) (BitVec.ofNat 24 c.chunk)).val
        let l := (s.kilnMiss.filter fun x => s.now < x.2 + 60000000000) ++ [(k, s.now)]
        let s := { s with kilnMiss := l }.bump klnCntReschk_COUNT
        if 3 ≤ l.countP (fun x => x.1 = k) then { s with fenceReq := some (2, k) } else s
      else s
    if c.errcnt = 0 then
      let s := s.discardSum i
      (match s.accAt i with
        | some d => (s.setAcc i { d with errcnt := 1 }).repairRound i a true
        | none => s)
    else s.abandon i (if chk = .residue then 0 else 1) a
  | none => s

/-! ## Gather movement (R161, R162) -/

/-- A HELD context keeps a converted result (R161); without room it is not kept. -/
def State.holdResult (s : State) (cl p : Nat) (a : PlanAcct) (coll chunk fmt : Nat) (data : List Byte) : Option Nat × State :=
  let keep := fun (c : Ctx) => { c with st := .held, hres := true, fmt := fmt, len := data.length, heldAt := s.now }
  match s.findAcc coll chunk with
  | some (i, c) => (some c.group, (s.putAcc c data).setAcc i (keep c))
  | none => (match s.openAcc cl p a coll chunk (if ckP1 chunk = 1 then 14 else 1) with
    | some (i, t) => (match t.accAt i with
      | some c => (some c.group, (t.putAcc c data).setAcc i (keep c))
      | none => (none, t))
    | none => (none, s))

/-- The RES bit of a phase is set (R162): the HELD sum of the phase below is released (R176), and a member that owns the chunk
in that phase multicasts the result there, down to phase 0 (R161). -/
def State.settle (s : State) (cl p : Nat) (a : PlanAcct) (c : Coll) (p1 j : Nat) (isDone : Bool) (data : List Byte) : Nat → State
  | 0 => (s.setBit c.id (chunkOf cl p1 0 j) false true).complete cl c.id
  | ph + 1 =>
    let s := s.setBit c.id (chunkOf cl p1 (ph + 1) j) false true
    let low := chunkOf cl p1 ph j
    let s := match s.findAcc c.id low with
      | some (i, x) => if x.st == CtxState.held && !x.hres then s.freeAcc i else s
      | none => s
    if c.owner a.plan p1 ph j = (a.plan.ph ph).idx then
      let h := s.holdResult cl p a c.id low c.fmt data
      (h.2.multicast a.plan c.id low (if p1 = 1 then 14 else c.fmt) isDone c.kind.reduces data h.1).settle cl p a c p1 j isDone data ph
    else s.complete cl c.id

/-- Agreed bytes of a pass-1 chunk (R139). -/
def State.agree (s : State) (cl : Nat) (a : PlanAcct) (c : Coll) (j : Nat) (data : List Byte) : State :=
  s.modColl cl c.id fun d => { d with agreed := data.zipIdx.foldl (fun t x => t.insert (j * a.plan.bpc + x.2) x.1.toNat) d.agreed }

/-- Queues the pass-2 contributions whose agreed bytes have arrived, in chunk order (R139). -/
def State.queueReady (s : State) (cl p : Nat) (a : PlanAcct) (id : Nat) : Nat → State
  | 0 => s
  | fuel + 1 =>
    match s.coll cl id with
    | some c =>
      if c.next < c.nchunks && c.ready a.plan c.next then
        let j := c.next
        let s := s.modColl cl id fun c => { c with next := c.next + 1 }
        (s.modPlan cl p fun a => { a with queue := a.queue ++ [⟨id, chunkOf cl 0 0 j, false, c.words a.plan 0 j⟩] }).queueReady cl p a id fuel
      else s
    | none => s

/-- A result chunk has landed, or needed no landing: R159's end of FINAL at the owner, then its multicast; elsewhere the RES bit
alone (R161, R162). -/
def State.landed (s : State) (cl p : Nat) (a : PlanAcct) (c : Coll) (chunk : Nat) (own : Option Nat) (isDone : Bool)
    (data : List Byte) : State :=
  let p1 := ckP1 chunk
  let s := if p1 = 1 then s.agree cl a c (ckJ chunk) data
    else if denOf c.issue && !isDone && !s.watchBit c.id chunk true then
      s.modColl cl c.id fun d => { d with landed := d.landed.insert (ckJ chunk) data } else s
  let s := match own with
    | some i =>
      let o := match s.accAt i with | some x => x.oidx | none => 0
      let s := (s.returnCredits cl p a (ckPh chunk) o).setBit c.id chunk true false
      let d := if c.kind == Fused.mmaRs && p1 == 0 then [] else data
      let h := s.holdResult cl p a c.id chunk c.fmt d
      h.2.multicast a.plan c.id chunk (if p1 = 1 then 14 else c.fmt) isDone c.kind.reduces d h.1
    | none => s
  let s := s.settle cl p a c p1 (ckJ chunk) isDone (if isDone then [] else data) (ckPh chunk)
  if p1 = 1 then s.queueReady cl p a c.id (c.nchunks + 1) else s

/-! ## FINAL contexts (R159, R161) -/

/-- A context in FINAL hands on what it holds, if it can: a RED_PART or RED under a credit, this module's contribution to the
next phase under a credit, or the final conversion and its landing. -/
def State.advance (s : State) (i : Nat) : Option State :=
  match s.accAt i with
  | some c =>
    let cl := ckCl c.chunk
    let p := c.coll / 64
    let ph := ckPh c.chunk
    if c.st ≠ .final || c.sent || c.comp then none
    else match s.plan cl p, s.coll cl c.coll with
      | some a, some k =>
        let f := a.plan.ph ph
        let n := f.nm + 1
        (match nextOf a.plan.alg n f.idx c.oidx with
          | some (nx, dir) =>
            if a.credits (ph * 4 + dir) = 0 then none
            else
              let s := s.spend cl p (ph * 4 + dir)
              let r := s.addRef (groupCells c.group)
              let pk := collPkt tREDPART (s.memberCoord f nx) c.coll c.chunk c.word c.op c.emask 0x131 (c.last * 2 ^ 11) (s.accData c)
              some ((r.1.kilnSend pk (if r.2 then some c.group else none) none).setAcc i { c with sent := true })
          | none =>
            if ph + 1 < a.plan.nph then
              let j := ckJ c.chunk
              let up := chunkOf cl (ckP1 c.chunk) (ph + 1) j
              let g := a.plan.ph (ph + 1)
              let o := k.owner a.plan (ckP1 c.chunk) (ph + 1) j
              let data := s.accData c
              let hold := fun (s : State) =>
                let s := (s.returnCredits cl p a ph c.oidx).setBit c.coll c.chunk true false
                match s.accAt i with
                | some d => s.setAcc i { d with st := .held, hres := false, heldAt := s.now }
                | none => s
              (match nextOf a.plan.alg (g.nm + 1) g.idx o with
                | some (nx, dir) =>
                  if emaskOf a.plan.alg (g.nm + 1) g.idx o = 2 ^ g.idx then
                    if a.credits ((ph + 1) * 4 + dir) = 0 then none
                    else
                      let s := s.spend cl p ((ph + 1) * 4 + dir)
                      let pk := collPkt tRED (s.memberCoord g nx) c.coll up c.word c.op (2 ^ g.idx) 0x131 (g.idx * 2 ^ 11) data
                      let r := s.addRef (groupCells c.group)
                      some (hold ((r.1.kilnSend pk (if r.2 then some c.group else none) none).setBit c.coll up true false))
                  else if a.credits ((ph + 1) * 4 + 2) = 0 then none
                  else some (hold ((s.spend cl p ((ph + 1) * 4 + 2)).ownOperand cl p a c.coll up c.word data))
                | none =>
                  if a.credits ((ph + 1) * 4 + 2) = 0 then none
                  else some (hold ((s.spend cl p ((ph + 1) * 4 + 2)).ownOperand cl p a c.coll up c.word data)))
            else
              let r := k.convertChunk a.plan (ckP1 c.chunk) (ckJ c.chunk) (s.accData c)
              let s := (s.setAcc i { c with sent := true }).collFlags cl c.coll (r.2 ||| (if c.sat then fOF else 0))
              if ckP1 c.chunk = 1 then some (s.landed cl p a k c.chunk (some i) false r.1)
              else some { s with landings := s.landings ++ [⟨c.coll, c.chunk, r.1, some i, [], 0x131, false, []⟩] })
      | _, _ => none
  | none => none

/-- Lets every FINAL context of the table advance while one can; `fuel` moves at most. -/
def State.pump (s : State) : Nat → State
  | 0 => s
  | fuel + 1 =>
    match s.ctx.findSome? fun e => s.advance e.1 with
    | some t => t.pump fuel
    | none => s

/-- The entries whose word 0 or 1 is uncorrectable are freed and logged; their collectives end by their stall timers (R171). -/
def State.dropCtx (s : State) : State :=
  s.ctxErr.foldl (fun s e => match s.ctx.find e.1 with
    | some (.acc _) => (s.freeAcc e.1).logEv 0x0802 0x131 0 (BitVec.ofNat 64 e.1) 0
    | some (.watch _) => { s with ctx := s.ctx.erase e.1 }.logEv 0x0802 0x131 0 (BitVec.ofNat 64 e.1) 0
    | none => s) { s with ctxErr := [] }

/-- Moves that a pump can make: four for each entry, and as many for what they open. -/
def State.pumpAll (s : State) : State := s.dropCtx.pump (8 * s.ctx.length + 16)

/-- The router has released its reference to the cells of a RED_PART (R159): the context returns its credits, sets FWD and is
freed. -/
def State.partSent (s : State) (coll chunk : Nat) : State :=
  match s.findAcc coll chunk with
  | some (i, c) =>
    if c.st = .final && c.sent && !c.own then
      (match s.plan (ckCl chunk) (coll / 64) with
        | some a => ((s.returnCredits (ckCl chunk) (coll / 64) a (ckPh chunk) c.oidx).setBit coll chunk true false).freeAcc i
        | none => s.freeAcc i)
    else s
  | none => s

/-! ## Releasing plans and cancelling (R123, R146) -/

/-- Releases a plan: its contexts, groups and watch entries, its queue and its reservation. -/
def State.releasePlan (s : State) (cl p : Nat) : State :=
  let mine := s.ctx.filterMap fun e => match e.2 with
    | .acc c => if ckCl c.chunk = cl && c.coll / 64 = p then some e.1 else none
    | .watch _ => none
  let s := mine.foldl State.freeAcc s
  let gone := s.landings.filter fun l => ckCl l.chunk = cl && l.coll / 64 = p
  let t := { s with
    ctx := s.ctx.filter fun e => match e.2 with
      | .watch w => !(ckCl w.chunk = cl && w.coll / 64 = p)
      | .acc _ => true
    plans := s.plans.erase (cl * 64 + p)
    landings := s.landings.filter fun l => !(ckCl l.chunk = cl && l.coll / 64 = p) }
  gone.foldl (fun s l => s.release l.mid l.cells) t

/-- Cancels every collective of a cluster and releases every plan of it; pairs with a collective in flight are poisoned
(R123, R146). -/
def State.cancelCluster (s : State) (cl : Nat) : State :=
  let hit := s.colls.filter (·.cl == cl)
  let s := hit.foldl (fun s c => ((s.releaseSrc c).collRecord c 4)) s
  let s := { s with colls := s.colls.filter (fun c => !(c.cl == cl)),
                    poisoned := hit.foldl (fun t c => t.insert (cl * 64 + c.plan) true) s.poisoned }
  (List.range 64).foldl (fun s p => if (s.plan cl p).isSome then s.releasePlan cl p else s) s

/-- STOP of a cluster (R114, R146). -/
def State.cmdStop (s : State) (n : Nat) : State := ((s.stopCl n).cancelCluster n).autoState

end Sys2Proof.Machine
end

