-- ==== Sys2Proof/Machine/Modstate.lean ====
section
/-!
DEFINITION. Machine/Modstate.lean: completing commands (R399), fault notes and their fan-out (R301, R304), and FENCED (R307).
-/
namespace Sys2Proof.Machine

/-! ## Completions (R399-R402) -/

/-- OK. -/
def eOK : Nat := 0
/-- E_STATE. -/
def eSTATE : Nat := 1
/-- E_PARAM. -/
def ePARAM : Nat := 2
/-- E_ACCESS. -/
def eACCESS : Nat := 3
/-- E_BUSY. -/
def eBUSY : Nat := 4
/-- DEFERRED. -/
def eDEFERRED : Nat := 5
/-- E_AUTH. -/
def eAUTH : Nat := 6
/-- E_FAULT. -/
def eFAULT : Nat := 7

/-- The status of an access made on behalf of a command (R505). -/
def statusOf (resp : Nat) : Nat := if resp = rDENIED then eACCESS else if resp = rDECERR then ePARAM else if resp = rDATAERR then eFAULT else eOK

/-- Word `k` of a command. -/
def Cmd.word (c : Cmd) (k : Nat) : W64 := c.w.getD k 0

/-- CMD of a command. -/
def Cmd.op (c : Cmd) : Nat := bitsOf (c.word 0) 0 8

/-- The status word (R399). -/
def State.statusWord (s : State) (q : Nat) (c : Cmd) (code : Nat) : W64 :=
  BitVec.ofNat 64 (code + s.mstate * 2 ^ 4 + s.get sysState_EMERG * 2 ^ 8 + s.get sysState_ORPH * 2 ^ 9 + s.get sysState_DEGR * 2 ^ 10
    + s.get sysState_FPEND * 2 ^ 11 + c.op * 2 ^ 16 + q % 64 * 2 ^ 24 + bitsOf (c.word 0) 32 16 * 2 ^ 32)

/-- A CMD_ACK for a CMD message (R400): to its SRC with its TAG, PSEQ and FLOW, TO_HOST when it arrived as master 0x202. -/
def State.cmdAck (s : State) (p : Pkt) (mid : Nat) (a b : W64) : State :=
  let body := [0x02, if mid = 0x202 then 0x01 else 0x00] ++ List.replicate 14 (0 : Byte) ++ bytesLE 8 a.toNat ++ bytesLE 8 b.toNat
  s.inject 129 ⟨mkPkt tMGMT p.cls.toNat p.src.toNat p.slice.toNat false (mkW1 p.coll p.chunk body.length 0 0)
    (BitVec.ofNat 64 (p.flow * 2 ^ 48)) body, true, false, none, none, false⟩

/-- STATUS_ADDR of a command (R394). -/
def Cmd.statusAddr (c : Cmd) : Nat := (c.word 7).toNat % 2 ^ 48

/-- Whether a status can be written at an address: 16-byte aligned, in HBM or in a cluster store (R394). -/
def statusAddrOk (a : Nat) : Bool :=
  a % 16 = 0 && (match decodeAddr a with | .hbm _ | .store _ _ => true | _ => false)

/-- Completes a command (R393, R399): the completion goes to STATUS_ADDR, to the host ring when POST is 1, and to the SRC of a
CMD message. -/
def State.completeCmd (s : State) (q : Nat) (c : Cmd) (code : Nat) (result : W64) : State :=
  let st := s.statusWord q c code
  let body := bytesLE 8 st.toNat ++ bytesLE 8 result.toNat
  let at_ := c.statusAddr
  let s := if at_ = 0 || !statusAddrOk at_ then s else (s.memWrite 0x122 at_ body).1
  let s := if (c.word 0).getLsbD 8 then s.post 1 0x122 body else s
  match c.sub.pkt with
  | some p =>
    let ack := fun (e : SeenCmd) =>
      if e.src = p.src.toNat && e.tag = p.coll && e.pseq = p.chunk then { e with ack := some (st, result) } else e
    ({ s with mgmtSeen := s.mgmtSeen.map ack }).cmdAck p c.sub.mid st result
  | none => s

/-- The state-changing commands (R398). -/
def stateChanging (op : Nat) : Bool := [0x01, 0x02, 0x03, 0x04, 0x05, 0x06, 0x07, 0x08, 0x0A, 0x0C, 0x16].contains op

/-- The entries of a command queue (R393). -/
def State.queue (s : State) (q : Nat) : List Cmd := s.queues.get [] q

/-- Takes the head off a queue; one whose disable waits is disabled once it is empty (R417). -/
def State.popQueue (s : State) (q : Nat) : State :=
  let t := (s.queue q).tail
  let s := { s with queues := s.queues.set [] q t }
  if t.isEmpty && s.qOff.contains q then { s with qOff := s.qOff.filter (· ≠ q) }.put (schQ_EN q) 0 else s

/-- The command at the head of a queue completes. -/
def State.finishCmd (s : State) (q code : Nat) (result : W64) : State :=
  match s.queue q with
  | c :: _ => { s with runs := s.runs.filter (·.q ≠ q) }.popQueue q |>.completeCmd q c code result
  | [] => s

/-- Completes the state-changing commands in progress with E_FAULT: their effects so far stand (R398). -/
def State.faultRuns (s : State) : State :=
  (s.runs.filter fun r => stateChanging r.op).foldl (fun s r => s.finishCmd r.q eFAULT 0) s

/-! ## Fan-out (R302, R304) -/

/-- The route table entry of a bank for a coordinate (R260). -/
def State.routeEnt (s : State) (bankB : Bool) (coord : Nat) : W64 := (if bankB then s.bankB else s.bankA).get 0 coord

/-- MEMBER of the active bank's entry for a coordinate. -/
def State.isMember (s : State) (coord : Nat) : Bool := bitsOf (s.routeEnt (s.flag routeBank_ACTIVE) coord) 62 1 == 1

/-- The coordinates, other than this module's and `except`, whose entry in the active bank has MEMBER = 1 (R304). -/
def State.members (s : State) (except : Nat) : List Nat :=
  let t := if s.flag routeBank_ACTIVE then s.bankB else s.bankA
  t.filterMap fun e => if bitsOf e.2 62 1 = 1 && e.1 ≠ s.coord && e.1 ≠ except then some e.1 else none

/-- Sends a fault record to coordinates. -/
def State.fanOut (s : State) (l : List W64) (dst : List Nat) : State := dst.foldl (fun s d => s.sendNote d l) s

/-! ## FENCED (R307) -/

/-- The module enters FENCED (R307): every cluster is stopped, every collective cancelled, every plan released; FENCED goes to
the members of the slice and to the host. -/
def State.fenceModule (s : State) (cause unit cmd : Nat) : State :=
  if s.mstate = mFENCED || s.mstate = mOFF then s
  else
    let s := s.faultRuns
    let s := (List.range 128).foldl (fun s n =>
      let t := if 1 ≤ s.clSt n && s.clSt n ≤ 3 then s.stopCl n else s
      t.cancelCluster n) s
    let s := ((s.put sysState_FCAUSE cause).put sysState_FUNIT unit).setMstate mFENCED cmd
    let f := s.fault 0x06 (faultSev 6) 0x3FE s.coord (s.get routeSlice_SLICE) 15 0 (BitVec.ofNat 64 (cause + unit * 2 ^ 8)) 0 0
    f.2.fanOut f.1 (f.2.members f.2.coord)

/-- Carries out a fence that a unit has asked for. -/
def State.settleFence (s : State) : State :=
  match s.fenceReq with
  | some (c, u) => { s with fenceReq := none }.fenceModule c u 0
  | none => s

/-- The end of a meaning: FINAL contexts advance, and a fence that was asked for is carried out. -/
def done (s : State) : Host.Outcome State Fault Refusal := .next s.pumpAll.settleFence

end Sys2Proof.Machine
end

