-- ==== Sys2Proof/Machine/Cone.lean ====
section
/-!
DEFINITION. Machine/Cone.lean: the states of a link by name (R198), and the cone count's synchronisation (R331-R335): root, distance
and parent, the CONE_SYNC that a link sends, and what the parent's offset does.
-/
namespace Sys2Proof.Machine

/-! ## Links (R198) -/

/-- DISABLED. -/
def lkDISABLED : Nat := 0
/-- DARK. -/
def lkDARK : Nat := 1
/-- SIGNAL. -/
def lkSIGNAL : Nat := 2
/-- CLOCK. -/
def lkCLOCK : Nat := 3
/-- WEDGE. -/
def lkWEDGE : Nat := 4
/-- BISQUE. -/
def lkBISQUE : Nat := 5
/-- VERIFY. -/
def lkVERIFY : Nat := 6
/-- STEP. -/
def lkSTEP : Nat := 7
/-- GLOST. -/
def lkGLOST : Nat := 8
/-- MISWIRED. -/
def lkMISWIRED : Nat := 9
/-- DOWN. -/
def lkDOWN : Nat := 10
/-- TEST. -/
def lkTEST : Nat := 11
/-- SLEEP. -/
def lkSLEEP : Nat := 12

/-- STATE of a link. -/
def State.lnk (s : State) (i : Nat) : Nat := s.get (lnkStatus_STATE i)

/-- A link's controller. -/
def State.link (s : State) (i : Nat) : Link := s.links.get Link.reset i

/-- Updates a link's controller. -/
def State.modLink (s : State) (i : Nat) (f : Link → Link) : State := { s with links := s.links.modify Link.reset i f }

/-! ## Root, distance and parent (R331, R332) -/

/-- The root's coordinate. -/
def State.rootCoord (s : State) : Nat :=
  if s.flag coneCtrl_OVR_EN then s.get coneCtrl_ROOT_OVR else if s.topo.rootSet then s.topo.root else 0

/-- Whether this module is the root. -/
def State.isRoot (s : State) : Bool := s.coord = s.rootCoord

/-- The distance from the root in torus hops. -/
def State.coneDist (s : State) : Nat :=
  (List.range 3).foldl (fun t a =>
    let e := s.extent a
    let d := (axisOf s.coord a + e - axisOf s.rootCoord a % e) % e
    t + min d (e - d)) 0

/-- Whether a link's peer may be the parent. -/
def State.parentCand (s : State) (i : Nat) : Bool :=
  let c := (s.link i).cs
  s.lnk i = lkGLOST && c.seen && c.root = s.rootCoord && c.dist + 1 = s.coneDist

/-- The parent link: a peer without the HOLDOVER flag first; link indices are in the order of R332. -/
def State.parent (s : State) : Option Nat :=
  match (List.range 12).find? fun i => s.parentCand i && !(s.link i).cs.flags.testBit 1 with
  | some i => some i
  | none => (List.range 12).find? s.parentCand

/-! ## The synchronisation states (R335) -/

/-- FREE. -/
def coFREE : Nat := 0
/-- ACQUIRE. -/
def coACQUIRE : Nat := 1
/-- LOCKED. -/
def coLOCKED : Nat := 2
/-- HOLDOVER. -/
def coHOLDOVER : Nat := 3

/-- An event of the count: parent link, OFFSET, and a step's size. -/
def State.coneLog (s : State) (code step : Nat) : State :=
  s.logEv code 0x3FE (s.get coneStatus_PARENT) (BitVec.ofNat 64 (s.get coneStatus_OFFSET)) (BitVec.ofNat 64 step)

/-- Enters HOLDOVER: the count runs on without further slew. -/
def State.enterHoldover (s : State) : State :=
  ({ s with coneSlew := 0, coneGood := 0 }.put coneStatus_STATE coHOLDOVER).coneLog 0x0101 0

/-- The choice of parent is made again, when a link or a flag changes (R332, R335). -/
def State.coneReview (s : State) : State :=
  let s := (s.setFlag coneStatus_ROOT s.isRoot).put coneStatus_DIST s.coneDist
  if s.isRoot then { s with coneSlew := 0 }.put coneStatus_PARENT 15 |>.put coneStatus_STATE coLOCKED
  else
    let s := s.put coneStatus_PARENT (s.parent.getD 15)
    let hold := match s.parent with | some i => (s.link i).cs.flags.testBit 1 | none => true
    if s.get coneStatus_STATE = coLOCKED && hold then s.enterHoldover else s

/-- The parent's offset `theta`, in units of 2^-8 ns, drives the count (R335); a pending slew is `coneSlew`. In HOLDOVER only a LOCKED
parent moves it (log entry 76). -/
def State.coneDrive (s : State) (theta : Int) (locked : Bool) : State :=
  let s := if s.get coneStatus_STATE = coFREE then s.put coneStatus_STATE coACQUIRE else s
  if s.get coneStatus_STATE = coLOCKED then { s with coneSlew := -theta }
  else if s.get coneStatus_STATE = coHOLDOVER && !locked then { s with coneGood := 0 }
  else if theta.natAbs > 64 * 256 && (s.mstate = mBOOTING || s.mstate = mREADY) then
    let v := ((s.now * 256 + s.coneFrac : Nat) : Int) - theta
    let v := (v % ((2 ^ 72 : Nat) : Int)).toNat
    let s := { s with cone := BitVec.ofNat 64 (v / 256), coneFrac := v % 256, coneSlew := 0, coneGood := 0 }
    (s.bump coneStatus_STEPS).coneLog 0x0103 (theta.natAbs / 256)
  else
    let good := if theta.natAbs ≤ 256 && locked then s.coneGood + 1 else 0
    let s := { s with coneSlew := -theta, coneGood := good }
    if 16 ≤ good then (s.put coneStatus_STATE coLOCKED).coneLog 0x0102 0 else s

/-! ## Messages (R333, R334) -/

/-- The cone count with its fraction, in units of 2^-8 ns. -/
def State.now8 (s : State) : Nat := s.now * 256 + s.coneFrac

/-- The payload of the CONE_SYNC that a link sends now (R333). -/
def State.coneBody (s : State) (i : Nat) : List Byte :=
  let c := (s.link i).cs
  let st := s.get coneStatus_STATE
  let flags := (if st = coLOCKED then 1 else 0) + (if st = coHOLDOVER then 2 else 0) + (if s.isRoot then 4 else 0)
  let rx := c.rx.headD (0, 0)
  [1, BitVec.ofNat 8 flags, if st = coFREE then 0xFF else BitVec.ofNat 8 s.coneDist, BitVec.ofNat 8 i] ++
    bytesLE 2 (c.sent % 65536) ++ bytesLE 2 rx.1 ++ bytesLE 2 s.rootCoord ++ List.replicate 6 0 ++ bytesLE 8 c.txTime ++
    bytesLE 8 rx.2 ++ bytesLE 8 (c.txTime / 256) ++ List.replicate 24 0

/-- The link controller fills in a CONE_SYNC as it sends it and notes its transmit time (R334); other packets pass. -/
def State.coneStamp (s : State) (i : Nat) (p : Pkt) : Pkt × State :=
  if p.typ == tCONESYNC then
    let b := s.coneBody i
    ({ p with payload := b, pcrc := crc32c b },
      s.modLink i fun l => { l with cs := { l.cs with sent := l.cs.sent + 1, txTime := s.now8 % 2 ^ 64, prevTxTime := l.cs.txTime } })
  else (p, s)

/-- Notes the receive time of a CONE_SYNC whose first flit arrives on a link (R334). -/
def State.coneSeen (s : State) (i seq : Nat) : State :=
  s.modLink i fun l => { l with cs := { l.cs with rx := ((seq, s.now8 % 2 ^ 64) :: l.cs.rx).take 4 } }

/-- A 64-bit difference as a signed number. -/
def signedDiff (x y : Nat) : Int :=
  let d : Nat := (x + 2 ^ 64 - y % 2 ^ 64) % 2 ^ 64
  if d < 2 ^ 63 then (d : Int) else (d : Int) - ((2 ^ 64 : Nat) : Int)

/-- PERIOD in ns (R333). -/
def State.conePeriod (s : State) : Nat := (if s.get coneCtrl_PERIOD = 0 then 10 else s.get coneCtrl_PERIOD) * 1000

/-- A CONE_SYNC is taken from a link (R334, R335). -/
def State.coneTake (s : State) (i : Nat) (b : List Byte) : State :=
  let f := fun (o n : Nat) => natLE ((b.drop o).take n)
  let seq := f 4 2
  let rxseq := f 6 2
  let s := s.modLink i fun l => { l with cs := { l.cs with root := f 8 2 % 2 ^ 14, dist := f 2 1, flags := f 1 1, seen := true } }
  let c := (s.link i).cs
  let s := s.coneReview
  let t1 := f 16 8
  let t3 := if (rxseq + 1) % 65536 = c.sent % 65536 then some c.txTime
    else if (rxseq + 2) % 65536 = c.sent % 65536 then some c.prevTxTime else none
  match c.rx.find? (fun x => (x.1 + 1) % 65536 = seq), t3 with
  | some (_, t2), some t3 =>
    if 4 * s.conePeriod * 256 < (signedDiff t1 t3).natAbs then s
    else
      let a := signedDiff t2 t1
      let d := signedDiff (f 24 8) t3
      let s := (s.put (coneDelay_VALID i) 1).put (coneDelay_DELAY i) (((a + d) / 2) % ((2 ^ 32 : Nat) : Int)).toNat
      let theta := (a - d) / 2
      if s.isRoot || s.parent ≠ some i then s
      else (s.put coneStatus_OFFSET (theta % ((2 ^ 32 : Nat) : Int)).toNat).coneDrive theta (c.flags.testBit 0)
  | _, _ => s

end Sys2Proof.Machine
end

