-- ==== Sys2Proof/Machine/Router.lean ====
section
/-!
DEFINITION. Machine/Router.lean: the switch core (R224-R242) and route selection (R260-R281): ports, virtual output queues,
routing a header, multicast, arbitration, ageing, and the end of a transmission.
-/
namespace Sys2Proof.Machine

/-! ## Ports and links (R224, R226, R263) -/

/-- The die port of cluster `n` (R16, R17). -/
def clusterPort (n : Nat) : Nat := 14 + 2 * (n / 64) + n % 8 / 4

/-- The die port of stack `k` (R16, R17). -/
def stackPort (k : Nat) : Nat := 14 + 2 * (k / 4) + (if 2 ≤ k % 4 then 1 else 0)

/-- The port by which an injection point enters the router (R227). -/
def injPort : InjPoint → Nat
  | .cluster n => clusterPort n
  | .kiln => 18
  | _ => 19

/-- Whether a link is usable for a class (R263). -/
def State.usable (s : State) (cls i : Nat) : Bool :=
  s.lnk i = lkGLOST || (cls = 0 && (s.lnk i = lkMISWIRED || (s.lnk i = lkBISQUE && s.flag (lnkStatus_INCOMPATIBLE i))))

/-- Credits held for a class and VC on a link. -/
def State.credit (s : State) (i cls vc : Nat) : Nat := (s.link i).credits.get 0 (2 * cls + vc)

/-- 128 divided by the lane rate of a link (R266). -/
def State.slowness (s : State) (i : Nat) : Nat :=
  match s.get (lnkStatus_RATE i) with
  | 0 => 16
  | 1 => 4
  | 2 => 2
  | _ => 1

/-! ## Virtual output queues (R228) -/

/-- The key of the VOQ of (input port, output port, class, outgoing VC). -/
def voqKey (inp out cls vc : Nat) : Nat := ((inp * 20 + out) * 8 + cls) * 2 + vc
/-- Input port of a VOQ key. -/
def voqIn (k : Nat) : Nat := k / 320
/-- Output port of a VOQ key. -/
def voqOut (k : Nat) : Nat := k / 16 % 20
/-- Class of a VOQ key. -/
def voqCls (k : Nat) : Nat := k / 2 % 8
/-- Outgoing VC of a VOQ key. -/
def voqVc (k : Nat) : Nat := k % 2

/-- Cells of a list of descriptors. -/
def cellsOf (q : List Desc) : Nat := q.foldl (fun a d => a + d.pkt.cellCount) 0

/-- Cells queued for an output in a class. -/
def State.queuedCells (s : State) (o cls : Nat) : Nat :=
  s.voqs.foldl (fun a e => if voqOut e.1 = o && voqCls e.1 = cls then a + cellsOf e.2 else a) 0

/-- load of an output in a class (R266). -/
def State.load (s : State) (o cls : Nat) : Nat := s.queuedCells o cls * s.slowness o

/-- An output port. -/
def State.out (s : State) (o : Nat) : OutPort := s.outs.get OutPort.reset o

/-- Writes an output port. -/
def State.setOut (s : State) (o : Nat) (p : OutPort) : State := { s with outs := s.outs.set OutPort.reset o p }

/-- The floor account of a class (R231). -/
def OutPort.floor (p : OutPort) (cls : Nat) : Nat :=
  match cls with
  | 3 => p.floor3
  | 4 => p.floor4
  | 5 => p.floor5
  | 6 => p.floor6
  | _ => 0

/-- Sets a floor account. -/
def OutPort.setFloor (p : OutPort) (cls v : Nat) : OutPort :=
  match cls with
  | 3 => { p with floor3 := v }
  | 4 => { p with floor4 := v }
  | 5 => { p with floor5 := v }
  | 6 => { p with floor6 := v }
  | _ => p

/-- Whether a class has a packet waiting for an output. -/
def State.waitingFor (s : State) (o cls : Nat) : Bool := s.voqs.any fun e => voqOut e.1 = o && voqCls e.1 = cls

/-- A descriptor joins a VOQ at a place from its head; a class that had nothing waiting starts with an empty floor account
(R231). -/
def State.joinAt (s : State) (k n : Nat) (d : Desc) : State :=
  let s := if s.waitingFor (voqOut k) (voqCls k) then s else s.setOut (voqOut k) ((s.out (voqOut k)).setFloor (voqCls k) 0)
  let q := s.voqs.get [] k
  let q := q.take n ++ d :: q.drop n
  { s with voqs := s.voqs.set [] k q, voqHwm := s.voqHwm.modify 0 k (max (cellsOf q)) }

/-- A descriptor joins the tail of a VOQ. -/
def State.join (s : State) (k : Nat) (d : Desc) : State := s.joinAt k (s.voqs.get [] k).length d

/-- A copy is discarded: its cells are released, and a RED_PART of the kiln complex has left the router (R239, R244, R159). -/
def State.discard (s : State) (d : Desc) : State :=
  let s := s.release d.mid d.cells
  if d.inPort = 18 && d.pkt.typ == tREDPART then s.partSent d.pkt.coll d.pkt.chunk else s

/-! ## Virtual channels (R232, R233) -/

/-- Whether a hop by torus link `o` crosses the dateline of its axis. -/
def State.dateline (s : State) (o : Nat) : Bool :=
  let a := o / 4
  axisOf s.coord a = (if o / 2 % 2 = 0 then s.extent a - 1 else 0)

/-- The VC of a hop from input port `inp`, where the packet arrived on `vc`, to port `o` (R233). -/
def State.hopVc (s : State) (vc inp o : Nat) : Nat :=
  if 12 ≤ o then 0 else if s.dateline o then 1 else if inp < 12 && inp / 4 = o / 4 then vc else 0

/-! ## The flow hash (R264, R269) -/

/-- The effective key of a bank. -/
def State.hashKey (s : State) (bankB : Bool) : W64 :=
  let k := s.rd (if bankB then routeKeyB else routeKeyA)
  let r := s.get routeSpread_REKEY
  if r = 0 then k else mix64 k (BitVec.ofNat 64 r)

/-- The flow hash of a packet. -/
def State.flowHash (s : State) (p : Pkt) : W64 :=
  let f := if p.form then (bitsOf p.w2 16 16) ^^^ (p.chunk % 2 ^ 16) else if p.typ == tCONESYNC then 0 else p.flow
  let w := BitVec.ofNat 64 (p.typ.toNat * 2 ^ 58 + p.src.toNat * 2 ^ 30 + p.dst.toNat * 2 ^ 16 + f)
  mix64 (s.hashKey p.epoch ^^^ BitVec.ofNat 64 (s.coord * 2 ^ 48)) w

/-! ## Choosing a link (R266-R268) -/

/-- A choice of output: the link, whether the hop is an escape hop (R267), and whether DET was taken for ESC. -/
structure Choice where
  out : Option Nat
  esc : Bool
  detour : Bool
  deriving DecidableEq, Repr

/-- The usable links of a direction; a reserved direction has none. -/
def State.dirLinks (s : State) (cls dir : Nat) : List Nat :=
  if dir < 6 then [2 * dir, 2 * dir + 1].filter (s.usable cls) else []

/-- TIE_BAND. -/
def State.tieBand (s : State) : Nat := s.get routeSpread_TIE_BAND

/-- The links of a list with the least load of a class. -/
def State.leastLoad (s : State) (cls : Nat) (l : List Nat) : Nat := (l.map (s.load · cls)).foldl min (s.load (l.headD 0) cls)

/-- The entry's escape links, or its detour links where no escape link is usable, and whether these were taken. -/
def State.escLinks (s : State) (e : W64) (cls : Nat) : List Nat × Bool :=
  let esc := s.dirLinks cls (bitsOf e 51 3)
  if esc.isEmpty && bitsOf e 48 3 ≠ 7 then (s.dirLinks cls (bitsOf e 48 3), true) else (esc, false)

/-- The choice of R266 for a packet that arrived at port `inp`. -/
def State.choose (s : State) (p : Pkt) (inp : Nat) (e : W64) : Choice :=
  let cls := p.cls.toNat
  let h := (s.flowHash p).toNat
  let q := s.escLinks e cls
  let esc := q.1
  let adapt := (List.range 6).flatMap fun k => if bitsOf e (54 + k) 1 = 1 then s.dirLinks cls k else []
  let cand := adapt.filter fun o => 17 + p.cellCount ≤ s.credit o cls (s.hopVc p.vc.toNat inp o)
  let byEsc := if esc.isEmpty then none else esc[h % 2 % esc.length]?
  let byLoad :=
    let near := cand.filter fun o => s.load o cls ≤ s.leastLoad cls cand + s.tieBand
    near[h % near.length]?
  match (if p.ord || cand.isEmpty then byEsc else byLoad) with
  | some o => ⟨some o, esc.contains o, q.2⟩
  | none => ⟨adapt.find? (fun o => s.load o cls = s.leastLoad cls adapt), true, q.2⟩

/-- One of the two links of a direction for a multicast copy (R268). -/
def State.chooseLine (s : State) (p : Pkt) (dir : Nat) : Option Nat :=
  let cls := p.cls.toNat
  match s.dirLinks cls dir with
  | [a, b] =>
    let x := s.load a cls
    let y := s.load b cls
    if x ≤ y + s.tieBand && y ≤ x + s.tieBand then some (if (s.flowHash p).getLsbD 0 then b else a)
    else some (if x < y then a else b)
  | [a] => some a
  | _ => none

/-- An open, usable service port for a packet, by h[0] where both qualify (R284). -/
def State.serviceOut (s : State) (p : Pkt) : Option Nat :=
  match [12, 13].filter fun i => s.usable p.cls.toNat i && (s.get routeSvc_SV0_OPEN + 2 * s.get routeSvc_SV1_OPEN).testBit (i - 12) with
  | [a, b] => some (if (s.flowHash p).getLsbD 0 then b else a)
  | [a] => some a
  | _ => none

/-- The entry that a packet is routed by: VALID reads 0, and the error is logged, where it is uncorrectable (R260). -/
def State.entryOf (s : State) (bankB : Bool) (dst : Nat) : W64 × State :=
  if s.bankErr.get false (bankB.toNat * 16384 + dst) then
    (0, s.logEv 0x0603 0x3FE bankB.toNat (BitVec.ofNat 64 dst) 0)
  else (s.routeEnt bankB dst, s)

/-- Whether a packet is multicast (R237): a RED_RES or finality DONE with a span. -/
def Pkt.spans (p : Pkt) : Bool :=
  p.form && (p.typ == tREDRES || (p.typ == tDONE && !p.w2.getLsbD 13)) && bitsOf p.w2 0 10 != 0

/-- Routes a descriptor that is not delivered here and gives it its place: the tail of a VOQ, or `head` places from a VOQ's head. -/
def State.forward (s : State) (d : Desc) (head : Option (Nat → Nat)) : State :=
  let r := s.entryOf d.pkt.epoch d.pkt.dst.toNat
  let s := r.2
  let c := s.choose d.pkt d.inPort r.1
  let s := if c.detour then s.bump routeCntDetour_COUNT else s
  match c.out with
  | none => (s.bump routeCntNoroute_COUNT).discard d
  | some o =>
    let k := voqKey d.inPort o d.pkt.cls.toNat (s.hopVc d.pkt.vc.toNat d.inPort o)
    let d := { d with esc := c.esc, since := s.now }
    match head with
    | some f => s.joinAt k (f k) d
    | none => s.join k d

/-- Routes again a descriptor that waited for output `o`, which has left service (R229, R268, R284). -/
def State.routeAgain (s : State) (o : Nat) (d : Desc) (head : Option (Nat → Nat)) : State :=
  let put := fun (s : State) (n : Nat) =>
    let k := voqKey d.inPort n d.pkt.cls.toNat (s.hopVc d.pkt.vc.toNat d.inPort n)
    match head with
    | some f => s.joinAt k (f k) { d with since := s.now }
    | none => s.join k { d with since := s.now }
  if 12 ≤ o then
    match s.serviceOut d.pkt with
    | some n => put s n
    | none => (s.bump routeCntNoroute_COUNT).discard d
  else if d.pkt.spans then
    match s.chooseLine d.pkt (o / 2) with
    | some n => put s n
    | none => (s.bump routeCntMcLost_COUNT).discard d
  else s.forward d head

/-- The packets of an output's VOQs that it may no longer carry are routed again, each VOQ from head to tail (R229). -/
def State.rerouteOut (s : State) (o : Nat) : State :=
  let ks := (s.voqs.filter fun e => voqOut e.1 = o && !s.usable (voqCls e.1) o).map (·.1)
  ks.foldl (fun s k =>
    let q := s.voqs.get [] k
    q.foldl (fun s d => s.routeAgain o d none) { s with voqs := s.voqs.set [] k [] }) s

/-! ## The delivery check (R226, R227, R277-R285) -/

/-- What a router does with a packet's header. -/
inductive Verdict where
  | deliver (port mid : Nat)
  | forward
  | transit
  | service
  | refuse
  | drop (count : Field)
  deriving DecidableEq, Repr

/-- The port by which a packet for this module leaves the router (R226, R227). -/
def State.deliveryPort (s : State) (p : Pkt) : Nat :=
  if p.form then 18
  else if p.typ == tWRITE || p.typ == tREADREQ then
    match decodeAddr p.addr with
    | .hbm a => stackPort (s.stackOf a)
    | .store n _ => clusterPort n
    | _ => 19
  else if p.typ == tMSG then clusterPort (bitsOf p.w2 16 7)
  else if p.typ == tREADRSP || p.typ == tDONE then (if p.coll < 0x800 then clusterPort (p.coll / 16) else 19)
  else 19

/-- Whether a permit admits a packet of the host slice (R284). -/
def State.permitted (s : State) (src : Nat) (mem : Bool) : Bool :=
  (List.range 4).any fun i => s.flag (routePermit_VALID i) && s.get (routePermit_BRIDGE i) = src &&
    s.flag (if mem then routePermit_MEM i else routePermit_MGMT i)

/-- The management types (R278, R279). -/
def mgmtType (t : BitVec 6) : Bool := t == tMGMT || t == tCONESYNC || t == tROUTEUPD || t == tFAULTNOTE

/-- The verdict of R279 and R284; `e` is the packet's entry. A CONE_SYNC is never routed (R264). -/
def State.verdict (s : State) (p : Pkt) (e : W64) : Verdict :=
  let own := s.get routeSlice_SLICE
  let t := p.slice.toNat
  if p.dst.toNat = s.coord || p.typ == tCONESYNC then
    if t = own && own ≠ 0 then .deliver (s.deliveryPort p) 0x200
    else if t = 0xFFF then (if mgmtType p.typ then .deliver 19 0x201 else .refuse)
    else if t = 0xFFE then
      if p.typ == tWRITE || p.typ == tREADREQ || p.typ == tMSG then
        (if s.permitted p.src.toNat true then .deliver (s.deliveryPort p) 0x202 else .refuse)
      else if p.typ == tMGMT || p.typ == tROUTEUPD then
        (if s.permitted p.src.toNat false then .deliver 19 0x202 else .refuse)
      else if p.typ == tREADRSP || p.typ == tDONE then .service
      else .refuse
    else .refuse
  else if bitsOf e 63 1 = 0 then .drop routeCntNoroute_COUNT
  else if t = own && own ≠ 0 then (if bitsOf e 62 1 = 1 then .forward else .drop routeCntNoroute_COUNT)
  else if t = 0xFFF || t = 0xFFE then .forward
  else if t ≠ 0 && bitsOf e 61 1 = 1 then .transit
  else .drop routeCntNotransit_COUNT

/-- The class that a packet in C6 regains in its own slice (R280). -/
def restoredClass (p : Pkt) : Nat :=
  if p.form then 2 else if p.typ == tMSG then 3 else if p.typ == tMIRROR then 5 else if p.typ == tTEST then 7 else 4

/-- The packet as a module of its own slice handles it. -/
def State.ownClass (s : State) (p : Pkt) : Pkt :=
  if p.cls = 6 && p.slice.toNat = s.get routeSlice_SLICE && p.slice ≠ 0 then { p with cls := BitVec.ofNat 3 (restoredClass p) } else p

/-- Whether a bank routes no packets: IDLE or LOADING (R272, R275). -/
def State.bankUnready (s : State) (bankB : Bool) : Bool :=
  s.get (if bankB then routeBank_STATE_B else routeBank_STATE_A) ≤ 1

/-- A packet that the delivery check refuses (R218): discarded, counted at a receiving link port and logged. -/
def State.refuse (s : State) (port : Nat) (p : Pkt) : State :=
  if port < 14 then
    (s.bump (lnkCntForeign_COUNT port)).logEv (0x1004 + 0x100 * port) 0x203 (s.get (lnkStatus_REASON port))
      (BitVec.ofNat 64 (p.src.toNat + p.slice.toNat * 2 ^ 16)) (s.rd (lnkExpect port))
  else s

/-! ## Multicast (R237, R238, R281) -/

/-- Whether port 18 discards a local copy (R238). -/
def State.mcFiltered (s : State) (p : Pkt) : Bool :=
  match s.plan (ckCl p.chunk) (p.coll / 64) with
  | some a =>
    let ph := ckPh p.chunk
    decide (a.plan.nph ≤ ph) || (s.memberOf (a.plan.ph ph) p.src.toNat).isNone
  | none => false

/-- A copy with the span of one direction alone. -/
def Pkt.withSpan (p : Pkt) (minus : Bool) (k : Nat) : Pkt :=
  { p with w2 := setBits p.w2 0 10 (if minus then k * 32 else k) }

/-- A copy bound for a direction: a VOQ key and packet, or the reason for its discard. -/
def State.lineCopy (s : State) (p : Pkt) (inp : Nat) (minus : Bool) (k : Nat) : List (Nat × Pkt) × State :=
  let dir := 2 * bitsOf p.w2 14 2 + minus.toNat
  let c := p.withSpan minus k
  if s.bankUnready p.epoch then ([], s.bump routeCntEpoch_COUNT)
  else match s.chooseLine c dir with
    | some o => ([(voqKey inp o c.cls.toNat (s.hopVc c.vc.toNat inp o), c)], s)
    | none => ([], s.bump routeCntMcLost_COUNT)

/-- The copies that this router makes of a multicast packet. -/
def State.mcCopies (s : State) (p : Pkt) (inp : Nat) : List (Nat × Pkt) × State :=
  if 14 ≤ inp then
    let x := if bitsOf p.w2 0 5 ≠ 0 then s.lineCopy p inp false (bitsOf p.w2 0 5) else ([], s)
    let y := if bitsOf p.w2 5 5 ≠ 0 then x.2.lineCopy p inp true (bitsOf p.w2 5 5) else ([], x.2)
    (x.1 ++ y.1, y.2)
  else
    let minus := inp / 2 % 2 = 0
    let k := if minus then bitsOf p.w2 5 5 else bitsOf p.w2 0 5
    let own := s.get routeSlice_SLICE
    if p.slice.toNat = own && own ≠ 0 then
      let x := if s.mcFiltered p then ([], s.bump fabCntMcFilter_COUNT) else ([(voqKey inp 18 p.cls.toNat 0, p)], s)
      let y := if 1 < k then x.2.lineCopy p inp minus (k - 1) else ([], x.2)
      (x.1 ++ y.1, y.2)
    else if 1 < k then
      let a := bitsOf p.w2 14 2
      let e := s.extent a
      let last := withAxis s.coord a ((axisOf s.coord a + (if minus then 32 * e - (k - 1) else k - 1)) % e)
      let r := s.entryOf p.epoch last
      if p.slice ≠ 0 && bitsOf r.1 61 1 = 1 then (r.2.bump routeCntTransit_COUNT).lineCopy { p with cls := 6 } inp minus (k - 1)
      else ([], r.2.bump routeCntNotransit_COUNT)
    else ([], s)

/-- Queues the copies of a multicast packet: the first holds the packet's cells, each further one a reference to them. -/
def State.multicastIn (s : State) (d : Desc) : State :=
  let r := s.mcCopies d.pkt d.inPort
  match r.1 with
  | [] => r.2.release d.mid d.cells
  | (k, p) :: rest =>
    let mk := fun (k : Nat) (p : Pkt) (cells : List Nat) (s : State) =>
      { d with pkt := p, cells := cells, esc := false, since := s.now, mid := if voqOut k = 18 then 0x200 else d.mid }
    rest.foldl (fun s c =>
      let a := s.addRef d.cells
      a.1.join c.1 (mk c.1 c.2 (if a.2 then d.cells else []) a.1)) (r.2.join k (mk k p d.cells r.2))

/-! ## Routing a header (R228, R266, R279) -/

/-- Routes a packet that holds its cells: delivered, forwarded, refused or discarded. -/
def State.routeIn (s : State) (d : Desc) : State :=
  let d := { d with pkt := s.ownClass d.pkt }
  if d.pkt.spans then s.multicastIn d
  else
    let here := d.pkt.dst.toNat = s.coord || d.pkt.typ == tCONESYNC
    if !here && s.bankUnready d.pkt.epoch then (s.bump routeCntEpoch_COUNT).release d.mid d.cells
    else
      let r := if here then ((0 : W64), s) else s.entryOf d.pkt.epoch d.pkt.dst.toNat
      let s := r.2
      match s.verdict d.pkt r.1 with
      | .deliver port mid => s.join (voqKey d.inPort port d.pkt.cls.toNat 0) { d with mid := mid, since := s.now }
      | .forward => s.forward d none
      | .transit => (s.bump routeCntTransit_COUNT).forward { d with pkt := { d.pkt with cls := 6 } } none
      | .service => (match s.serviceOut d.pkt with
        | some o => s.join (voqKey d.inPort o d.pkt.cls.toNat 0) { d with since := s.now }
        | none => (s.bump routeCntNoroute_COUNT).discard d)
      | .refuse => (s.refuse d.inPort d.pkt).discard d
      | .drop f => (s.bump f).discard d

/-! ## Receiving a header (R211-R216, R225, R235, R251) -/

/-- Whether a TYPE may come in a class (R214, R280). -/
def classOk (p : Pkt) : Bool :=
  let c := p.cls.toNat
  if p.typ == tWRITE || p.typ == tREADREQ || p.typ == tREADRSP then c = 3 || c = 4 || c = 6
  else if p.typ == tMSG then c = 3 || c = 6
  else if p.typ == tRED || p.typ == tREDPART || p.typ == tREDRES || p.typ == tREPAIR then c = 2 || c = 6
  else if p.typ == tDONE then 2 ≤ c && c ≤ 6
  else if p.typ == tMGMT || p.typ == tROUTEUPD || p.typ == tFAULTNOTE then c = 0
  else if p.typ == tCONESYNC then c = 1
  else if p.typ == tMIRROR then c = 5 || c = 6
  else if p.typ == tTEST then c = 7 || c = 6
  else false

/-- Whether FORM agrees with TYPE and class (R211); in C6 it decides the form. -/
def formOk (p : Pkt) : Bool :=
  p.cls = 6 || p.form == (p.typ == tRED || p.typ == tREDPART || p.typ == tREDRES || p.typ == tREPAIR || (p.typ == tDONE && p.cls = 2))

/-- Whether a packet that arrives at a link port is malformed by its header (R11, R118, R119, R120, R215, R216, R235). FMT of the
memory form is not interpreted (R211; log 120). -/
def Pkt.malformed (p : Pkt) (port : Nat) : Bool :=
  !classOk p || !formOk p || decide (4096 < p.len) || decide (2 ≤ p.vc.toNat) || (decide (12 ≤ port) && p.vc ≠ 0)
    || (p.form && (p.fmt == 15 || decide (5 < p.op) || p.chunk / 2 ^ 14 % 4 == 3))
    || (p.form && (p.typ == tREDRES || p.typ == tDONE) && bitsOf p.w2 14 2 == 3)
    || (!p.form && (p.typ == tREADRSP || p.typ == tDONE) && decide (3 < p.op))

/-- The cells of a packet received on a link, under the credit that its sender spent; none where it held no credit (R248, R251). -/
def State.landCells (s : State) (port : Nat) (p : Pkt) : Option (List Nat × State) :=
  let j := 2 * p.cls.toNat + p.vc.toNat
  let n := p.cellCount
  if (s.link port).granted.get 0 j < n then none
  else
    let s := s.modLink port fun l => { l with granted := l.granted.modify 0 j (· - n) }
    s.alloc n (classPart p.cls.toNat) 0x203 (linkCharge port p.cls.toNat p.vc.toNat)

/-- A packet that a link port discards holds no cells: the credit that its sender spent, where it had one, is owed back at once (R193;
log entry 125). -/
def State.bounce (s : State) (port : Nat) (p : Pkt) : State :=
  let j := 2 * p.cls.toNat + p.vc.toNat
  if p.vc.toNat < 2 && p.cellCount ≤ (s.link port).granted.get 0 j then
    (s.modLink port fun l => { l with
      granted := l.granted.modify 0 j (· - p.cellCount)
      owed := l.owed.modify 0 j (· + p.cellCount) }).flushOwed port
  else s

/-- A packet at a link port that is neither malformed nor without credit receives its cells (R225). -/
def State.receiveAt (s : State) (port : Nat) (a : Arrival) : Option (Desc × State) × State :=
  if a.pkt.malformed port then (none, (s.bump (lnkCntMalformed_COUNT port)).bounce port a.pkt)
  else match s.landCells port a.pkt with
    | none => (none, s.bump fabCntOverrun_COUNT)
    | some (cells, s) =>
      let s := s.putPkt cells a.pkt
      (some (⟨a.pkt, a.body, cells, 32, port, 0x203, false, s.now⟩, s), s)

/-- Takes the packet at the head of what has arrived at a port. -/
def State.takeArrival (s : State) (port : Nat) : Option (Arrival × State) :=
  match s.arrivals.get [] port with
  | a :: t => some (a, { s with arrivals := s.arrivals.set [] port t })
  | [] => none

/-- The injecting master of a packet that enters at a local port (R245, R265). -/
def injMid (port : Nat) (p : Pkt) : Nat :=
  if port = 18 then 0x131 else if p.form then bitsOf p.w2 16 10 else p.flow % 1024

/-- PACKET_HEADER_ARRIVE (R228, R266, R279): ports 12 and 13 have SERVICE_PORT_INGRESS. -/
def execPacketHeaderArrive (port : Fin 20) (s : State) : Host.Outcome State Fault Refusal :=
  if port.val = 12 || port.val = 13 then .next s
  else match s.takeArrival port with
    | none => .next s
    | some (a, s) =>
      if 14 ≤ port.val then
        done (s.routeIn ⟨a.pkt, none, a.cells, a.off, port, injMid port a.pkt, false, s.now⟩)
      else match s.receiveAt port a with
        | (some (d, s), _) => done (s.routeIn d)
        | (none, s) => done s

/-- Whether a service port is open (R283). -/
def State.svcOpen (s : State) (port : Nat) : Bool := s.flag (if port = 12 then routeSvc_SV0_OPEN else routeSvc_SV1_OPEN)

/-- SERVICE_PORT_INGRESS (R283): a packet at a service port enters as a packet of this module in slice 0xFFE. -/
def execServicePortIngress (sv : Fin 2) (s : State) : Host.Outcome State Fault Refusal :=
  let port := 12 + sv.val
  match s.takeArrival port with
  | none => .next s
  | some (a, s) =>
    if !s.svcOpen port then done ((s.bump (lnkCntForeign_COUNT port)).bounce port a.pkt)
    else
      let t := a.pkt.typ
      if !(t == tMGMT || t == tROUTEUPD || t == tWRITE || t == tREADREQ || t == tMSG) then
        done ((s.bump (lnkCntMalformed_COUNT port)).bounce port a.pkt)
      else match s.receiveAt port a with
        | (some (d, s), _) =>
          let p := { d.pkt with slice := 0xFFE, src := BitVec.ofNat 14 s.coord, epoch := s.flag routeBank_ACTIVE,
                                age := BitVec.ofNat 24 (cone24 s.now), hops := 0, vc := 0 }
          done (s.routeIn { d with pkt := p })
        | (none, s) => done s

/-! ## Ageing (R239, R240) -/

/-- Whether a packet is aged. -/
def State.isAged (s : State) (p : Pkt) : Bool :=
  s.ageLimit < (cone24 s.now + 2 ^ 24 - p.age.toNat) % 2 ^ 24 * 64

/-- Discards the aged packets at the head of a VOQ. -/
def State.sweepVoq (s : State) (k : Nat) : Nat → State
  | 0 => s
  | fuel + 1 =>
    match s.voqs.get [] k with
    | d :: t =>
      if s.isAged d.pkt then
        (({ s with voqs := s.voqs.set [] k t }.bump (fabCntAged_COUNT d.pkt.cls.toNat)).discard d).sweepVoq k fuel
      else s
    | [] => s

/-- AGEING_SWEEP (R239). -/
def execAgeingSweep (s : State) : Host.Outcome State Fault Refusal :=
  done (s.voqs.foldl (fun s e => s.sweepVoq e.1 e.2.length) s)

/-! ## Arbitration (R230, R231, R236) -/

/-- Whether a packet from `inp` to output `o` is stored and forwarded (R236). -/
def State.stores (s : State) (inp o cls : Nat) : Bool :=
  decide (14 ≤ o) || (s.get (fabFwdMode_SAF (o / 7))).testBit (o % 7 * 8 + cls)
    || (decide (inp < 14) && decide (s.get (lnkStatus_RATE inp) < s.get (lnkStatus_RATE o)))

/-- Whether a link sends no new sequenced packets: it drains for a rate step whose check is still to come, for a retrain or for optics sleep
(R199, R200, R448). -/
def Link.drains (l : Link) : Bool :=
  l.retrain.isSome || l.sleepDrain || (match l.step with | some t => t.acked && t.mine.isNone | none => false)

/-- Whether the head of a VOQ can be granted: the whole packet is here where it is stored, and a link output has the credits,
beyond the escape reserve where the hop is no escape hop (R193, R230, R234). -/
def State.eligible (s : State) (k : Nat) (d : Desc) : Bool :=
  let o := voqOut k
  (d.body.isNone || !s.stores (voqIn k) o (voqCls k)) &&
    (decide (14 ≤ o) ||
      (s.usable (voqCls k) o && !(s.link o).drains &&
        decide (d.pkt.cellCount + (if o < 12 && !d.esc then 17 else 0) ≤ s.credit o (voqCls k) (voqVc k))))

/-- The eligible heads of an output's VOQs. -/
def State.heads (s : State) (o : Nat) : List (Nat × Desc) :=
  s.voqs.filterMap fun e => match e.2 with
    | d :: _ => if voqOut e.1 = o && s.eligible e.1 d then some (e.1, d) else none
    | [] => none

/-- The oldest head of a class. -/
def oldestHead (l : List (Nat × Desc)) (cls : Nat) : Option Desc :=
  (l.filter fun e => voqCls e.1 = cls).foldl (fun b e => match b with
    | some d => if e.2.since < d.since then some e.2 else b
    | none => some e.2) none

/-- Whether an account covers the oldest eligible head of a class; accounts are in units of 1/200 byte. -/
def covers (acct : Nat) (l : List (Nat × Desc)) (cls : Nat) : Bool :=
  match oldestHead l cls with
  | some d => 51200 * d.pkt.flitCount ≤ acct
  | none => false

/-- FLOOR of a class, in units of 0.5 %. -/
def State.floorOf (s : State) (cls : Nat) : Nat :=
  match cls with
  | 3 => s.get fabArb_FLOOR3
  | 4 => s.get fabArb_FLOOR4
  | 5 => s.get fabArb_FLOOR5
  | 6 => s.get fabArb_FLOOR6
  | _ => 0

/-- The class that an output grants (R230). -/
def State.grantClass (s : State) (o : Nat) (l : List (Nat × Desc)) : Option Nat :=
  let p := s.out o
  let has := fun c => l.any fun e => voqCls e.1 = c
  let within := covers p.cap6 l 6 || s.get fabArb_CAP6 = 200
  if has 0 then some 0
  else if has 1 then some 1
  else match [3, 4, 6, 5].find? fun c => has c && s.floorOf c ≠ 0 && covers (p.floor c) l c with
    | some c => some c
    | none => match [2, 3, 4, 6, 5, 7].find? fun c => has c && (c ≠ 6 || within) with
      | some c => some c
      | none => if has 6 then some 6 else none

/-- The next head of a class in round-robin order over (input port, VC) (R230). -/
def rrPick (l : List (Nat × Desc)) (cls last : Nat) : Option (Nat × Desc) :=
  let idx := fun (e : Nat × Desc) => voqIn e.1 * 2 + voqVc e.1
  let m := l.filter fun e => voqCls e.1 = cls
  match m.find? fun e => last < idx e with
  | some e => some e
  | none => m.head?

/-- One flit of a class on an output: the accounts of R231, of at most 16 KiB. -/
def State.flitAccount (s : State) (o cls : Nat) (p : OutPort) : OutPort :=
  let top := 16384 * 200
  let p := [3, 4, 5, 6].foldl (fun (p : OutPort) c =>
    let a := if s.waitingFor o c then min (p.floor c + s.floorOf c * 256) top else if c = cls then p.floor c else 0
    p.setFloor c (if c = cls then a - 51200 else a)) p
  let cap := min (p.cap6 + s.get fabArb_CAP6 * 256) top
  { p with cap6 := if cls = 6 then cap - 51200 else cap }

/-- The accounts after `n` flits of a class. -/
def State.flitAccounts (s : State) (o cls : Nat) (p : OutPort) : Nat → OutPort
  | 0 => p
  | n + 1 => s.flitAccounts o cls (s.flitAccount o cls p) n

/-- Counts a packet that fails its PCRC at the port that received it (R217). -/
def State.pcrcFail (s : State) (d : Desc) (crc : BitVec 32) : State :=
  if d.inPort < 14 then
    s.bump (if d.pkt.pcrc = crc ^^^ 0xFFFFFFFF then lnkCntStomp_COUNT d.inPort else lnkCntPcrc_COUNT d.inPort)
  else s

/-- MARK_THRESH (R241). -/
def State.markThresh (s : State) : Nat := if s.get fabMark_MARK_THRESH = 0 then 64 else s.get fabMark_MARK_THRESH

/-- Sets CM where R241 asks for it; `depth` is the VOQ's cells with the packet. -/
def State.mark (s : State) (d : Desc) (depth : Nat) : Desc × State :=
  let part := match d.cells with | c :: _ => (s.cell c).part | [] => classPart d.pkt.cls.toNat
  if !d.pkt.cm && (decide (s.markThresh < depth) || decide (1 ≤ s.get (poolOcc_LEVEL part))) then
    ({ d with pkt := { d.pkt with cm := true } }, s.bump fabCntMarked_COUNT)
  else (d, s)

/-- OUTPUT_GRANT (R230, R239-R241, R246): a free output grants one head; the packet is discarded, or its transmission begins. -/
def execOutputGrant (port : Fin 20) (s : State) : Host.Outcome State Fault Refusal :=
  let o := port.val
  if (s.out o).sending.isSome then .next s
  else
    let l := s.heads o
    match s.grantClass o l with
    | none => .next s
    | some cls => match rrPick l cls ((s.out o).rr.get 39 cls) with
      | none => .next s
      | some (k, d) =>
        let q := s.voqs.get [] k
        let s := { s with voqs := s.voqs.set [] k (q.drop 1) }
        let s := s.setOut o { s.out o with rr := (s.out o).rr.set 39 cls (voqIn k * 2 + voqVc k) }
        if s.isAged d.pkt then done ((s.bump (fabCntAged_COUNT cls)).discard d)
        else if o < 14 && d.pkt.hops = 63 then done ((s.bump fabCntHops_COUNT).discard d)
        else
          let p := if d.body.isNone then s.livePkt d.pkt d.cells d.off else d.pkt
          if s.stores (voqIn k) o cls && s.cellsBad d.cells then done ((s.bump poolCntUncorr_COUNT).discard d) else
          let crc := crc32c (p.payload.take p.carried)
          if s.stores (voqIn k) o cls && crc ≠ p.pcrc then done ((s.pcrcFail d crc).discard d)
          else
            let m := s.mark { d with pkt := p } (cellsOf q)
            let s := m.2
            let s := if o < 14 then s.modLink o fun l => { l with credits := l.credits.modify 0 (2 * cls + voqVc k) (· - p.cellCount) }
              else s
            done (s.setOut o { s.flitAccounts o cls (s.out o) p.flitCount with sending := some m.1 })

/-- ESC_WAIT_EXPIRY (R267): a head without credit on an output that is no escape hop moves to the tail of an escape link's VOQ. -/
def execEscWaitExpiry (inp out : Fin 20) (cls : Fin 8) (vc : Fin 2) (s : State) : Host.Outcome State Fault Refusal :=
  let k := voqKey inp out cls vc
  match s.voqs.get [] k with
  | d :: t =>
    if out.val < 12 && !d.pkt.ord && !d.esc && !d.pkt.spans && !s.eligible k d then
      let r := s.entryOf d.pkt.epoch d.pkt.dst.toNat
      let s := r.2
      let esc := (s.escLinks r.1 cls).1
      (match esc[(s.flowHash d.pkt).toNat % 2 % esc.length]? with
        | some o =>
          let s := { s with voqs := s.voqs.set [] k t }.bump routeCntEscape_COUNT
          done (s.join (voqKey inp o cls (s.hopVc d.pkt.vc.toNat inp o)) { d with esc := true, since := s.now })
        | none => done s)
    else .next s
  | [] => .next s

/-! ## The end of a transmission (R208, R244, R292) -/

/-- The data fields of a packet's flits: 232 bytes each, zero after the payload. -/
def flitFields (b : List Byte) : Nat → List (List Byte)
  | 0 => []
  | n + 1 => (b.take 232 ++ List.replicate (232 - (b.take 232).length) 0) :: flitFields (b.drop 232) n

/-- FTYPE of flit `i` of `n` (R191, R208). -/
def packetFtype (i n : Nat) : Nat := if n = 1 then 0x8 else if i = 0 then 0x9 else if i + 1 = n then 0xB else 0xA

/-- The flits of a packet from a sequence number on. -/
def packetFlits (p : Pkt) (seq : Nat) (owner : Desc) : List TxFlit :=
  let fs := flitFields (p.header ++ p.payload.take p.carried) p.flitCount
  fs.zipIdx.map fun x => ⟨(seq + x.2) % 4096, packetFtype x.2 fs.length, x.1, some owner⟩

/-- Sequenced flits enter a link's replay buffer and are sent. -/
def State.sendFlits (s : State) (i : Nat) (l : List TxFlit) : State :=
  s.modLink i fun k => { k with replay := k.replay ++ l, txNext := (k.txNext + l.length) % 4096 }

/-- Whether the units of port 19 take a management packet: one with a reserved encoding is malformed (false); one that is well formed but
meant for no unit here is taken by none (log entry 43). -/
def Pkt.kindOk (p : Pkt) : Bool :=
  let b0 := (p.payload.headD 0).toNat
  if p.typ == tROUTEUPD then (1 ≤ b0 && b0 ≤ 5) || (0x81 ≤ b0 && b0 ≤ 0x85)
  else if p.typ == tMGMT then 1 ≤ b0 && b0 ≤ 4 && 16 ≤ p.payload.length && (b0 != 1 || p.payload.length == 80)
  else if p.typ == tFAULTNOTE then 1 ≤ b0 && b0 ≤ 0x0B && p.payload.length == 64
  else true

/-- Whether some unit of port 19 takes a management packet: no ROUTE_UPD answer, and no CMD_ACK or NOTICE that is not for the host. -/
def Pkt.kindTaken (p : Pkt) : Bool :=
  let b0 := (p.payload.headD 0).toNat
  if p.typ == tROUTEUPD then b0 ≤ 5
  else if p.typ == tMGMT then b0 = 1 || b0 = 4 || (p.payload.getD 1 0).getLsbD 0
  else true

/-- Hands a packet to the unit of a local port; one of no use there is discarded (R216). -/
def State.hand (s : State) (o : Nat) (d : Desc) : State :=
  if !d.pkt.kindOk then (if d.inPort < 14 then s.bump (lnkCntMalformed_COUNT d.inPort) else s)
  else if !d.pkt.kindTaken then s
  else { s with delivered := s.delivered.modify [] o (· ++ [d]) }

/-- The packet that a link sends: with the stomped PCRC, and counted, where a cell's data was uncorrectable (R246). -/
def State.cutPkt (s : State) (d : Desc) : Pkt × State :=
  if s.cellsBad d.cells then
    ({ d.pkt with pcrc := crc32c (d.pkt.payload.take d.pkt.carried) ^^^ 0xFFFFFFFF }, s.bump poolCntUncorr_COUNT)
  else (d.pkt, s)

/-- PACKET_TX_DONE (R20, R244, R246, R292): the whole packet has left the output. On a link its flits wait in the replay buffer for their
acknowledgement, and the transmission waits for replay slots; a local packet is handed to the unit of the port, where its cells
read well and a die port carries it. -/
def execPacketTxDone (port : Fin 20) (s : State) : Host.Outcome State Fault Refusal :=
  let o := port.val
  match (s.out o).sending with
  | none => .next s
  | some d =>
    if d.body.isSome then .next s
    else
      let free := s.setOut o { s.out o with sending := none }
      if 14 ≤ o && s.cellsBad d.cells then done ((free.bump poolCntUncorr_COUNT).discard d)
      else if 14 ≤ o && o < 18 && 5 ≤ s.dieErr.get 0 (o - 14) then done { s with fenceReq := some (0, o - 14) }
      else if 14 ≤ o then
        let keep := o = 18 || d.pkt.typ == tMIRROR
        let e := if keep then d else { d with cells := [] }
        let s := free.hand o e
        let s := if keep then s else s.release d.mid d.cells
        done (if d.inPort = 18 && d.pkt.typ == tREDPART then s.partSent d.pkt.coll d.pkt.chunk else s)
      else if (s.link o).drains || 2048 < (s.link o).replay.length + d.pkt.flitCount then .next s
      else
        let r := (s.cutPkt d).2.coneStamp o (s.cutPkt d).1
        let s := r.2
        let p := { r.1 with hops := d.pkt.hops + 1, vc := BitVec.ofNat 2 (s.hopVc d.pkt.vc.toNat d.inPort o) }
        let owner := { d with pkt := { d.pkt with hops := d.pkt.hops + 1 }, inPort := if d.inPort = 18 then 19 else d.inPort }
        let s := (s.setOut o { s.out o with sending := none }).sendFlits o (packetFlits p (s.link o).txNext owner)
        let s := s.modLink o fun l => { l with flits := l.flits + d.pkt.flitCount }
        done (s.discard d)

end Sys2Proof.Machine
end

