-- ==== Sys2Proof/Machine/Inject.lean ====
section
/-!
DEFINITION. Machine/Inject.lean: injection points (R213, R242, R250, R265, R278, R295): stamping, throttling, numbering and the
cells of a packet that a local unit sends; retransmission (R298); and the windows of R242 and R270.
-/
namespace Sys2Proof.Machine

/-! ## Kinds of packet -/

/-- The requests that R295 numbers. -/
def Pkt.isRequest (p : Pkt) : Bool := p.typ == tWRITE || p.typ == tREADREQ || p.typ == tMIRROR

/-- An answer (R215). -/
def Pkt.isAnswer (p : Pkt) : Bool := p.typ == tREADRSP || (p.typ == tDONE && !p.form)

/-- Whether throttling applies (R242). -/
def Pkt.throttled (p : Pkt) : Bool := !p.isAnswer && decide (3 ≤ p.cls.toNat) && decide (p.cls.toNat ≤ 5)

/-! ## Throttling (R242) -/

/-- The full rate, 232 GB/s, in units of 0.58 GB/s. -/
def fullRate : Nat := 400

/-- The throttle entry of a point for a destination. -/
def State.throttle (s : State) (point dst : Nat) : Option Throttle := Tab.find (s.throttles.get [] point) dst

/-- Whether a point may send to a destination in the running window: fewer bytes sent than its rate gives in CWIN. -/
def State.mayThrottle (s : State) (point dst : Nat) : Bool :=
  match s.throttle point dst with
  | some t => decide (t.sent < t.rate * 58 * s.get fabCong_CWIN)
  | none => true

/-- Counts the bytes that a point sends to a throttled destination. -/
def State.throttleSent (s : State) (point dst n : Nat) : State :=
  match s.throttle point dst with
  | some t => { s with throttles := s.throttles.modify [] point (Tab.insert · dst { t with sent := t.sent + n }) }
  | none => s

/-- The destination with the highest rate in a throttle table, the lowest of equals. -/
def highestRate (t : Tab Throttle) : Nat :=
  (t.foldl (fun (b : Nat × Nat) e => if b.2 < e.2.rate then (e.1, e.2.rate) else b) (0, 0)).1

/-- An answer from `dst` with CM = 1 (R242). -/
def State.throttleCut (s : State) (point dst : Nat) : State :=
  let t : Tab Throttle := s.throttles.get [] point
  let t : Tab Throttle := if (Tab.find t dst).isNone && 32 ≤ t.length then Tab.erase t (highestRate t) else t
  let e := (Tab.find t dst).getD ⟨fullRate, 0, false, 0⟩
  let e := if e.tcut + s.get fabCong_CWIN * 100 ≤ s.now then
      { e with rate := max (e.rate - e.rate / 2 ^ s.get fabCong_MD_SHIFT) (s.get fabCong_MINRATE), tcut := s.now }
    else e
  { s with throttles := s.throttles.set [] point (Tab.insert t dst { e with marked := true }) }

/-- The end of a CWIN for one throttle table: a destination without a marked answer gains INC and is released at the full rate. -/
def windowEnd (inc : Nat) (t : Tab Throttle) : Tab Throttle :=
  t.filterMap fun e =>
    let r := if e.2.marked then e.2.rate else e.2.rate + inc
    if !e.2.marked && fullRate ≤ r then none else some (e.1, { e.2 with rate := r, marked := false, sent := 0 })

/-- THROTTLE_WINDOW (R242). -/
def execThrottleWindow (s : State) : Host.Outcome State Fault Refusal :=
  .next { s with throttles := (s.throttles.map fun e => (e.1, windowEnd (s.get fabCong_INC) e.2)).filter fun e => e.2 ≠ [] }

/-! ## Answers to asynchronous operations (R93, R295, R311) -/

/-- One packet that a move slot waits for is answered, or refused: the first status other than OK stands, with its address. -/
def State.answerSlot (s : State) (cl k status addr : Nat) : State :=
  let m := s.slot cl k
  match m.op with
  | some o =>
    let first := o.answer = 0
    s.setSlot cl k { m with op := some { o with
      waiting := o.waiting - 1
      answer := if first then status else o.answer
      addr := if first then addr else o.addr } }
  | none => s

/-- The operation of a packet that a move slot waits for ends with a status (R93, R309): a MIRROR that fails is recorded as
MIRROR_FAIL, once for each operation. -/
def State.slotAnswer (s : State) (cl k : Nat) (p : Pkt) (status : Nat) : State :=
  match (s.slot cl k).op, s.mirror.bind with
  | some o, some b =>
    let s := if o.kind = .mirror && status ≠ 0 && o.answer = 0 then
        let half := (b.half + 1) * 4096
        let off := (p.addr + 2 ^ 48 - b.buddyBase) % half
        { s with mirror := { s.mirror with bad := o.gen :: s.mirror.bad } }.faultLocal 0x08 cl o.gen (BitVec.ofNat 64 status)
          (BitVec.ofNat 64 (off - 4096))
      else s
    s.answerSlot cl k status p.addr
  | _, _ => s.answerSlot cl k status p.addr

/-! ## Injection -/

/-- The packet as it is injected (R210, R213, R265, R278). -/
def State.stamp (s : State) (i : Inj) : Pkt :=
  { i.pkt with
    epoch := s.flag routeBank_ACTIVE
    src := BitVec.ofNat 14 s.coord
    slice := if i.fixed then i.pkt.slice else BitVec.ofNat 12 (s.get routeSlice_SLICE)
    age := if i.aged then i.pkt.age else BitVec.ofNat 24 (cone24 s.now)
    hops := 0
    vc := 0 }

/-- Whether an injection is refused (R278): it would be stamped 0x000, or its entry does not allow it. -/
def State.injRefused (s : State) (p : Pkt) : Bool :=
  p.slice = 0 || (!p.spans &&
    match s.verdict p (s.entryOf p.epoch p.dst.toNat).1 with
    | .refuse | .drop _ => true
    | _ => false)

/-- The counter that numbers a packet's FLOW: requests as R295 has it, MSG packets apart from them (log entry 11). -/
def psqKey (p : Pkt) : Nat := if p.typ == tMSG then 0x10000 + p.flow else p.flow

/-- Numbers a new request and keeps it until it is answered (R295, R298). -/
def State.number (s : State) (point : InjPoint) (i : Inj) (p : Pkt) : Pkt × State :=
  if !(p.isRequest || p.typ == tMSG) then (p, s)
  else if i.again then
    (p, { s with requests := s.requests.map fun r =>
      if r.point = point && r.pkt.coll = p.coll && r.pkt.chunk = p.chunk then { r with since := s.now, tries := r.tries + 1 } else r })
  else
    let n := s.psq.get 0 (psqKey p)
    let p := { p with w1 := setBits p.w1 28 24 n }
    let cl := match point with | .cluster n => n.val | _ => 128
    (p, { s with psq := s.psq.set 0 (psqKey p) ((n + 1) % 2 ^ 24), requests := s.requests ++ [⟨p, point, s.now, 0, cl, i.slot⟩] })

/-- The cells of an injected packet (R244, R250): a kiln output's group, or cells of its class's local share, INJ for C2; an
answer may take those kept for answers. -/
def State.injCells (s : State) (point : InjPoint) (i : Inj) (p : Pkt) : Option (List Nat × Nat × State) :=
  match i.group with
  | some g => some (groupCells g, 0, s)
  | none =>
    let part := classPart p.cls.toNat
    let mid := injMid (injPort point) p
    match s.alloc p.cellCount part mid (if part = 0 then 2 else 0) with
    | some (cs, t) => some (cs, 32, t)
    | none =>
      if p.isAnswer && part = 1 then
        (match s.alloc p.cellCount part mid 1 with
          | some (cs, t) => some (cs, 32, t)
          | none => none)
      else none

/-- Tries to inject a packet: none where it waits at its source (R242, R249, R250, R295). A refused one is dropped and its
master receives DENIED (R278). -/
def State.tryInject (s : State) (point : InjPoint) (i : Inj) : Option State :=
  let p := s.stamp i
  let key := injKey point
  if s.injRefused p then
    let s := match i.group with | some g => s.release 0x131 (groupCells g) | none => s
    match i.slot, point with
    | some k, .cluster n => some (s.slotAnswer n k p rDENIED)
    | _, _ => some (s.accessErr (injMid (injPort point) p) p.addr rDENIED)
  else if i.group.isNone && s.withheld p.cls.toNat then none
  else if p.throttled && !s.mayThrottle key p.dst.toNat then none
  else if p.isRequest && !i.again && 64 ≤ s.requests.countP (fun r => r.pkt.isRequest && r.pkt.flow = p.flow && r.point = point) then none
  else match s.injCells point i p with
    | none => none
    | some (cs, off, s) =>
      let r := s.number point i p
      let p := r.1
      let s := if off = 0 then r.2 else r.2.putPkt cs p
      let s := if p.throttled then s.throttleSent key p.dst.toNat (32 + p.carried) else s
      some { s with arrivals := s.arrivals.modify [] (injPort point) (· ++ [⟨p, none, cs, off⟩]) }

/-- Whether two packets keep their order (R265). -/
def sameFlow (a b : Pkt) : Bool :=
  a.dst = b.dst && a.typ = b.typ && (if a.form then bitsOf a.w2 16 16 else a.flow) = (if b.form then bitsOf b.w2 16 16 else b.flow)

/-- Injects the first packet of a point's queue that can leave without passing another of its flow. -/
def State.injectFirst (s : State) (point : InjPoint) (pre : List Inj) : List Inj → Option State
  | [] => none
  | i :: rest =>
    if pre.any fun j => sameFlow j.pkt i.pkt then s.injectFirst point (pre ++ [i]) rest
    else match { s with injq := s.injq.set [] (injKey point) (pre ++ rest) }.tryInject point i with
      | some t => some t
      | none => s.injectFirst point (pre ++ [i]) rest

/-- PACKET_INJECT (R213, R242, R250, R265, R278, R295). -/
def execPacketInject (point : InjPoint) (s : State) : Host.Outcome State Fault Refusal :=
  match s.injectFirst point [] (s.injq.get [] (injKey point)) with
  | some t => done t
  | none => .next s

/-- Removes a request that is answered or given up. -/
def State.dropReq (s : State) (r : Req) : State := { s with requests := s.requests.erase r }

/-- REQUEST_RETRANSMIT (R298, R309): a request without an answer for AGE_LIMIT + 1 ms is sent again with its TAG and PSEQ; a
TX.MIRROR gives up with DECERR when the third retransmission goes unanswered. -/
def execRequestRetransmit (tag : BitVec 12) (pseq : BitVec 24) (s : State) : Host.Outcome State Fault Refusal :=
  match s.requests.find? fun r => r.pkt.coll = tag.toNat && r.pkt.chunk = pseq.toNat with
  | some r =>
    let queued := (s.injq.get [] (injKey r.point)).any fun i => i.again && i.pkt.coll = tag.toNat && i.pkt.chunk = pseq.toNat
    if s.now < r.since + s.ageLimit + 1000000 || queued then .next s
    else match r.slot with
      | some k =>
        if r.pkt.typ == tMIRROR && 3 ≤ r.tries then .next ((s.dropReq r).slotAnswer r.cl k r.pkt rDECERR)
        else
          let s := if r.pkt.typ == tMIRROR then s.recount 6 else s
          .next (s.inject (injKey r.point) ⟨r.pkt, true, false, r.slot, none, true⟩)
      | none =>
        let s := if r.pkt.typ == tMIRROR then s.recount 6 else s
        .next (s.inject (injKey r.point) ⟨r.pkt, true, false, r.slot, none, true⟩)
  | none => .next s

/-! ## The balance of the parallel links (R270) -/

/-- Flits that a link carries in 1 ms at its rate (R185). -/
def State.flitsPerMs (s : State) (i : Nat) : Nat := 1000000 / s.slowness i

/-- Whether the window that ends was imbalanced for a direction (R270). -/
def State.imbalanced (s : State) (dir : Nat) : Bool :=
  let a := s.link (2 * dir)
  let b := s.link (2 * dir + 1)
  let hi := max a.flits b.flits
  let lo := min a.flits b.flits
  a.glostAll && b.glostAll && s.get (lnkStatus_RATE (2 * dir)) = s.get (lnkStatus_RATE (2 * dir + 1))
    && decide (3 * lo < 2 * hi) && decide (s.flitsPerMs (2 * dir) ≤ 10 * hi)

/-- IMB_TIME in windows of 1 ms. -/
def State.imbTime (s : State) : Nat := if s.get routeSpread_IMB_TIME = 0 then 10 else s.get routeSpread_IMB_TIME

/-- The end of a window for one direction. -/
def State.spreadDir (s : State) (dir : Nat) : State :=
  if s.imbalanced dir then
    let n := s.spreadBad.get 0 dir + 1
    if n < s.imbTime then { s with spreadBad := s.spreadBad.set 0 dir n }
    else
      let a := (s.link (2 * dir)).flits
      let b := (s.link (2 * dir + 1)).flits
      let s := { s with spreadBad := s.spreadBad.set 0 dir 0 }
      let s := (s.put routeImb_LATCH (s.get routeImb_LATCH ||| 2 ^ dir)).put routeImb_PEND 1
      s.logNotice 0x0602 0x3FE dir (BitVec.ofNat 64 (max a b)) (BitVec.ofNat 64 (min a b))
  else { s with spreadBad := s.spreadBad.set 0 dir 0 }

/-- SPREAD_WINDOW (R270): a window of 1 ms ends. -/
def execSpreadWindow (s : State) : Host.Outcome State Fault Refusal :=
  let s := (List.range 6).foldl State.spreadDir s
  done ((List.range 14).foldl (fun s i => s.modLink i fun l => { l with flits := 0, glostAll := s.lnk i = lkGLOST }) s)

end Sys2Proof.Machine
end

