-- ==== Sys2Proof/Machine/LinkCtl.lean ====
section
/-!
DEFINITION. Machine/LinkCtl.lean: the link controller's state changes (R195-R207, R302-R303): entering and leaving the states of R198,
IDENT and the neighbour checks, rate steps, retrain, hand-back and what a link's fall makes known.
-/
namespace Sys2Proof.Machine

/-! ## Replay buffer (R192, R195, R292) -/

/-- Flits unacknowledged. -/
def Link.unack (l : Link) : Nat := (l.txNext + 4095 - l.released) % 4096

/-- Drops the flits whose packet is acknowledged whole (R292). -/
def Link.trim (l : Link) : Link :=
  let n := l.replay.length - l.unack
  let acked := l.replay.take n
  let keep := (acked.reverse.takeWhile fun f => f.ftype = 0x9 || f.ftype = 0xA).reverse
  { l with replay := keep ++ l.replay.drop n }

/-- Takes an ACK (R192): values behind the released point are ignored. -/
def Link.takeAck (l : Link) (a : Nat) : Link :=
  let d := (a + 4096 - l.released) % 4096
  if 0 < d && d ≤ l.unack then { l with released := a, sameCount := 0 }.trim else l

/-- A controller that starts again: only what outlasts the link's traffic is kept. -/
def Link.restart (l : Link) : Link :=
  { Link.reset with cached := l.cached, leftGlost := l.leftGlost, downNoted := l.downNoted, cs := l.cs, lit := l.lit }

/-- UNACK of LNK.STATUS. -/
def State.unack (s : State) (i : Nat) : Nat := (s.link i).unack

/-! ## Sending link control frames (R191, R202-R204) -/

/-- Sends a link control flit. The places of a rate code and of a result after the subtype are not in the spec: byte 1 (log
entry 31). -/
def State.sendCtrl (s : State) (i sub : Nat) (body : List Byte) : State :=
  let d := (BitVec.ofNat 8 sub :: body).take 232
  s.sendFlits i [⟨(s.link i).txNext, 0x5, d ++ List.replicate (232 - d.length) 0, none⟩]

/-- The data of an IDENT after its subtype (R202). -/
def State.identBody (s : State) (i : Nat) (seen : Bool) : List Byte :=
  let bridge := !s.topo.valid || s.power.slotId.toNat = s.topo.bridgeSlot
  bytesLE 1 (seen.toNat + 2 * s.get routeCoord_ASSIGNED + 4 * bridge.toNat) ++ [2, 1] ++ bytesLE 4 0x4a4b0007 ++
    bytesLE 8 (s.rd sysSerial).toNat ++ bytesLE 2 s.coord ++ bytesLE 1 i ++ [0] ++ bytesLE 4 Config.fwVersion.toNat ++
    bytesLE 4 0x70F ++ bytesLE 1 (s.get (lnkCtrl_MAXRATE i)) ++ [0] ++ bytesLE 2 (s.get routeSlice_SLICE) ++ bytesLE 16 s.topo.hash.toNat

/-- Sends an IDENT. -/
def State.sendIdent (s : State) (i : Nat) (seen : Bool) : State :=
  let s := s.sendCtrl i 0x01 (s.identBody i seen)
  s.modLink i fun l => { l with identSent := true, identSeenSent := l.identSeenSent || seen }

/-- A fresh IDENT on every link where the peer is known, when ROUTE.SLICE has changed (R204). -/
def State.sendIdents (s : State) : State :=
  (List.range 14).foldl (fun s i => if lkBISQUE ≤ s.lnk i && s.lnk i ≤ lkMISWIRED then s.sendIdent i true else s) s

/-! ## What a link's state makes known (R199, R302, R303) -/

/-- The DEGRADED overlay's link cause: a link in GLOST below its target rate (R199, R390). -/
def State.degrLinks (s : State) : State :=
  s.degrCause 0 ((List.range 14).any fun i => s.lnk i = lkGLOST && s.flag (lnkStatus_DEGRADED i))

/-- The neighbour's coordinate in a direction. -/
def State.neighbourCoord (s : State) (dir : Nat) : Nat :=
  let a := dir / 2
  let e := s.extent a
  withAxis s.coord a ((axisOf s.coord a + (if dir % 2 = 0 then 1 else e - 1)) % e)

/-- A fault record about the peer of a link. -/
def State.peerFault (s : State) (kind sev i subject : Nat) (w4 w5 : W64) : List W64 × State :=
  s.fault kind sev 0x3FE subject (s.get (lnkPeerInfo_SLICE i)) i (s.rd (lnkPeerSerial i)) w4 w5 0

/-- The members on a link's axis line through this module (R302). -/
def State.lineMembers (s : State) (i : Nat) : List Nat :=
  if 12 ≤ i then []
  else (s.members s.coord).filter fun c => withAxis c (i / 4) 0 = withAxis s.coord (i / 4) 0

/-- Sends a PROBE to a suspected neighbour (R303). -/
def State.sendProbe (s : State) (dir : Nat) : State :=
  match s.suspects.find dir with
  | some m =>
    let f := s.peerFault 0x03 0 (2 * dir) m.coord 0 0
    f.2.sendNote m.coord f.1
  | none => s

/-- A suspicion begins when both links of a direction have left GLOST (R303); a module never suspects itself. -/
def State.suspectDir (s : State) (dir : Nat) : State :=
  let m := s.neighbourCoord dir
  if s.lnk (2 * dir) ≠ lkGLOST && s.lnk (2 * dir + 1) ≠ lkGLOST && m ≠ s.coord && (s.suspects.find dir).isNone then
    { s with suspects := s.suspects.insert dir ⟨m, s.now⟩ }.sendProbe dir
  else s

/-- Puts the packet that an output was sending back at the head of its VOQ. -/
def State.unsend (s : State) (o : Nat) : State :=
  match (s.out o).sending with
  | some d =>
    (s.setOut o { s.out o with sending := none }).joinAt (voqKey d.inPort o d.pkt.cls.toNat (s.hopVc d.pkt.vc.toNat d.inPort o)) 0 d
  | none => s

/-- What follows when a link has left GLOST (R199, R229, R270, R303): `s` already holds its new state. -/
def State.leftGlost (s : State) (i : Nat) : State :=
  let s := s.modLink i fun l => { l with leftGlost := s.now, glostAll := false, cs := { l.cs with seen := false } }
  let s := ((s.setFlag (lnkStatus_DEGRADED i) false).degrLinks).coneReview
  if i < 12 then s.suspectDir (i / 2) else s

/-! ## Entering states (R198) -/

/-- LNK.TEST with LOOP in force. -/
def State.enterTest (s : State) (i : Nat) : State :=
  let s := (s.put (lnkStatus_STATE i) lkTEST).put (lnkStatus_RATE i) (s.get (lnkCtrl_MAXRATE i))
  let s := (s.put (lnkTest_LOCK i) 0).modLink i Link.restart
  if s.get (lnkCtrl_LOOP i) = 3 then (s.sendCtrl i 0x05 [BitVec.ofNat 8 (s.get (lnkStatus_RATE i))]).modLink i fun l => { l with feSent := true }
  else s

/-- DARK, or TEST where LOOP is not 0 (R198, R220). -/
def State.enterDark (s : State) (i : Nat) : State :=
  if s.get (lnkCtrl_LOOP i) ≠ 0 then s.enterTest i
  else
    let s := (((s.put (lnkStatus_STATE i) lkDARK).put (lnkStatus_RATE i) 0).put (lnkStatus_INCOMPATIBLE i) 0).put (lnkPeerInfo_VALID i) 0
    s.modLink i Link.restart

/-- The allowance of a (class, VC) on a link port (R248). -/
def State.allowance (s : State) (i j : Nat) : Nat :=
  if i < 12 then s.get (fabAllow_TORUS (j / 2)) else if j % 2 = 0 then s.get (fabAllow_SERVICE (j / 2)) else 0

/-- BISQUE at a rate: SEQ starts at 0, every credit count at zero, and IDENT is sent (R193, R198, R203). -/
def State.enterBisque (s : State) (i rate : Nat) : State :=
  let s := ((s.put (lnkStatus_STATE i) lkBISQUE).put (lnkStatus_RATE i) rate).put (lnkStatus_INCOMPATIBLE i) 0
  let owed : Tab Nat := (List.range 16).foldl (fun t j =>
    t.set 0 j (s.allowance i j - s.chargeUse (classPart (j / 2)) (16 + 16 * i + j))) []
  let s := s.modLink i fun l => let k := l.restart; { k with fast := l.fast, lastRate := l.lastRate, owed := owed }
  (s.flushOwed i).sendIdent i false

/-- The target rate (R199): the highest code that MAXRATE, the peer's RATE_MAX and both CAPS allow. -/
def State.targetRate (s : State) (i : Nat) : Nat :=
  ((List.range 4).filter fun c => c ≤ s.get (lnkCtrl_MAXRATE i) && c ≤ s.get (lnkPeerInfo_RATE_MAX i)
    && (s.link i).peer.caps.testBit c).foldl max 0

/-- Whether this end leads: it has the lower (serial, port) pair (R199). -/
def State.leads (s : State) (i : Nat) : Bool :=
  let a := (s.rd sysSerial).toNat
  let b := (s.rd (lnkPeerSerial i)).toNat
  decide (a < b) || (a = b && decide (i < s.get (lnkPeerInfo_PORT i)))

/-- GLOST at a rate (R199, R302, R303). -/
def State.enterGlost (s : State) (i rate : Nat) : State :=
  let low := decide (rate < s.targetRate i)
  let s := ((s.put (lnkStatus_STATE i) lkGLOST).put (lnkStatus_RATE i) rate).setFlag (lnkStatus_DEGRADED i) low
  let s := (if low then s.bump (lnkCntDegraded_COUNT i) else s).degrLinks
  let s := s.modLink i fun l => { l with
    cached := l.cached.insert rate (s.rd (lnkPeerSerial i), s.get (lnkPeerInfo_PORT i)), lastRate := some rate, fast := none, step := none }
  let s := if i < 12 then { s with suspects := s.suspects.erase (i / 2) }.put (coneDelay_VALID i) 0 else s
  let s := (s.flushOwed i).coneReview
  if (s.link i).downNoted then
    let f := (s.modLink i fun l => { l with downNoted := false }).peerFault 0x02 0 i (s.get (lnkPeerInfo_COORD i))
      (BitVec.ofNat 64 (rate + 4 * low.toNat)) 0
    f.2.fanOut f.1 (f.2.lineMembers i)
  else s

/-- Begins the step to a rate code: the leader sends RATE_REQ (R199). -/
def State.beginStep (s : State) (i code : Nat) : State :=
  if s.leads i then (s.sendCtrl i 0x02 [BitVec.ofNat 8 code]).modLink i fun l => { l with step := some ⟨code, false, none, none⟩ }
  else s.modLink i fun l => { l with step := none }

/-- STEP, or GLOST at once after a fast retrain or at target rate 0 (R199, R200). -/
def State.enterStep (s : State) (i : Nat) : State :=
  match (s.link i).fast with
  | some r => s.enterGlost i r
  | none =>
    if s.targetRate i = 0 then s.enterGlost i 0
    else ((s.put (lnkStatus_STATE i) lkSTEP).modLink i fun l => { l with passed := 0 }).beginStep i 1

/-- A link that fails a check of VERIFY (R205, R206): a log record with the observed and the expected fields. -/
def State.checkFailed (s : State) (i reason code : Nat) (st : Nat) : State :=
  let s := if reason = 0 then s else s.put (lnkStatus_REASON i) reason
  let s := (s.put (lnkStatus_STATE i) st).modLink i fun l => { l with fast := none }
  s.logEv (code + 0x100 * i) 0x3FE (s.get (lnkStatus_REASON i)) (s.rd (lnkPeerInfo i)) (s.rd (lnkExpect i))

/-- VERIFY makes its checks in order (R205). -/
def State.verify (s : State) (i : Nat) : State :=
  let s := s.put (lnkStatus_STATE i) lkVERIFY
  let cls := s.get (lnkPeerInfo_DEVCLASS i)
  let any := s.flag (lnkExpect_ANY i)
  if s.get (lnkPeerInfo_MAJOR i) ≠ 1 then (s.put (lnkStatus_INCOMPATIBLE i) 1).checkFailed i 0 0x1002 lkBISQUE
  else if (if any then cls = 0 else cls ≠ s.get (lnkExpect_DEVCLASS i)) then s.checkFailed i 7 0x1001 lkMISWIRED
  else if cls = 0 && !any && (s.get (lnkPeerInfo_COORD i) ≠ s.get (lnkExpect_COORD i)
      || s.get (lnkPeerInfo_PORT i) ≠ s.get (lnkExpect_PORT i)) then s.checkFailed i 8 0x1001 lkMISWIRED
  else if cls = 0 && ((s.link i).peer.topoHash ≠ s.topo.hash || !s.topo.valid) && !s.flag (lnkExpect_NOHASH i) then s.checkFailed i 9 0x1001 lkMISWIRED
  else s.enterStep i

/-- ACCEPT_OBSERVED (R206). -/
def State.acceptObserved (s : State) (i : Nat) : State :=
  let s := (((s.put (lnkExpect_COORD i) (s.get (lnkPeerInfo_COORD i))).put (lnkExpect_PORT i) (s.get (lnkPeerInfo_PORT i))).put
    (lnkExpect_DEVCLASS i) (s.get (lnkPeerInfo_DEVCLASS i))).put (lnkExpect_ANY i) 0
  (if s.get (lnkStatus_REASON i) = 9 then s.put (lnkExpect_NOHASH i) 1 else s).verify i

/-! ## Packets being received (R208, R217) -/

/-- Replaces a payload that was arriving by its end, wherever the packet is: waiting for its header's routing, queued, or being
sent. -/
def State.endBody (s : State) (body : Nat) (f : Pkt → Pkt) : State :=
  let arr := fun (a : Arrival) => if a.body = some body then { a with pkt := f a.pkt, body := none } else a
  let dsc := fun (d : Desc) => if d.body = some body then { d with pkt := f d.pkt, body := none } else d
  let cells := (s.voqs.flatMap fun e => e.2.filter fun d => d.body = some body) ++
    s.outs.filterMap fun e => match e.2.sending with | some d => if d.body = some body then some d else none | none => none
  let s := match cells with | d :: _ => s.putPkt d.cells (f d.pkt) | [] => s
  { s with
    arrivals := s.arrivals.map fun e => (e.1, e.2.map arr)
    voqs := s.voqs.map fun e => (e.1, e.2.map dsc)
    outs := s.outs.map fun e => (e.1, { e.2 with sending := e.2.sending.map dsc }) }

/-- A packet's payload is whole. -/
def State.bodyDone (s : State) (body : Nat) (payload : List Byte) : State := s.endBody body fun p => { p with payload := payload }

/-- Whether a packet whose payload was arriving is still held. -/
def State.bodyHeld (s : State) (body : Nat) : Bool :=
  (s.arrivals.any fun e => e.2.any fun a => a.body = some body) || (s.voqs.any fun e => e.2.any fun d => d.body = some body) ||
    s.outs.any fun e => match e.2.sending with | some d => d.body = some body | none => false

/-- A packet's input is lost (R217): copies being sent end with zero bytes and the stomped PCRC, copies still queued are discarded. -/
def State.bodyLost (s : State) (body : Nat) (got : List Byte) : State :=
  let gone := s.voqs.flatMap fun e => e.2.filter fun d => d.body = some body
  let s := { s with
    arrivals := (s.arrivals.map fun e => (e.1, e.2.filter fun a => a.body ≠ some body)).filter fun e => e.2 ≠ []
    voqs := (s.voqs.map fun e => (e.1, e.2.filter fun d => d.body ≠ some body)).filter fun e => e.2 ≠ [] }
  let s := gone.foldl State.discard s
  s.endBody body fun p =>
    let b := got.take p.carried ++ List.replicate (p.carried - got.length) 0
    { p with payload := b, pcrc := crc32c b ^^^ 0xFFFFFFFF }

/-- Gives up the packet that a link is receiving. -/
def State.loseOpen (s : State) (i : Nat) : State :=
  let l := s.link i
  let s := s.modLink i fun l => { l with open_ := none, openPkt := none, openNeed := 0, openBytes := [] }
  match l.open_ with
  | some b => s.bodyLost b l.openBytes
  | none => s

/-! ## DOWN (R196, R197, R292, R293, R302) -/

/-- The packets with a flit in the replay buffer, in the order of their first SEQ. -/
def Link.heldPackets (l : Link) : List Desc :=
  ((l.replay.filter fun f => f.owner.isSome).zipIdx.filterMap fun x =>
    if x.2 = 0 || x.1.ftype = 0x8 || x.1.ftype = 0x9 then x.1.owner else none)

/-- Hands a packet back to the router at the head of its new VOQ, in pool cells of the failed port's link share (R292, R293). -/
def State.handBack (s : State) (i : Nat) (d : Desc) : State :=
  let j := linkCharge i d.pkt.cls.toNat (s.hopVc d.pkt.vc.toNat d.inPort i)
  let s := s.recount 3
  match s.alloc d.pkt.cellCount (classPart d.pkt.cls.toNat) d.mid j with
  | some (cs, s) => (s.putPkt cs d.pkt).routeAgain i { d with cells := cs, off := 32, body := none } (some fun _ => 0)
  | none => s.routeAgain i { d with cells := [], off := 32, body := none } (some fun _ => 0)

/-- The link enters DOWN with a reason. -/
def State.linkDown (s : State) (i reason : Nat) : State :=
  let was := s.lnk i
  let l := s.link i
  let s := s.loseOpen i
  let s := ((s.put (lnkStatus_STATE i) lkDOWN).put (lnkStatus_REASON i) reason).bump (lnkCntDown_COUNT i)
  let s := s.logEv (0x1003 + 0x100 * i) 0x3FE reason (s.rd (lnkPeerInfo i)) (s.rd (lnkExpect i))
  let held := l.heldPackets
  let s := s.modLink i Link.restart
  let cut := (s.out i).sending.toList
  let s := s.setOut i { s.out i with sending := none }
  let s := cut.foldl (fun s d => (s.recount 3).routeAgain i d (some fun _ => 0)) s
  let s := held.reverse.foldl (fun s d => s.handBack i d) s
  let s := s.rerouteOut i
  if was = lkGLOST then
    let f := (s.modLink i fun l => { l with downNoted := true }).peerFault 0x01 2 i (s.get (lnkPeerInfo_COORD i))
      (BitVec.ofNat 64 (reason + s.get (lnkStatus_RATE i) * 16))
      (BitVec.ofNat 64 ((held.length + cut.length) % 2 ^ 16 + l.unack * 2 ^ 16))
    (f.2.fanOut f.1 (f.2.lineMembers i)).leftGlost i
  else s

/-- Starts a replay of the flits not acknowledged, if there are any (R195, R196). -/
def State.replayLink (s : State) (i : Nat) : State :=
  let l := s.link i
  if l.unack = 0 then s
  else
    let from_ := (l.released + 1) % 4096
    let same := if l.sameSeq = from_ then l.sameCount + 1 else 1
    let times := (l.replayTimes.filter fun t => s.now < t + 100000) ++ [s.now]
    let s := (s.bump (lnkCntReplay_COUNT i)).modLink i fun l => { l with sameSeq := from_, sameCount := same, replayTimes := times }
    if 8 ≤ same then s.linkDown i 1 else if 32 ≤ times.length then s.linkDown i 2 else s

/-! ## Retrain and optics sleep (R200, R448) -/

/-- Whether a fast retrain may be made: minor version 1 at both ends, and settings cached at the rate of the last GLOST with the
same peer. -/
def State.fastRate (s : State) (i : Nat) : Option Nat :=
  match (s.link i).lastRate with
  | some r =>
    if 1 ≤ s.get (lnkStatus_MINOR i) && (s.link i).cached.find r = some (s.rd (lnkPeerSerial i), s.get (lnkPeerInfo_PORT i)) then some r else none
  | none => none

/-- Leaves a state in which packets could wait for the link: they are routed again. -/
def State.leaveService (s : State) (i st : Nat) : State :=
  let was := s.lnk i
  let s := ((s.unsend i).put (lnkStatus_STATE i) st).rerouteOut i
  if was = lkGLOST then s.leftGlost i else s

/-- The retrain, once nothing is unacknowledged: fast from GLOST, or full bring-up from DARK. -/
def State.doRetrain (s : State) (i : Nat) : State :=
  let fast := if s.lnk i = lkGLOST || s.lnk i = lkSLEEP then s.fastRate i else none
  let s := s.loseOpen i
  match fast with
  | some r => (s.leaveService i lkWEDGE).modLink i fun l => { l with retrain := none, sleepDrain := false, fast := some r, step := none, ctrlIn := [] }
  | none => (s.leaveService i lkDARK).enterDark i

/-- A write of 1 to RETRAIN (R200); false where it is ignored. -/
def State.lnkRetrainWrite (s : State) (mid i : Nat) : State × Bool :=
  if lkBISQUE ≤ s.lnk i && s.lnk i ≤ lkMISWIRED then
    (if s.unack i = 0 then s.doRetrain i else s.modLink i fun l => { l with retrain := some mid }, true)
  else (s, false)

/-- SLEEP, once nothing is unacknowledged (R448). -/
def State.enterSleep (s : State) (i : Nat) : State :=
  (s.leaveService i lkSLEEP).modLink i fun l => { l with sleepDrain := false }

/-- What waits for the replay buffer to drain goes on (R200, R448). -/
def State.drained (s : State) (i : Nat) : State :=
  let l := s.link i
  if l.unack ≠ 0 then s
  else if l.retrain.isSome then s.doRetrain i
  else if l.sleepDrain then s.enterSleep i
  else s

/-! ## EN, LOOP and the eye scan (R198, R220, R223) -/

/-- A write of EN. -/
def State.lnkSetEn (s : State) (i : Nat) (on : Bool) : State :=
  let s := s.setFlag (lnkCtrl_EN i) on
  let st := s.lnk i
  if on then (if st = lkDISABLED then s.enterDark i else s)
  else if lkBISQUE ≤ st && st ≤ lkMISWIRED then s.linkDown i 5
  else if st = lkDOWN then s
  else (s.put (lnkStatus_STATE i) lkDISABLED).modLink i Link.restart

/-- A write of LOOP: TEST with EN = 1 where the link carries no traffic; LOOP = 0 ends TEST (R198, R220). -/
def State.lnkSetLoop (s : State) (i loop : Nat) : State :=
  let s := s.put (lnkCtrl_LOOP i) loop
  let st := s.lnk i
  if loop = 0 then (if st = lkTEST then s.enterDark i else s)
  else if s.flag (lnkCtrl_EN i) && ((lkDARK ≤ st && st ≤ lkWEDGE) || st = lkTEST) then s.enterTest i
  else s

/-- A write of LNK.EYE: START measures one point in TEST. -/
def State.lnkEyeWrite (s : State) (i : Nat) (v : W64) : State :=
  let s := ((s.put (lnkEye_LANE i) (bitsOf v 56 5)).put (lnkEye_VOFF i) (bitsOf v 48 8)).put (lnkEye_HOFF i) (bitsOf v 40 8)
  if bitsOf v 62 1 = 1 && s.lnk i = lkTEST then s.put (lnkEye_BUSY i) 1 else s

end Sys2Proof.Machine
end

