-- ==== Sys2Proof/Machine/LinkRows.lean ====
section
/-!
DEFINITION. Machine/LinkRows.lean: the commands of the links (R189-R221): a flit's arrival, the link control frames, the events of
bring-up and of DOWN, and their time-outs.
-/
namespace Sys2Proof.Machine

/-! ## Receiving a flit (R190-R194, R208) -/

/-- Whether a link takes flits: from BISQUE to MISWIRED, and in the far-end loop before its FE_ACK (R198, R221). -/
def State.takesFlits (s : State) (i : Nat) : Bool :=
  (lkBISQUE ≤ s.lnk i && s.lnk i ≤ lkMISWIRED) || (s.lnk i = lkTEST && s.get (lnkCtrl_LOOP i) = 3)

/-- A flit that is not good (R190, R194). -/
def State.badFlit (s : State) (i : Nat) : State :=
  (s.bump (lnkCntCrcErr_COUNT i)).modLink i fun l => { l with nakOut := true }

/-- Counts the bytes corrected in a good flit (R190, R223). -/
def State.countFixed (s : State) (i : Nat) (fixed : List Nat) : State :=
  if fixed.isEmpty then s
  else fixed.foldl (fun s b => s.bump (lnkLaneErr_COUNT i (b % 16))) (s.bump (lnkCntFecCorr_COUNT i))

/-- A whole packet has arrived at a link port (R208). -/
def State.arrive (s : State) (i : Nat) (a : Arrival) : State := { s with arrivals := s.arrivals.modify [] i (· ++ [a]) }

/-- Counts a malformed packet of a link (R216). -/
def State.malform (s : State) (i : Nat) : State := s.bump (lnkCntMalformed_COUNT i)

/-- A framing breach ends the packet that is open: malformed if it is still held (R208, R216). -/
def State.breakOpen (s : State) (i : Nat) : State :=
  let s := match (s.link i).open_ with
    | some b => if s.bodyHeld b then s.malform i else s
    | none => s
  s.loseOpen i

/-- The first flit of a packet. -/
def State.firstFlit (s : State) (i : Nat) (only : Bool) (data : List Byte) : State :=
  let s := if (s.link i).openPkt.isSome then s.breakOpen i else s
  let p := Pkt.ofHeader data
  let s := if p.typ == tCONESYNC && i < 12 then s.coneSeen i (natLE ((data.drop 36).take 2)) else s
  let n := p.flitCount
  let body := data.drop 32
  if only then
    if n = 1 then s.arrive i ⟨{ p with payload := body.take p.carried }, none, [], 32⟩ else s.malform i
  else if n = 1 then (s.malform i).modLink i fun l => { l with openPkt := some p, open_ := none, openNeed := 0, openBytes := [] }
  else
    let b := s.nextBody
    let s := { s with nextBody := b + 1 }.arrive i ⟨p, some b, [], 32⟩
    s.modLink i fun l => { l with openPkt := some p, open_ := some b, openNeed := n - 1, openBytes := body }

/-- A later flit of a packet. -/
def State.nextFlit (s : State) (i : Nat) (last : Bool) (data : List Byte) : State :=
  let l := s.link i
  match l.openPkt with
  | none => s.malform i
  | some p =>
    match l.open_ with
    | none => if last then s.modLink i fun l => { l with openPkt := none } else s
    | some b =>
      if last && l.openNeed = 1 then
        (s.bodyDone b ((l.openBytes ++ data).take p.carried)).modLink i fun l =>
          { l with openPkt := none, open_ := none, openNeed := 0, openBytes := [] }
      else if last then s.breakOpen i
      else if l.openNeed ≤ 1 then (s.breakOpen i).modLink i fun l => { l with openPkt := some p }
      else s.modLink i fun l => { l with openNeed := l.openNeed - 1, openBytes := l.openBytes ++ data }

/-- A sequenced flit accepted in order (R191, R193, R194). -/
def State.acceptFlit (s : State) (i : Nat) (f : Flit) : State :=
  let s := s.modLink i fun l => { l with
    rxNext := (l.rxNext + 1) % 4096, nakOut := false, credits := l.credits.modify 0 (f.seq / 2 % 8 * 2 + f.seq % 2) (· + f.cred) }
  match f.ftype with
  | 0x5 => s.modLink i fun l => { l with ctrlIn := l.ctrlIn ++ [⟨(f.data.headD 0).toNat, f.data.drop 1⟩] }
  | 0x8 => s.firstFlit i true f.data
  | 0x9 => s.firstFlit i false f.data
  | 0xA => s.nextFlit i false f.data
  | 0xB => s.nextFlit i true f.data
  | _ => s

/-- FLIT_RECEIVE (R190-R194). -/
def execFlitReceive (link : Fin 14) (flit : BitVec 2048) (s : State) : Host.Outcome State Fault Refusal :=
  let i := link.val
  if !s.takesFlits i then .next s
  else match readFlit flit with
    | none => done (s.badFlit i)
    | some (f, fixed) =>
      if !([0x0, 0x1, 0x4, 0x5, 0x8, 0x9, 0xA, 0xB].contains f.ftype) then done ((s.bump (lnkCntProto_COUNT i)).badFlit i)
      else
        let s := (s.countFixed i fixed).modLink i fun l => l.takeAck f.ack
        let e := (s.link i).rxNext
        let s :=
          if f.ftype ≤ 1 then
            let lost := f.seq ≠ e && (f.seq + 4096 - e) % 4096 < 2048
            s.modLink i fun l => { l with nakOut := l.nakOut || lost, nakIn := if f.ftype = 1 then some f.ack else l.nakIn }
          else if f.seq = e then s.acceptFlit i f
          else s
        done (s.drained i)

/-- NAK (R195, R196): a good NAK starts a replay. -/
def execNak (link : Fin 14) (s : State) : Host.Outcome State Fault Refusal :=
  match (s.link link).nakIn with
  | some _ => done ((s.modLink link fun l => { l with nakIn := none }).replayLink link)
  | none => .next s

/-- REPLAY_TMO_EXPIRY (R195, R196): the oldest flit has waited REPLAY_TMO. -/
def execReplayTmoExpiry (link : Fin 14) (s : State) : Host.Outcome State Fault Refusal :=
  if s.takesFlits link then done (s.replayLink link) else .next s

/-! ## Link control frames (R199, R202-R205, R221) -/

/-- Takes the accepted control frame at the head of a link's, where it has the subtype. -/
def State.takeCtrl (s : State) (i sub : Nat) : Option (List Byte × State) :=
  match (s.link i).ctrlIn with
  | c :: t => if c.sub = sub then some (c.data, s.modLink i fun l => { l with ctrlIn := t }) else none
  | [] => none

/-- The fields of an IDENT after its subtype, `n` bytes from offset `o` of the frame. -/
def identField (d : List Byte) (o n : Nat) : Nat := natLE ((d.drop (o - 1)).take n)

/-- LNK.PEER_INFO as an IDENT gives it (R202, R203). -/
def identInfo (d : List Byte) : W64 :=
  BitVec.ofNat 64 (identField d 19 1 * 2 ^ 56 + identField d 18 1 % 16 * 2 ^ 52 + identField d 16 2 % 2 ^ 14 * 2 ^ 38
    + identField d 30 2 % 2 ^ 12 * 2 ^ 26 + identField d 28 1 % 4 * 2 ^ 24 + identField d 3 1 * 2 ^ 16 + identField d 2 1 * 2 ^ 8 + 2 ^ 7)

/-- An IDENT accepted in BISQUE (R203, R205). -/
def State.identBisque (s : State) (i : Nat) (d : List Byte) : State :=
  let seen := identField d 1 1 % 2 = 1
  let s := ((s.wr (lnkPeerSerial i) (BitVec.ofNat 64 (identField d 8 8))).wr (lnkPeerInfo i) (identInfo d))
  let s := (s.put (lnkStatus_MAJOR i) 1).put (lnkStatus_MINOR i) (min 2 (identField d 2 1))
  let s := s.modLink i fun l => { l with
    peer := ⟨identField d 1 1, identField d 4 4, identField d 24 4, identField d 20 4, BitVec.ofNat 128 (identField d 32 16)⟩
    identSeenRecv := l.identSeenRecv || seen }
  let s := if (s.link i).identSeenSent then s else s.sendIdent i true
  if (s.link i).identSeenRecv then s.verify i else s

/-- IDENT (R203-R205): leads from BISQUE to VERIFY and its checks; later, it updates the peer's slice. -/
def execIdent (link : Fin 14) (s : State) : Host.Outcome State Fault Refusal :=
  let i := link.val
  match s.takeCtrl i 0x01 with
  | none => .next s
  | some (d, s) =>
    if s.lnk i = lkBISQUE && !s.flag (lnkStatus_INCOMPATIBLE i) then done (s.identBisque i d)
    else
      let v := identInfo d
      let same := identField d 8 8 = (s.rd (lnkPeerSerial i)).toNat && bitsOf v 38 14 = s.get (lnkPeerInfo_COORD i)
        && bitsOf v 52 4 = s.get (lnkPeerInfo_PORT i) && bitsOf v 56 8 = s.get (lnkPeerInfo_DEVCLASS i)
      if same then done (s.put (lnkPeerInfo_SLICE i) (bitsOf v 26 12)) else done (s.bump (lnkCntProto_COUNT i))

/-- RATE_REQ (R199): the follower answers RATE_ACK. -/
def execRateReq (link : Fin 14) (s : State) : Host.Outcome State Fault Refusal :=
  let i := link.val
  match s.takeCtrl i 0x02 with
  | none => .next s
  | some (d, s) =>
    let code := (d.headD 0).toNat
    if s.lnk i = lkSTEP && !s.leads i && 1 ≤ code && code ≤ 3 then
      done ((s.sendCtrl i 0x03 [BitVec.ofNat 8 code]).modLink i fun l => { l with step := some ⟨code, true, none, none⟩ })
    else done s

/-- RATE_ACK (R199). -/
def execRateAck (link : Fin 14) (s : State) : Host.Outcome State Fault Refusal :=
  let i := link.val
  match s.takeCtrl i 0x03 with
  | none => .next s
  | some (_, s) =>
    match (s.link i).step with
    | some t => if s.lnk i = lkSTEP && s.leads i then done (s.modLink i fun l => { l with step := some { t with acked := true } }) else done s
    | none => done s

/-- A step has failed (R199): GLOST at the highest rate that passed. -/
def State.stepFailed (s : State) (i : Nat) : State := s.enterGlost i (s.link i).passed

/-- Both results of a step are known (R199). -/
def State.stepEnds (s : State) (i : Nat) : State :=
  match (s.link i).step with
  | some ⟨code, _, some a, some b⟩ =>
    if a && b then
      let s := s.modLink i fun l => { l with passed := code }
      if s.targetRate i ≤ code then s.enterGlost i code else s.beginStep i (code + 1)
    else s.stepFailed i
  | _ => s

/-- RATE_RES (R199). -/
def execRateRes (link : Fin 14) (s : State) : Host.Outcome State Fault Refusal :=
  let i := link.val
  match s.takeCtrl i 0x04 with
  | none => .next s
  | some (d, s) =>
    match (s.link i).step with
    | some t =>
      if s.lnk i = lkSTEP then
        done ((s.modLink i fun l => { l with step := some { t with theirs := some (d.headD 0 == 1) } }).stepEnds i)
      else done s
    | none => done s

/-- LANE_CHECK_DONE (R199, R200): the check of a rate step, or of a fast retrain, ends. -/
def execLaneCheckDone (link : Fin 14) (pass : Bool) (s : State) : Host.Outcome State Fault Refusal :=
  let i := link.val
  match (s.link i).step with
  | none => .next s
  | some t =>
    if s.lnk i = lkWEDGE then
      (match (s.link i).fast with
        | some r => if pass then done ((s.modLink i fun l => { l with step := none }).enterBisque i r) else done (s.enterDark i)
        | none => .next s)
    else if s.lnk i = lkSTEP && t.acked && t.mine.isNone && s.unack i = 0 then
      let s := (s.put (lnkStatus_RATE i) t.code).sendCtrl i 0x04 [if pass then 1 else 0]
      done ((s.modLink i fun l => { l with step := some { t with mine := some pass } }).stepEnds i)
    else .next s

/-- RATE_STEP_TIMEOUT (R199, R201): the step has not finished within 60 ms. -/
def execRateStepTimeout (link : Fin 14) (s : State) : Host.Outcome State Fault Refusal :=
  if s.lnk link = lkSTEP then done (s.stepFailed link) else .next s

/-- FE_REQ (R221): with FE_ALLOW = 1 the peer's loop is served: FE_ACK, then the link is handled as DOWN with REASON PEER. -/
def execFeReq (link : Fin 14) (s : State) : Host.Outcome State Fault Refusal :=
  let i := link.val
  match s.takeCtrl i 0x05 with
  | none => .next s
  | some (_, s) =>
    if s.flag (lnkCtrl_FE_ALLOW i) && lkBISQUE ≤ s.lnk i && s.lnk i ≤ lkMISWIRED then
      done (((s.sendCtrl i 0x06 []).linkDown i 6).modLink i fun l => { l with feServing := true })
    else done s

/-- FE_ACK (R221). -/
def execFeAck (link : Fin 14) (s : State) : Host.Outcome State Fault Refusal :=
  match s.takeCtrl link 0x06 with
  | none => .next s
  | some (_, s) => if (s.link link).feSent then done (s.modLink link fun l => { l with feAcked := true }) else done s

/-- FE_REFUSE_TIMEOUT (R221): no FE_ACK within 10 ms. -/
def execFeRefuseTimeout (link : Fin 14) (s : State) : Host.Outcome State Fault Refusal :=
  let l := s.link link
  if s.lnk link = lkTEST && l.feSent && !l.feAcked then done ((s.put (lnkStatus_REASON link) 10).modLink link fun l => { l with feSent := false })
  else .next s

/-- DOWN_NOTE (R196). -/
def execDownNote (link : Fin 14) (s : State) : Host.Outcome State Fault Refusal :=
  match s.takeCtrl link 0x07 with
  | none => .next s
  | some (_, s) => if lkBISQUE ≤ s.lnk link && s.lnk link ≤ lkMISWIRED then done (s.linkDown link 6) else done s

/-! ## Loss of signal and of the clock (R196, R198) -/

/-- Whether a link watches its signal and its clock lane. -/
def State.watches (s : State) (i : Nat) : Bool := lkSIGNAL ≤ s.lnk i && s.lnk i ≤ lkMISWIRED

/-- LOSS_OF_SIGNAL (R196, R197); it ends a far-end loop that this module serves (R221). -/
def execLossOfSignal (link : Fin 14) (s : State) : Host.Outcome State Fault Refusal :=
  if s.watches link then done (s.linkDown link 4)
  else if s.lnk link = lkDOWN && (s.link link).feServing then done (s.enterDark link)
  else .next s

/-- CLOCK_LOCK_LOSS (R196, R197, R223). -/
def execClockLockLoss (link : Fin 14) (s : State) : Host.Outcome State Fault Refusal :=
  if s.watches link then done ((s.bump (lnkLaneErr_COUNT link 16)).linkDown link 3) else .next s

/-- DOWN_HOLD_EXPIRY (R197, R198). -/
def execDownHoldExpiry (link : Fin 14) (s : State) : Host.Outcome State Fault Refusal :=
  if s.lnk link = lkDOWN && !(s.link link).feServing then
    if s.flag (lnkCtrl_EN link) then done (s.enterDark link) else done (s.put (lnkStatus_STATE link) lkDISABLED)
  else .next s

/-! ## Bring-up (R198, R201) -/

/-- Whether the links are released from DARK (R422, R458). -/
def State.linksReleased (s : State) : Bool := s.power.phase = .links || s.power.phase = .done

/-- LIGHT_PRESENT (R198): DARK to SIGNAL, once the links are released. -/
def execLightPresent (link : Fin 14) (s : State) : Host.Outcome State Fault Refusal :=
  if s.lnk link = lkDARK && s.linksReleased then
    done ((s.put (lnkStatus_STATE link) lkSIGNAL).modLink link fun l => { l with lit := true })
  else .next s

/-- CLOCK_LOCKED (R198): SIGNAL to CLOCK, and at once to WEDGE. -/
def execClockLocked (link : Fin 14) (s : State) : Host.Outcome State Fault Refusal :=
  if s.lnk link = lkSIGNAL then done (s.put (lnkStatus_STATE link) lkWEDGE) else .next s

/-- FRAMING_FOUND (R198, R200): WEDGE to BISQUE; a fast retrain checks its lanes first. -/
def execFramingFound (link : Fin 14) (s : State) : Host.Outcome State Fault Refusal :=
  if s.lnk link = lkWEDGE then
    match (s.link link).fast with
    | some r => done (s.modLink link fun l => { l with step := some ⟨r, true, none, none⟩ })
    | none => done (s.enterBisque link 0)
  else .next s

/-- SIGNAL_TIMEOUT (R198, R201). -/
def execSignalTimeout (link : Fin 14) (s : State) : Host.Outcome State Fault Refusal :=
  if s.lnk link = lkSIGNAL then done (s.enterDark link) else .next s

/-- WEDGE_TIMEOUT (R198, R201). -/
def execWedgeTimeout (link : Fin 14) (s : State) : Host.Outcome State Fault Refusal :=
  if s.lnk link = lkWEDGE then done (s.enterDark link) else .next s

/-- BISQUE_TIMEOUT (R198, R201); a link with INCOMPATIBLE set holds in BISQUE (R205). -/
def execBisqueTimeout (link : Fin 14) (s : State) : Host.Outcome State Fault Refusal :=
  if s.lnk link = lkBISQUE && !s.flag (lnkStatus_INCOMPATIBLE link) then done ((s.loseOpen link).enterDark link) else .next s

/-- RETRAIN_DRAIN_TIMEOUT (R200): flits remain unacknowledged after 10 µs; the retrain is not made, and the write is logged. -/
def execRetrainDrainTimeout (link : Fin 14) (s : State) : Host.Outcome State Fault Refusal :=
  match (s.link link).retrain with
  | some mid => done ((s.modLink link fun l => { l with retrain := none }).ignored mid (regBase + lnkCtrl link) 0x800)
  | none => .next s

/-- EYE_POINT_DONE (R223): one point has been measured for 100 µs. -/
def execEyePointDone (link : Fin 14) (errs : BitVec 32) (s : State) : Host.Outcome State Fault Refusal :=
  if s.flag (lnkEye_BUSY link) then .next ((s.put (lnkEye_BUSY link) 0).put (lnkEye_ERRS link) errs.toNat) else .next s

/-- CHECKER_LOCK (R219, R223): every enabled checker is locked. -/
def execCheckerLock (link : Fin 14) (s : State) : Host.Outcome State Fault Refusal :=
  if s.lnk link = lkTEST && s.flag (lnkTest_CHK_EN link) then .next (s.put (lnkTest_LOCK link) 1) else .next s

end Sys2Proof.Machine
end

