-- ==== Sys2Proof/Machine/Bank.lean ====
section
/-!
DEFINITION. Machine/Bank.lean: the route table banks (R260-R262, R269-R275), coordinates and the topology table (R256-R259), and the
ROUTE_UPD messages (R286, R287).
-/
namespace Sys2Proof.Machine

/-! ## Banks (R260, R272) -/

/-- IDLE of a bank. -/
def bkIDLE : Nat := 0
/-- LOADING. -/
def bkLOADING : Nat := 1
/-- LOADED. -/
def bkLOADED : Nat := 2
/-- ACTIVE. -/
def bkACTIVE : Nat := 3
/-- DRAINING. -/
def bkDRAINING : Nat := 4

/-- The STATE field of a bank. -/
def bankField (b : Bool) : Field := if b then routeBank_STATE_B else routeBank_STATE_A

/-- STATE of a bank. -/
def State.bankState (s : State) (b : Bool) : Nat := s.get (bankField b)

/-- Sets STATE of a bank. -/
def State.setBankState (s : State) (b : Bool) (v : Nat) : State := s.put (bankField b) v

/-- Whether a bank accepts entry and key writes: it is IDLE, LOADING or LOADED. -/
def State.bankOpen (s : State) (b : Bool) : Bool := s.bankState b ≤ bkLOADED

/-- An entry as a bank holds it: reserved bits read as zero, and every bit of one with VALID = 0 (R11, R261; log entry 124). -/
def cleanEntry (v : W64) : W64 := if v.getLsbD 63 then v &&& 0xEFFF000000000000 else 0

/-- Whether an entry holds a reserved encoding: ESC or DET is 6 where VALID is 1 (R11, R261). -/
def entryReserved (v : W64) : Bool := v.getLsbD 63 && (bitsOf v 51 3 == 6 || bitsOf v 48 3 == 6)

/-- Writes an entry, whose codeword becomes valid. -/
def State.putEntry (s : State) (b : Bool) (i : Nat) (v : W64) : State :=
  let v := cleanEntry v
  let e := s.bankErr.set false (b.toNat * 16384 + i) false
  if b then { s with bankB := s.bankB.set 0 i v, bankErr := e } else { s with bankA := s.bankA.set 0 i v, bankErr := e }

/-- An entry write (R272): the bank is LOADING afterwards. -/
def State.writeEntry (s : State) (b : Bool) (i : Nat) (v : W64) : State := (s.putEntry b i v).setBankState b bkLOADING

/-- The register of a bank's SPREAD_KEY. -/
def keyReg (b : Bool) : Nat := if b then routeKeyB else routeKeyA

/-- A key write (R289): the bank is LOADING afterwards. -/
def State.writeKey (s : State) (b : Bool) (v : W64) : State := (s.wr (keyReg b) v).setBankState b bkLOADING

/-- Extends a CRC over entries `i` to `i + n - 1` of a bank, each as 8 little-endian bytes. -/
def crcEntries (t : Tab W64) (c : BitVec 32) (i : Nat) : Nat → BitVec 32
  | 0 => c
  | n + 1 =>
    match t with
    | (k, v) :: rest =>
      if k = i then crcEntries rest ((bytesLE 8 v.toNat).foldl crcByte c) (i + 1) n
      else crcEntries t ((List.replicate 8 (0 : Byte)).foldl crcByte c) (i + 1) n
    | [] => crcEntries t ((List.replicate 8 (0 : Byte)).foldl crcByte c) (i + 1) n

/-- The COMMIT CRC of a bank (R286). -/
def State.bankCrc (s : State) (b : Bool) : BitVec 32 :=
  let c := crcEntries (if b then s.bankB else s.bankA) 0xFFFFFFFF 0 16384
  (bytesLE 8 (s.rd (keyReg b)).toNat).foldl crcByte c ^^^ 0xFFFFFFFF

/-- Loads a whole bank: its entries and, where the source holds one, its key. -/
def State.loadBank (s : State) (b : Bool) (t : Tab W64) (key : Option W64) : State :=
  let s := { s with bankErr := s.bankErr.filter fun e => e.1 / 16384 ≠ b.toNat }
  let s := if b then { s with bankB := t } else { s with bankA := t }
  let s := match key with | some k => s.wr (keyReg b) k | none => s
  s.setBankState b bkLOADED

/-- The entries of a byte string of 8 bytes each, from index `i`; entries of zero are not listed. -/
def entriesOf (l : List Byte) (i : Nat) : Nat → Tab W64
  | 0 => []
  | n + 1 =>
    let v := cleanEntry (BitVec.ofNat 64 (natLE (l.take 8)))
    if v = 0 then entriesOf (l.drop 8) (i + 1) n else (i, v) :: entriesOf (l.drop 8) (i + 1) n

/-- Entry `j` of a byte string. -/
def entryAt (l : List Byte) (j : Nat) : W64 := BitVec.ofNat 64 (natLE ((l.drop (8 * j)).take 8))

/-- Whether one of the first `n` entries of a byte string holds a reserved encoding. -/
def someReserved (l : List Byte) : Nat → Bool
  | 0 => false
  | n + 1 => entryReserved (BitVec.ofNat 64 (natLE (l.take 8))) || someReserved (l.drop 8) n

/-! ## Standard entries (R262) -/

/-- The box size on an axis. -/
def State.boxSize (s : State) (a : Nat) : Nat :=
  (match a with
   | 0 => s.get routeBox_SXM1
   | 1 => s.get routeBox_SYM1
   | _ => s.get routeBox_SZM1) + 1

/-- The offset of a coordinate from the box origin on an axis. -/
def State.boxOff (s : State) (c a : Nat) : Nat :=
  (axisOf c a + s.extent a - axisOf (s.get routeBox_ORIGIN) a % s.extent a) % s.extent a

/-- Whether a coordinate lies in the box; none does while BOX.EN is 0 (R478). -/
def State.inBox (s : State) (c : Nat) : Bool :=
  s.flag routeBox_EN && (List.range 3).all fun a => s.boxOff c a < s.boxSize a

/-- dir(a) as (plus, minus), and whether the second branch gave it. -/
def State.stdDir (s : State) (d a : Nat) : (Bool × Bool) × Bool :=
  let e := s.extent a
  if s.inBox s.coord && s.inBox d && s.boxSize a < e then
    ((decide (s.boxOff s.coord a < s.boxOff d a), decide (s.boxOff d a < s.boxOff s.coord a)), false)
  else
    let p := (axisOf d a + e - axisOf s.coord a % e) % e
    let q := (e - p) % e
    ((decide (p ≠ 0 && p ≤ q), decide (p ≠ 0 && q ≤ p)), true)

/-- The standard entry for a destination. -/
def State.stdEntry (s : State) (d : Nat) : W64 :=
  if (List.range 3).any fun a => s.extent a ≤ axisOf d a then 0
  else
    let dirs := (List.range 3).map fun a => (a, s.stdDir d a)
    let adapt := dirs.foldl (fun m x => m + x.2.1.1.toNat * 2 ^ (2 * x.1) + x.2.1.2.toNat * 2 ^ (2 * x.1 + 1)) 0
    let ed := match dirs.find? fun x => x.2.1.1 || x.2.1.2 with
      | some (a, (plus, _), second) =>
        let esc := 2 * a + (!plus).toNat
        (esc, if second && decide (2 < s.extent a) then 2 * a + plus.toNat else 7)
      | none => (7, 7)
    BitVec.ofNat 64 (2 ^ 63 + (s.inBox s.coord && s.inBox d).toNat * 2 ^ 62 + adapt * 2 ^ 54 + ed.1 * 2 ^ 51 + ed.2 * 2 ^ 48)

/-- The standard entries of every destination. -/
def State.stdBank (s : State) : Tab W64 :=
  (List.range 16384).filterMap fun d => let v := s.stdEntry d; if v = 0 then none else some (d, v)

/-! ## Flips (R271, R274) -/

/-- The flip: the other bank becomes ACTIVE and the old one DRAINING; a pending re-key is applied (R271). -/
def State.flip (s : State) : State :=
  let b := s.flag routeBank_ACTIVE
  let s := ((s.setBankState (!b) bkACTIVE).setBankState b bkDRAINING).setFlag routeBank_ACTIVE (!b)
  let s := { s.put routeBank_FLIP_PEND 0 with flipMax := s.ageLimit }
  if s.flag routeImb_PEND then (s.put routeSpread_REKEY (s.get routeSpread_REKEY + 1)).put routeImb_PEND 0 else s

/-- BANK_RETIRE (R274): at C + L + 1 ms the DRAINING bank becomes IDLE; L is the largest AGE_LIMIT in force since C. -/
def execBankRetire (s : State) : Host.Outcome State Fault Refusal :=
  let b := !s.flag routeBank_ACTIVE
  if s.bankState b = bkDRAINING && (s.rd routeFlipAt).toNat + s.flipMax + 1000000 ≤ s.now then .next (s.setBankState b bkIDLE)
  else .next s

/-! ## Coordinates and the topology table (R256-R259) -/

/-- A coordinate from its axes. -/
def mkCoord (x y z : Nat) : Nat := x * 512 + y * 16 + z

/-- Whether this is a bridge module (R257, R478). -/
def State.isBridge (s : State) : Bool := !s.topo.valid || s.power.slotId.toNat = s.topo.bridgeSlot

/-- The coordinate that a SLOT_ID derives in this module's cube (R257). `cube` is CX + 8 CY + 64 CZ. -/
def State.derive (s : State) (slot : Nat) : Nat :=
  mkCoord ((4 * (s.power.cube % 8) + slot % 4) % s.topo.ex) ((4 * (s.power.cube / 8 % 8) + slot / 4 % 4) % s.topo.ey)
    ((4 * (s.power.cube / 64) + slot / 16 % 4) % s.topo.ez)

/-- LNK.EXPECT of a link (R259). -/
def State.expectOf (s : State) (i : Nat) : W64 :=
  if i < 12 then
    let a := i / 4
    let e := s.extent a
    let c := withAxis s.coord a ((axisOf s.coord a + (if i / 2 % 2 = 0 then 1 else e - 1)) % e)
    BitVec.ofNat 64 ((i / 4 * 4 + (i + 2) % 4) * 2 ^ 52 + c * 2 ^ 38)
  else if !s.topo.valid then BitVec.ofNat 64 (2 ^ 37)
  else if s.isBridge then BitVec.ofNat 64 (s.topo.svBridge * 2 ^ 56)
  else if s.topo.svOther = 0xFF then BitVec.ofNat 64 (2 ^ 37)
  else BitVec.ofNat 64 (s.topo.svOther * 2 ^ 56)

/-- Fills LNK.EXPECT of every link (R259). -/
def State.loadExpect (s : State) : State := (List.range 14).foldl (fun s i => s.wr (lnkExpect i) (s.expectOf i)) s

/-- SCH's steps after an accepted COORD or TOPO message (R258). -/
def State.reshaped (s : State) : State :=
  (List.range 14).foldl (fun s i => (s.lnkRetrainWrite 0x122 i).1) s.loadExpect.coneReview

/-- The fields of a topology table (R256); none where it is refused. -/
def topoOf (b : List Byte) : Option Topo :=
  let f := fun (o n : Nat) => natLE ((b.drop o).take n)
  let ex := f 6 1
  let ey := f 7 1
  let ez := f 8 1
  let ones := ex = 1 && ey = 1 && ez = 1
  let fours := ex % 4 = 0 && ey % 4 = 0 && ez % 4 = 0 && 1 ≤ ex && ex ≤ 32 && 1 ≤ ey && ey ≤ 32 && 1 ≤ ez && ez ≤ 16
  if f 0 4 = 0x4F504F54 && f 4 2 = 1 && (ones || fours) then
    some { ex := ex, ey := ey, ez := ez, rootSet := f 9 1 % 2 = 1, root := f 10 2 % 2 ^ 14, bridgeSlot := f 12 1 % 64,
           svBridge := f 13 1, svOther := f 14 1,
           hash := BitVec.ofNat 128 (natLE ((bytesBE 48 (sha384 (b.take 64)).toNat).take 16)), valid := true }
  else none

/-- Puts a topology table in force; ROUTE.EXTENT shows it. -/
def State.setTopo (s : State) (t : Topo) : State :=
  (({ s with topo := t }.put routeExtent_EXM1 (t.ex - 1)).put routeExtent_EYM1 (t.ey - 1)).put routeExtent_EZM1 (t.ez - 1)

/-! ## ROUTE_UPD (R286, R287) -/

/-- The answer to a ROUTE_UPD: its SUBTYPE with bit 7 set and a STATUS; TAG, PSEQ, FLOW and SLICE are the request's. -/
def State.routeAnswer (s : State) (p : Pkt) (status : Nat) : State :=
  let body : List Byte := [p.payload.headD 0 ||| 0x80, BitVec.ofNat 8 status, 0, 0, 0, 0, 0, 0]
  s.inject 129 ⟨mkPkt tROUTEUPD p.cls.toNat p.src.toNat p.slice.toNat false (mkW1 p.coll p.chunk 8 0 0) p.w2 body, true, false, none, none, false⟩

/-- The frame of a ROUTE_UPD row: the message at the head of port 19's packets, where its SUBTYPE is `sub`; its master needs
CFG on ROUTE, and its length is `len` (0: checked by `f`). `f` answers the status and the state. It waits while SCH does not run. -/
def routeUpd (sub len : Nat) (f : State → List Byte → Nat × State) (s : State) : Host.Outcome State Fault Refusal :=
  match s.takeHead 19 (fun p => p.typ == tROUTEUPD && p.payload.headD 0 == BitVec.ofNat 8 sub && (s.procs.get ProcSt.reset 2).st == .running) with
  | none => .next s
  | some (d, s) =>
    let p := s.livePkt d.pkt d.cells d.off
    let s := s.release d.mid d.cells
    if (d.mid ≠ 0x201 && d.mid ≠ 0x202) || !s.granted 0x006 d.mid aCFG then done (s.routeAnswer p eACCESS)
    else if len ≠ 0 && p.len ≠ len then done (s.routeAnswer p ePARAM)
    else
      let r := f s p.payload
      done (r.2.routeAnswer p r.1)

/-- BANK of a message; none where it is reserved. -/
def bankOf (b : List Byte) : Option Bool :=
  match (b.getD 1 0).toNat with
  | 0 => some false
  | 1 => some true
  | _ => none

/-- ROUTE_UPD_LOAD (R286): entries FIRST to FIRST + COUNT - 1; a reserved encoding in one of them is refused (R11; log entry 124). -/
def execRouteUpdLoad (s : State) : Host.Outcome State Fault Refusal :=
  routeUpd 1 0 (fun s b =>
    let first := natLE ((b.drop 4).take 2)
    let n := natLE ((b.drop 6).take 2)
    match bankOf b with
    | none => (ePARAM, s)
    | some k =>
      if n = 0 || 511 < n || 16384 < first + n || b.length ≠ 8 + 8 * n || someReserved (b.drop 8) n then (ePARAM, s)
      else if !s.bankOpen k then (eSTATE, s)
      else (eOK, (List.range n).foldl (fun s j => s.writeEntry k (first + j) (entryAt (b.drop 8) j)) s)) s

/-- ROUTE_UPD_KEY (R286): the SPREAD_KEY of a bank. -/
def execRouteUpdKey (s : State) : Host.Outcome State Fault Refusal :=
  routeUpd 2 16 (fun s b =>
    match bankOf b with
    | none => (ePARAM, s)
    | some k => if s.bankOpen k then (eOK, s.writeKey k (BitVec.ofNat 64 (natLE ((b.drop 8).take 8)))) else (eSTATE, s)) s

/-- ROUTE_UPD_COMMIT (R286, R287): the bank as it stands is compared; where the CRC matches it is LOADED. -/
def execRouteUpdCommit (s : State) : Host.Outcome State Fault Refusal :=
  routeUpd 3 12 (fun s b =>
    match bankOf b with
    | none => (ePARAM, s)
    | some k =>
      if !s.bankOpen k then (eSTATE, s)
      else if (s.bankCrc k).toNat = natLE ((b.drop 8).take 4) then (eOK, s.setBankState k bkLOADED)
      else (ePARAM, s)) s

/-- ROUTE_UPD_COORD (R258): assigns the coordinate in BOOTING or READY. -/
def execRouteUpdCoord (s : State) : Host.Outcome State Fault Refusal :=
  routeUpd 4 10 (fun s b =>
    let c := natLE ((b.drop 8).take 2) % 2 ^ 14
    if s.mstate ≠ mBOOTING && s.mstate ≠ mREADY then (eSTATE, s)
    else if (List.range 3).any fun a => s.extent a ≤ axisOf c a then (ePARAM, s)
    else (eOK, ((s.put routeCoord_COORD c).put routeCoord_ASSIGNED 1).reshaped)) s

/-- ROUTE_UPD_TOPO (R258): a topology table in BOOTING or READY. The coordinate in force stays (log entry 32). -/
def execRouteUpdTopo (s : State) : Host.Outcome State Fault Refusal :=
  routeUpd 5 72 (fun s b =>
    if s.mstate ≠ mBOOTING && s.mstate ≠ mREADY then (eSTATE, s)
    else match topoOf (b.drop 8) with
      | none => (ePARAM, s)
      | some t => (eOK, (s.setTopo t).reshaped)) s

end Sys2Proof.Machine
end

