-- ==== Sys2Proof/Machine/PowerOps.lean ====
section
/-!
DEFINITION. Machine/PowerOps.lean: operations on frequencies (R449), tolerances (R445), optics sleep (R448), emergencies (R456), wake-ups
(R446) and the loss of state in OFF (R461), which register writes and commands share.
-/
namespace Sys2Proof.Machine

/-- Updates the power state. -/
def State.modPwr (s : State) (f : Power → Power) : State := { s with power := f s.power }

/-! ## Frequencies (R449, R452) -/

/-- FMAX in force. -/
def State.fmax (s : State) : Nat := s.get pwrFmax_FMAX

/-- f(n): the frequency that PWR asks of a cluster; FORCE_EN bypasses the rule (R463). -/
def State.fTarget (s : State) (n : Nat) : Nat :=
  if s.flag (pwrCl_FORCE_EN n) then s.get (pwrCl_FFORCE n) else min s.fmax (min (s.get pwrStatus_FCAP) (s.get (pwrCl_FTHERM n)))

/-- One cluster's frequency: a lowering takes effect, a raise waits for its voltage; whether it is throttled is noted. -/
def State.retune1 (s : State) (n : Nat) : State :=
  let t := s.fTarget n
  let thr := fun (p : Power) => if t < s.fmax then
      (if (Tab.find p.thrAt n).isSome then p.thrAt else Tab.insert p.thrAt n s.now) else Tab.erase p.thrAt n
  if t ≤ s.get (pwrCl_FREQ n) then
    (s.put (pwrCl_FREQ n) t).modPwr fun p => { p with volt := Tab.erase p.volt n, thrAt := thr p }
  else s.modPwr fun p => { p with volt := Tab.insert p.volt n t, thrAt := thr p }

/-- Recomputes every cluster's frequency and the count of throttled clusters. -/
def State.retune (s : State) : State :=
  let t := (List.range 128).foldl State.retune1 s
  let t := if t.power.thrAt.isEmpty && !s.power.thrAt.isEmpty then t.modPwr fun p => { p with thrLast := t.now } else t
  t.put pwrStatus_THR (min 128 t.power.thrAt.length)

/-! ## Emergencies (R456) -/

/-- The bit of a source in PWR.STATUS.EMSRC (R463). -/
def emBit : EmSrc → Nat
  | .undervoltage => 0
  | .outOfRange => 1
  | .overcurrent => 2
  | .coolant => 3
  | .flow => 4
  | .junction => 5

/-- Whether a source is active. -/
def State.emActive (s : State) (e : EmSrc) : Bool := (s.get pwrStatus_EMSRC).testBit (emBit e)

/-- CAP in force in W: PWR.CAP (0 selects 2,000) under the lowest lowering of an active source. -/
def State.capWatts (s : State) : Nat :=
  let c := if s.get pwrCap_CAP = 0 then 2000 else s.get pwrCap_CAP
  let c := if s.emActive .coolant then min c 1200 else c
  if s.emActive .flow then min c 1000 else c

/-- The bound that the active sources put on f_cap in MHz. -/
def State.capBound (s : State) : Nat :=
  if s.emActive .flow then 800 else if s.emActive .undervoltage then 1200 else 2000

/-- f_cap under the bounds of the active sources. -/
def State.setFcap (s : State) (f : Nat) : State := (s.put pwrStatus_FCAP (min f s.capBound)).retune

/-- A source becomes active: the overlay, the action on f_cap and CAP, the record and its notice. -/
def State.emergSet (s : State) (e : EmSrc) : State :=
  if s.emActive e then s
  else
    let s := (s.put pwrStatus_EMSRC (s.get pwrStatus_EMSRC + 2 ^ emBit e)).put sysState_EMERG 1
    let s := s.modPwr fun p => { p with emAt := Tab.insert p.emAt (emBit e) s.now }
    let s := s.setFcap (s.get pwrStatus_FCAP)
    s.logNotice 0x0203 0x3FE (s.get pwrStatus_EMSRC) (BitVec.ofNat 64 ((s.rd pwrIn).toNat / 2 ^ 32 * 2 ^ 32))
      (BitVec.ofNat 64 (s.get pwrTherm_TMAX))

/-- A source clears; with the last one the overlay clears (R390). -/
def State.emergClear (s : State) (e : EmSrc) : State :=
  if !s.emActive e then s
  else
    let was := s.get pwrStatus_EMSRC
    let at_ := (Tab.find s.power.emAt (emBit e)).getD s.now
    let s := s.put pwrStatus_EMSRC (was - 2 ^ emBit e)
    let s := s.modPwr fun p => { p with emAt := Tab.erase p.emAt (emBit e) }
    let s := if was = 2 ^ emBit e then { s.put sysState_EMERG 0 with emergClearAt := s.cone } else s
    s.logNotice 0x0204 0x3FE was (BitVec.ofNat 64 ((s.now - at_) / 1000000)) 0

/-! ## Loss of state (R389, R454, R461) -/

/-- What SEC keeps when all state is lost: fuses and OTP (R419). -/
def Sec.kept (c : Sec) : Sec :=
  { Sec.reset with
    vrootHash := c.vrootHash, vdbgHash := c.vdbgHash, ownerHash := c.ownerHash, idkPriv := c.idkPriv, idkPub := c.idkPub,
    idkDead := c.idkDead }

/-- The module in OFF: all state but fuses, OTP, the image and the trip latch is lost. -/
def State.goOff (s : State) : State :=
  let p := { Power.reset with
    rstN := s.power.rstN, pwrOk := s.power.pwrOk, inRange := s.power.inRange, railsUp := s.power.railsUp, trip := s.power.trip,
    thermtripN := s.power.thermtripN, temps := s.power.temps, cycle := s.power.cycle, phase := .off }
  let t := { State.reset with pending := s.pending, free := s.free, flash := s.flash, sec := s.sec.kept, power := p }
  ((((t.wr sysId (s.rd sysId)).wr sysSerial (s.rd sysSerial)).wr secFuses (s.rd secFuses)).put sysState_STATE mOFF)

/-- The core rails are removed (R454, R456): PWR_OK is deasserted and the module is OFF until RST_N is cycled. -/
def State.dropRails (s : State) : State :=
  s.goOff.modPwr fun p => { p with railsUp := false, pwrOk := false, cycle := true }

/-! ## Tolerance and low-power states (R444-R446) -/

/-- Whether a state whose exit latency is `x` ns is enabled. -/
def State.allows (s : State) (x : Nat) : Bool := 50 ≤ s.get pwrTol_TOL && x ≤ s.get pwrTol_TOL

/-- START reaches a cluster in IDLE or HALTED (R114): a power-gated one starts when its exit latency has passed (R446). -/
def State.startCl (s : State) (n : Nat) : State :=
  if s.get (pwrCl_STATE n) = 2 then
    s.modPwr fun p => { p with waking := if p.waking.any (fun u => match u with | .cluster m => m.val == n | _ => false) then p.waking
                                          else p.waking ++ [.cluster (Fin.ofNat 128 n)]
                               startWait := p.startWait.filter (· ≠ n) ++ [n] }
  else (s.wakeCl n).cmdStart n

/-! ## Optics sleep (R448) -/

/-- LSLEEP_REFUSED. -/
def State.sleepRefused (s : State) (i : Nat) : State :=
  s.logEv 0x0208 0x3FE i (s.rd (lnkStatus i)) (BitVec.ofNat 64 (s.get pwrTol_TOL))

/-- The mask bit of one link changes. -/
def State.sleepLink (s : State) (i : Nat) (on : Bool) : State :=
  if on then
    if s.lnk i = lkGLOST && 2000000 ≤ s.get pwrTol_TOL then (s.modLink i fun l => { l with sleepDrain := true }).drained i
    else s.sleepRefused i
  else if s.lnk i = lkSLEEP then s.doRetrain i
  else s

/-- The mask takes effect: the new mask is compared with the old one. -/
def State.sleepTake (s : State) : State :=
  let new := s.get pwrLsleep_MASK
  let old := s.power.lsleep
  (List.range 14).foldl (fun s i => if new.testBit i == old.testBit i then s else s.sleepLink i (new.testBit i))
    (s.modPwr fun p => { p with lsleep := new })

/-- A mask whose count is already past takes effect at once (R463). -/
def State.sleepReview (s : State) : State := if (s.rd pwrLsleepAt).toNat ≤ s.now then s.sleepTake else s

end Sys2Proof.Machine
end

