-- ==== Sys2Proof/Machine/SecOps.lean ====
section
/-!
DEFINITION. Machine/SecOps.lean: SEC's operations: random draws (R431), challenges and tokens (R425-R427), debug sessions (R439), the
manifest and the slots (R421-R424, R466-R468), the attestation key and its signatures (R420, R428).
-/
namespace Sys2Proof.Machine

/-! ## Firmware processors (R385) -/

/-- The key of a processor in `procs`. -/
def procKey : Proc → Nat
  | .sec => 0
  | .pwr => 1
  | .sch => 2
  | .ccc n => 3 + n.val

/-- A processor's state. -/
def State.proc (s : State) (p : Proc) : ProcSt := s.procs.get ProcSt.reset (procKey p)

/-- Sets a processor's state. -/
def State.setProc (s : State) (p : Proc) (v : ProcSt) : State := { s with procs := s.procs.set ProcSt.reset (procKey p) v }

/-- Whether a processor runs. -/
def State.procRuns (s : State) (p : Proc) : Bool := (s.proc p).st == .running

/-- Whether SEC serves requests: it runs, and is not in the error state (R437). -/
def State.secServes (s : State) : Bool := s.procRuns .sec && !s.flag secStatus_ERROR

/-- Updates SEC's state. -/
def State.modSec (s : State) (f : Sec → Sec) : State := { s with sec := f s.sec }

/-! ## Random numbers (R431) -/

/-- A generate request to the DRBG: its output is a free value (log entry 16). -/
def State.draw (s : State) (w : Nat) : BitVec w × State :=
  let t := s.fresh w
  (t.1, t.2.modSec fun c => { c with drbgReqs := c.drbgReqs + 1 })

/-- A draw between 1 and the group order less 1: a private key or a per-message secret. -/
def State.drawScalar (s : State) : Nat × State :=
  let t := s.draw 384
  (t.1.toNat % (n384 - 1) + 1, t.2)

/-- Reseeds the DRBG. -/
def State.reseed (s : State) : State := s.modSec fun c => { c with drbgReqs := 0, drbgAt := s.now }

/-! ## Challenges and debug sessions (R425, R439) -/

/-- SEC draws a challenge, which replaces the old one. -/
def State.drawChallenge (s : State) : State :=
  let t := s.draw 256
  let s := (List.range 4).foldl (fun s k => s.wr (secChal k) (BitVec.ofNat 64 (t.1.toNat / 2 ^ (64 * k)))) t.2
  (s.put secChalGen_VALID 1).modSec fun c => { c with challengeAt := s.now }

/-- The challenge's 32 bytes. -/
def State.challengeBytes (s : State) : List Byte := (List.range 4).flatMap fun k => bytesLE 8 (s.rd (secChal k)).toNat

/-- Opens a debug session; SCH posts the record (R439). -/
def State.openDebug (s : State) (live signer : Nat) : State :=
  ((((s.put secDbg_SESSION 1).put secDbg_SEEN 1).put secDbg_LIVE live).put secDbg_SIGNER signer).logNotice 0x0305 0x3FE live
    (BitVec.ofNat 64 signer) 0

/-! ## Tokens (R426, R427) -/

/-- A field of a token. -/
def tokField (t : List Byte) (o n : Nat) : Nat := natLE ((t.drop o).take n)

/-- A 48- or 96-byte big-endian string. -/
def beField (t : List Byte) (o n : Nat) : Nat := natBE ((t.drop o).take n)

/-- Whether a boot failed (R422). -/
def State.bootFailed (s : State) : Bool := s.mstate = mBOOTING && s.get secBoot_RESULT ≠ 0

/-- The result that a token's checks give for PURPOSE `want`; `expert` is the EXPERT_EN value that SET_POLICY asks for. A token of
another PURPOSE is malformed on this path (log entry 33). -/
def State.tokenResult (s : State) (t : List Byte) (want expert : Nat) : Nat :=
  let purpose := tokField t 6 1
  let signer := tokField t 7 1
  let arg := tokField t 48 8
  let live := arg % 2
  let argOk := if purpose = 1 then arg < 256 else if purpose = 3 then arg < 2 else arg = 0
  let pair := if purpose = 3 then signer = 1 || (signer = 0 && live = 0) else signer = 1
  let keyHash := sha384 ((t.drop 64).take 96)
  if tokField t 0 4 ≠ 0x4E4B5441 || tokField t 4 2 ≠ 1 || purpose ≠ want || !pair || !argOk || tokField t 56 8 ≠ 0 then 2
  else if tokField t 8 8 ≠ (s.rd sysSerial).toNat then 3
  else if !s.flag secChalGen_VALID || (t.drop 16).take 32 ≠ s.challengeBytes then 4
  else if (if signer = 0 then keyHash ≠ s.sec.vdbgHash else s.sec.ownerHash = 0 || keyHash ≠ s.sec.ownerHash) then 5
  else if !ecVerify (BitVec.ofNat 768 (beField t 64 96)) (sha384 (t.take 160)).toNat (beField t 160 48) (beField t 208 48) then 6
  else if (if want = 1 then arg ≠ expert
      else if want = 3 then live = 0 && !(s.bootFailed || s.mstate = mREADY || s.mstate = mFENCED)
      else false) then 7
  else 1

/-- Verifies a token: it consumes the challenge, and its result is shown, logged and counted. -/
def State.checkToken (s : State) (t : List Byte) (want expert : Nat) : Bool × State :=
  let r := s.tokenResult t want expert
  let s := (s.put secChalGen_VALID 0).put secDbg_RESULT r
  let s := if r = 1 then s else s.bump secCntAuth_COUNT
  (r = 1, s.logEv 0x0304 0x3FE (r + tokField t 6 1 % 8 * 2 ^ 8 + tokField t 7 1 % 2 * 2 ^ 11) (BitVec.ofNat 64 (tokField t 8 8)) 0 (r - 1))

/-! ## The manifest and the slots (R421-R424, R466-R468) -/

/-- A range of the image (R465). -/
def State.image (s : State) (off n : Nat) : List Byte := readBytes 0xFF s.flash off n

/-- Whether the image header passes its checks (R466). -/
def State.headerOk (s : State) : Bool :=
  let h := s.image 0 64
  tokField h 0 4 == 0x4A455246 && tokField h 4 2 == 1 && tokField h 6 2 == 1 && tokField h 8 8 == (s.rd sysSerial).toNat
    && tokField h 16 4 == s.get sysId_PART && tokField h 60 4 == (crc32c (h.take 60)).toNat

/-- A manifest copy. -/
def State.manifest (s : State) (c : Nat) : List Byte := s.image (0x10000 * (c + 1)) 928

/-- SEQ of a manifest. -/
def manSeq (m : List Byte) : Nat := tokField m 8 8

/-- MSVN of a manifest. -/
def manSvn (m : List Byte) : Nat := tokField m 16 1

/-- The SVN counter. -/
def State.svn (s : State) : Nat := s.get secFuses_SVN

/-- Steps 2 to 5 of R421 on a manifest: the RESULT of SEC.BOOT, 0 where it is valid. -/
def State.manifestResult (s : State) (m : List Byte) : Nat :=
  let vpub := (m.drop 32).take 96
  let opub := (m.drop 128).take 96
  if tokField m 0 4 ≠ 0x464E414D || tokField m 4 2 ≠ 1 || 64 < manSvn m then 7
  else if sha384 vpub ≠ s.sec.vrootHash then 2
  else if !ecVerify (BitVec.ofNat 768 (natBE vpub)) (sha384 (m.take 736)).toNat (beField m 736 48) (beField m 784 48) then 3
  else if s.sec.ownerHash ≠ 0 && (tokField m 6 1 % 2 = 0 || sha384 opub ≠ s.sec.ownerHash
      || !ecVerify (BitVec.ofNat 768 (natBE opub)) (sha384 (m.take 832)).toNat (beField m 832 48) (beField m 880 48)) then 4
  else if manSvn m < s.svn then 5
  else 0

/-- The copy that SEC uses (R468): the valid one with the higher SEQ, copy 0 on a tie; where neither is valid, the RESULT of the
copy whose SEQ is higher. -/
def State.pickManifest (s : State) : Nat × Nat :=
  let r0 := s.manifestResult (s.manifest 0)
  let r1 := s.manifestResult (s.manifest 1)
  let first := manSeq (s.manifest 1) ≤ manSeq (s.manifest 0)
  if r0 = 0 && (r1 ≠ 0 || first) then (0, 0)
  else if r1 = 0 then (0, 1)
  else if first then (r0, 0) else (r1, 1)

/-- A slot's entry in a manifest (R467). -/
def slotEntry (m : List Byte) (p sl : Nat) : List Byte := (m.drop (224 + 64 * (2 * p + sl))).take 64

/-- SVN of a slot's entry. -/
def slotSvn (m : List Byte) (p sl : Nat) : Nat := tokField (slotEntry m p sl) 2 1

/-- The bytes of a firmware slot that its entry covers. -/
def State.slotBytes (s : State) (m : List Byte) (p sl : Nat) : List Byte :=
  s.image (0x01000000 + (2 * p + sl) * 0x1000000) (min (tokField (slotEntry m p sl) 8 4) 0x1000000)

/-- Step 6 of R421 on one slot: not empty, its hash equal to its entry's, its SVN at least the counter. -/
def State.slotOk (s : State) (m : List Byte) (p sl : Nat) : Bool :=
  let e := slotEntry m p sl
  tokField e 8 4 ≠ 0 && tokField e 8 4 ≤ 0x1000000 && decide (s.svn ≤ tokField e 2 1) &&
    decide ((sha384 (s.slotBytes m p sl)).toNat = beField e 16 48)

/-- The active slot of processor `p` (0 SEC, 1 PWR, 2 SCH, 3 the CCCs, of which CCC `n` is meant). -/
def State.activeSlot (s : State) (p n : Nat) : Nat :=
  if p < 3 then (s.get sysFwSlot_SLOT / 2 ^ p) % 2
  else if n < 64 then bitsOf (s.rd sysCccSlotLo) n 1 else bitsOf (s.rd sysCccSlotHi) (n - 64) 1

/-- Records a processor's active slot (R406). -/
def State.setSlotOf (s : State) (p n sl : Nat) : State :=
  if p < 3 then s.put sysFwSlot_SLOT (s.get sysFwSlot_SLOT - (s.get sysFwSlot_SLOT / 2 ^ p) % 2 * 2 ^ p + sl * 2 ^ p)
  else if n < 64 then s.wr sysCccSlotLo (setBits (s.rd sysCccSlotLo) n 1 sl)
  else s.wr sysCccSlotHi (setBits (s.rd sysCccSlotHi) (n - 64) 1 sl)

/-! ## The attestation key (R420, R421, R434) -/

/-- SEC generates an AK and, unless the IDK can no longer be read, certifies it. What is signed is the certificate's encoding,
which the spec does not restate: its digest is a free value (log entry 23). -/
def State.makeAk (s : State) : State :=
  let d := s.drawScalar
  let pub := BitVec.ofNat 768 (ecKeyNat (ecPub d.1))
  let k := d.2.drawScalar
  let e := k.2.fresh 384
  let sig := ecSign k.2.sec.idkPriv k.1 e.1.toNat
  e.2.modSec fun c =>
    { c with
      akPriv := d.1
      akPub := pub
      akValid := !c.idkDead
      akCert := if c.idkDead then [] else
        Config.akCertBytes pub (s.rd sysSerial) (BitVec.ofNat 384 sig.1) (BitVec.ofNat 384 sig.2) }

/-- A signature with the AK over a digest: its 96 bytes. -/
def State.signAk (s : State) (e : Nat) : List Byte × State :=
  let k := s.drawScalar
  let sig := ecSign s.sec.akPriv k.1 e
  (bytesBE 48 sig.1 ++ bytesBE 48 sig.2, k.2)

/-- The certificate chain region's three certificates (R478). -/
def State.chainRegion (s : State) : List Byte :=
  let go := fun (p : List Byte × Nat) (_ : Nat) =>
    let n := min (natLE (s.image p.2 4)) 0x10000
    (p.1 ++ s.image (p.2 + 4) n, p.2 + 4 + n)
  ((List.range 3).foldl go ([], 0x30002)).1

/-- The slot-0 chain (R420): the image's certificates, then the AK certificate. -/
def State.chain (s : State) : List Byte := s.chainRegion ++ s.sec.akCert

/-! ## Measurements (R429) -/

/-- The value of a measurement block. -/
def State.measurement (s : State) (k : Nat) : List Byte :=
  let m := s.manifest (s.get imgBoot_MCOPY)
  let h := fun (b : List Byte) => bytesBE 48 (sha384 b).toNat
  match k with
  | 1 => bytesBE 48 Config.romHash.toNat
  | 2 => h (m.take 736)
  | 3 | 4 | 5 => h (s.slotBytes m (k - 3) (s.activeSlot (k - 3) 0))
  | 6 => h ((List.range 128).flatMap fun n => h (s.slotBytes m 3 (s.activeSlot 3 n)))
  | 7 => [BitVec.ofNat 8 s.svn,
      BitVec.ofNat 8 (s.get secFuses_OWNER + 2 * s.get secDbg_SEEN + 4 * s.get secDbg_SESSION + 8 * s.get secFuses_IDK_DEAD
        + 16 * s.sec.fallbackAtBoot.toNat)] ++ bytesLE 8 (s.rd sysSerial).toNat ++ List.replicate 6 0
  | _ =>
    let count := natLE (s.image 0x150006 2)
    h (s.image 0x150000 (if 2048 < count then 224 else 224 + 24 * count))

/-! ## Fuse writes (R423, R430) -/

/-- T of R423: the lower of MSVN and the lowest SVN among the active slots. -/
def State.svnTarget (s : State) : Nat :=
  let m := s.manifest (s.get imgBoot_MCOPY)
  let l := (List.range 3).map (fun p => slotSvn m p (s.activeSlot p 0)) ++ (List.range 128).map fun n => slotSvn m 3 (s.activeSlot 3 n)
  l.foldl min (manSvn m)

/-- Blows steps of the SVN counter up to T; `ok` is whether they read back (R423). A step that does not stops the raise for good. -/
def State.blowSvn (s : State) (ok : Bool) : State :=
  let t := s.svnTarget
  let old := s.svn
  let s := s.modSec fun c => { c with svnPend := false }
  if t ≤ old || s.sec.svnStuck then s
  else if ok then (s.put secFuses_SVN t).logEv 0x0308 0x3FE 0 (BitVec.ofNat 64 old) (BitVec.ofNat 64 t)
  else ((s.modSec fun c => { c with svnStuck := true }).put secStatus_ETEST 9).logEv 0x0301 0x3FE 9 0 0 9

/-- Whether SEC may write fuses: EMERGENCY is not set (R423, R457) and no image operation runs (R471). -/
def State.fusesFree (s : State) : Bool :=
  !s.flag sysState_EMERG && (match s.img with | some o => o.held | none => true)

/-- The counter is raised, or waits. Whether the steps read back is a free value (log entry 11). -/
def State.raiseSvn (s : State) : State :=
  if !s.fusesFree then s.modSec fun c => { c with svnPend := true }
  else let r := s.fresh 1; r.2.blowSvn (r.1 == 0)

/-- Blows OWNER_HASH (R430). -/
def State.enrol (s : State) (h : BitVec 384) : State :=
  ((s.modSec fun c => { c with ownerHash := h, enrolPend := none }).put secFuses_OWNER (if h = 0 then 0 else 1)).logEv 0x0309 0x3FE 0
    (BitVec.ofNat 64 (natLE ((bytesBE 48 h.toNat).take 8))) 0

end Sys2Proof.Machine
end

