-- ==== Sys2Proof/Machine/ImageOps.lean ====
section
/-!
DEFINITION. Machine/ImageOps.lean: the image engine (R465, R469-R471, R477, R481).
-/
namespace Sys2Proof.Machine

/-- The results of IMG.STATUS (R481): DENIED 1, RANGE 2, ALIGN 3, NOT_ERASED 4, VERIFY 5, ACCESS 6. -/
def imDENIED : Nat := 1
/-- RANGE. -/
def imRANGE : Nat := 2
/-- ALIGN. -/
def imALIGN : Nat := 3
/-- NOT_ERASED. -/
def imNOTERASED : Nat := 4
/-- VERIFY. -/
def imVERIFY : Nat := 5
/-- ACCESS. -/
def imACCESS : Nat := 6

/-- Whether a slot region is one that a processor is running. -/
def State.slotRunning (s : State) (r : Nat) : Bool :=
  let p := (r - 8) / 2
  let sl := (r - 8) % 2
  if p < 3 then s.activeSlot p 0 == sl else (List.range 128).any fun n => s.activeSlot 3 n == sl

/-- The refusals of R469 and the checks of R481; 0 where the operation may run. -/
def State.imgCheck (s : State) (o : ImgOp) : Nat :=
  let expert := (s.get sysExpertEn_EN).testBit 0
  if o.op = 3 then (if expert then 0 else imDENIED)
  else if o.region = 0 || o.region = 3 || o.region = 1 + s.get imgBoot_MCOPY || (8 ≤ o.region && s.slotRunning o.region)
      || (o.region = 4 && !expert) then imDENIED
  else if (regionOf o.region).2 < o.off + o.len then imRANGE
  else
    let a := if o.op = 1 then 0x10000 else 256
    if o.off % a ≠ 0 || o.len % a ≠ 0 then imALIGN else 0

/-- IMG_OP (R482). -/
def State.imgLog (s : State) (o : ImgOp) (result : Nat) : State :=
  s.logEv 0x0B03 o.mid (o.op + o.region % 16 * 16 + result * 256) (BitVec.ofNat 64 o.off) (BitVec.ofNat 64 o.len) result

/-- An operation ends with a result. -/
def State.imgEnd (s : State) (o : ImgOp) (result bytes : Nat) : State :=
  ((((({ s with img := none }.put imgStatus_BUSY 0).put imgStatus_HELD 0).put imgStatus_RESULT result).put imgStatus_DONE bytes).imgLog o
    result)

/-- An operation starts, or is refused (R469). -/
def State.imgRun (s : State) (o : ImgOp) : State :=
  let r := s.imgCheck o
  if r ≠ 0 then s.imgEnd o r 0
  else { s with img := some { o with held := false } }.put imgStatus_BUSY 1 |>.put imgStatus_HELD 0 |>.put imgStatus_DONE 0

/-- A write of OP (R471): none where it is ignored, because the engine is busy or a PLDM update holds it; while EMERGENCY is
set it waits. -/
def State.imgStart (s : State) (mid op : Nat) : Option State :=
  if op = 0 || 3 < op then some s
  else if s.img.isSome || s.mgmt.update.isSome then none
  else
    let o : ImgOp := if op = 3 then ⟨3, 4, 0, 0, 0, mid, false⟩
      else ⟨op, s.get imgCtrl_REGION, s.get imgCtrl_OFF, s.get imgLen_LEN, s.get imgSrc_ADDR, mid, false⟩
    if s.flag sysState_EMERG then
      some ({ s with img := some { o with held := true } }.put imgStatus_BUSY 1 |>.put imgStatus_HELD 1)
    else some (s.imgRun o)

/-- The HBM sections that CAL_SAVE writes (R475, R477): opaque blobs of the training in force, each with its CRC. -/
def State.calSave (s : State) : State :=
  (List.range 8).foldl (fun s k =>
    let t := s.fresh (8 * 65532)
    let b := bytesLE 65532 t.1.toNat
    { t.2 with flash := writeBytes 0xFF t.2.flash (0x40000 + 0x20000 + k * 0x10000) (b ++ bytesLE 4 (crc32c b).toNat) }) s

/-- The effect of the operation that runs, as it ends; `verified` is whether PROGRAM's readback agrees. -/
def State.imgEffect (s : State) (o : ImgOp) (verified : Bool) : State :=
  let at_ := (regionOf o.region).1 + o.off
  if o.op = 1 then { s with flash := Tab.eraseRange s.flash at_ (at_ + o.len) }.imgEnd o 0 o.len
  else if o.op = 2 then
    let r := match decodeAddr o.src with
      | .hbm _ => s.memRead 0x122 o.src o.len
      | _ => (s.accessErr 0x122 o.src rDECERR, rDECERR, o.src, [])
    if r.2.1 ≠ rOK then r.1.imgEnd o imACCESS 0
    else if !(r.1.image at_ o.len).all (· == 0xFF) then r.1.imgEnd o imNOTERASED 0
    else
      let s := { r.1 with flash := writeBytes 0xFF r.1.flash at_ r.2.2.2 }
      if verified then s.imgEnd o 0 o.len else s.imgEnd o imVERIFY o.len
  else s.calSave.imgEnd o 0 (8 * 0x10000)

end Sys2Proof.Machine
end

