-- ==== Sys2Proof/Machine/Alarm.lean ====
section
/-!
DEFINITION. Machine/Alarm.lean: CL.CMD (R114), the alarms of the cone count (R338), and the commands that they are.
-/
namespace Sys2Proof.Machine

/-- Local address of the register with key `k`. -/
def regAddr (k : Nat) : Nat := regBase + k

/-! ## CL.CMD (R114) -/

/-- START of CL.CMD. -/
def ccSTART : Nat := 1
/-- RESUME. -/
def ccRESUME : Nat := 2
/-- SKIP. -/
def ccSKIP : Nat := 3
/-- STOP. -/
def ccSTOP : Nat := 4
/-- PAUSE. -/
def ccPAUSE : Nat := 5

/-- Whether a cluster's state accepts a command (R114); a FENCED module accepts no START (R307; log entry 34). -/
def State.clAccepts (s : State) (n cmd : Nat) : Bool :=
  let st := s.clSt n
  match cmd with
  | 1 => (st = clIDLE || st = clHALTED) && s.mstate ≠ mFENCED
  | 2 => st = clEXCEPTION || st = clPAUSED
  | 3 => st = clEXCEPTION
  | 4 => st = clRUNNING || st = clEXCEPTION || st = clPAUSED
  | 5 => st = clRUNNING
  | _ => false

/-- A command that the cluster's state accepts. -/
def State.clDo (s : State) (n cmd : Nat) : State :=
  match cmd with
  | 1 => s.startCl n
  | 2 => s.cmdResume n
  | 3 => s.cmdSkip n
  | 4 => s.cmdStop n
  | _ => s.cmdPause n

/-- A command is written to CL.CMD: in any other state it is ignored and logged. Codes 0, 6 and 7 are no action. -/
def State.clCommand (s : State) (mid n cmd : Nat) : State :=
  if cmd = 0 || 5 < cmd then s
  else if s.clAccepts n cmd then s.clDo n cmd
  else s.ignored mid (regAddr (clCmd n)) (BitVec.ofNat 64 cmd)

/-- Whether commands of SCH's to a cluster wait: its CCC restarts (R385). -/
def State.cccBusy (s : State) (n : Nat) : Bool := (s.proc (.ccc (Fin.ofNat 128 n))).st == .restarting

/-- SCH writes a command to a list of clusters; one whose CCC restarts receives it afterwards. -/
def State.clCommands (s : State) (cmd : Nat) (l : List Nat) : State :=
  l.foldl (fun s n => if s.cccBusy n then { s with clWait := s.clWait ++ [(n, cmd)] } else s.clCommand 0x122 n cmd) s

/-- A CCC has restarted: the commands that waited for it are written. -/
def State.clRelease (s : State) (n : Nat) : State :=
  (s.clWait.filter (·.1 = n)).foldl
    (fun s e => if e.2 = ccSTOP && !s.clAccepts n ccSTOP then s.cancelCluster n else s.clCommand 0x122 n e.2) { s with clWait := s.clWait.filter (·.1 ≠ n) }

/-- The clusters of a 128-bit mask in two words. -/
def maskList (lo hi : W64) : List Nat :=
  (List.range 128).filter fun n => if n < 64 then lo.getLsbD n else hi.getLsbD (n - 64)

/-- STOP to every cluster that it concerns (R307, R397, R405): every collective is cancelled. -/
def State.stopAll (s : State) : State :=
  (List.range 128).foldl (fun s n =>
    if s.cccBusy n then { s with clWait := s.clWait ++ [(n, ccSTOP)] }
    else if s.clAccepts n ccSTOP then s.cmdStop n
    else s.cancelCluster n) s

/-! ## Alarms (R338) -/

/-- The clusters that an alarm selects. -/
def State.alarmSel (s : State) (k : Nat) : List Nat := maskList (s.rd (coneAlarmSelLo k)) (s.rd (coneAlarmSelHi k))

/-- An ACTION 1 alarm writes START to its clusters; power-gated ones start late (R446): the delay is a free value of at most
15 µs (log entry 11). -/
def State.alarmStarts (s : State) (k : Nat) : State :=
  let sel := s.alarmSel k
  let late := sel.filter fun n => s.clAccepts n ccSTART && s.get (pwrCl_STATE n) = 2
  let s := sel.foldl (fun s n => s.clCommand 0x122 n ccSTART) s
  if late.isEmpty then s.autoState
  else
    let d := s.fresh 64
    (d.2.logEv 0x020A 0x3FE k (BitVec.ofNat 64 late.length) (BitVec.ofNat 64 (d.1.toNat % 15001))).autoState

/-- An alarm fires. ACTION 0 interrupts SCH, which for alarm 7 carries out the DRAIN that armed it (R397; log entry 35). -/
def State.fireAlarm (s : State) (k : Nat) (late : Bool) : State :=
  let s := (s.put (coneAlarmCtrl_EN k) 0).put (coneAlarmCtrl_FIRED k) 1
  let s := if late then s.put (coneAlarmCtrl_LATE k) 1 else s
  match s.get (coneAlarmCtrl_ACTION k) with
  | 0 => if k = 7 then s.stopAll.autoState else s
  | 1 => s.alarmStarts k
  | 2 => s.flip
  | _ => s

/-- Whether an alarm is enabled and its count has come. -/
def State.alarmDue (s : State) (k : Nat) : Bool := s.flag (coneAlarmCtrl_EN k) && (s.rd (coneAlarmAt k)).toNat ≤ s.now

/-- An alarm is armed; with AT already past it fires at once and sets LATE. -/
def State.armAlarm (s : State) (k : Nat) : State :=
  if (s.rd (coneAlarmAt k)).toNat < s.now then s.fireAlarm k true else s.put (coneAlarmCtrl_EN k) 1

/-- Sets up and arms an alarm of SCH's. -/
def State.setAlarm (s : State) (k action : Nat) (at_ lo hi : W64) : State :=
  ((((s.wr (coneAlarmAt k) at_).wr (coneAlarmSelLo k) lo).wr (coneAlarmSelHi k) hi).put (coneAlarmCtrl_ACTION k) action).armAlarm k

/-- The frame of an alarm that falls due with a given ACTION. -/
def alarmRow (k action : Nat) (s : State) : Host.Outcome State Fault Refusal :=
  if s.alarmDue k && s.get (coneAlarmCtrl_ACTION k) = action then Sys2Proof.Machine.done (s.fireAlarm k false) else .next s

/-- ALARM_INTERRUPT (R338). -/
def execAlarmInterrupt (k : Fin 8) (s : State) : Host.Outcome State Fault Refusal := alarmRow k 0 s

/-- ALARM_START (R338). -/
def execAlarmStart (k : Fin 8) (s : State) : Host.Outcome State Fault Refusal := alarmRow k 1 s

/-- ALARM_FLIP (R274, R338): the ACTION 2 alarm of the lowest index that is due. -/
def execAlarmFlip (s : State) : Host.Outcome State Fault Refusal :=
  match (List.range 8).find? fun k => s.alarmDue k && s.get (coneAlarmCtrl_ACTION k) = 2 with
  | some k => alarmRow k 2 s
  | none => .next s

/-- START_AT_WAKE (R446): PWR wakes the clusters that an armed START_AT selects, at most 20 µs before its count. -/
def execStartAtWake (k : Fin 8) (s : State) : Host.Outcome State Fault Refusal :=
  if s.flag (coneAlarmCtrl_EN k) && s.get (coneAlarmCtrl_ACTION k) = 1 && (s.rd (coneAlarmAt k)).toNat ≤ s.now + 20000 then
    .next ((s.alarmSel k).foldl State.wakeCl s)
  else .next s

/-! ## Pauses (R115) -/

/-- PAUSE_AT_DUE (R115). -/
def execPauseAtDue (cl : Fin 128) (s : State) : Host.Outcome State Fault Refusal :=
  if s.pauseDue cl then Sys2Proof.Machine.done (s.duePause cl) else .next s

end Sys2Proof.Machine
end

