-- ==== Sys2Proof/Machine/KilnRows.lean ====
section
/-!
DEFINITION. Machine/KilnRows.lean: the commands of the kiln complex and of the fabric interfaces' source queues (R138, R143-R144,
R158-R179), but for the answer to a result REPAIR, which reads memory.
-/
namespace Sys2Proof.Machine

/-! ## Checks of R158 -/

/-- Cluster and plan slot of a packet of the reduction family (R118, R134). -/
def Pkt.pair (p : Pkt) : Nat × Nat := (ckCl p.chunk, p.coll / 64)

/-- The account that a packet's checks 1 and 2 of R158 leave: none where the plan is not valid or is poisoned, or the packet is
older than the last completion of its ID (R170). -/
def State.kilnPlan (s : State) (p : Pkt) : Option PlanAcct :=
  let k := p.pair
  if s.poisoned.get false (k.1 * 64 + k.2) then none
  else match s.plan k.1 k.2 with
    | none => none
    | some a =>
      match s.idDone.find (k.1 * 4096 + p.coll) with
      | some t => if s.now ≤ t + s.ageLimit && ageBefore p.age.toNat t then none else some a
      | none => some a

/-- EMASK of a chunk of a collective issued here (R156); 0 where the collective has no such chunk in that phase. -/
def Coll.emask (c : Coll) (a : PlanAcct) (chunk : Nat) : Nat :=
  let ph := ckPh chunk
  let r := c.range a.plan (ckP1 chunk) ph
  if !c.kind.reduces || a.plan.nph ≤ ph || ckJ chunk < r.1 || r.1 + r.2 ≤ ckJ chunk || (ckP1 chunk = 1 && !a.plan.bfx) then 0
  else emaskOf a.plan.alg (a.plan.n ph) (a.plan.ph ph).idx (c.owner a.plan (ckP1 chunk) ph (ckJ chunk))

/-- Whether a mask holds a bit outside another. -/
def outside (m e : Nat) : Bool := m &&& e != m

/-- Whether a RED arrives under a credit (R173): it comes from the neighbour at the start of a chain; a repair answer comes from
any other member, or for a chunk that its neighbour has sent before. -/
def redCredited (alg n m k : Nat) : Bool :=
  match alg with
  | 0 => (k == 0 && m == 1) || (k + 1 == n && m + 1 == k)
  | 1 => k != m && m == (k + 1) % n
  | _ => k + 1 == n && m + 1 == k

/-! ## Operands: RED and RED_PART (R158, R159, R171) -/

/-- A RED or RED_PART at the kiln complex. -/
def State.kilnOperand (s : State) (p : Pkt) (part : Bool) (chk : KilnCheck) : State :=
  let cl := p.pair.1
  let pl := p.pair.2
  match s.kilnPlan p with
  | none => s.bump klnCntStale_COUNT
  | some a =>
    let ph := ckPh p.chunk
    let f := a.plan.ph ph
    let bad := match s.coll cl p.coll with
      | some c => outside p.cmask (c.emask a p.chunk)
      | none => decide (a.plan.nph ≤ ph) || p.cmask = 0 || outside p.cmask (2 ^ (f.nm + 1) - 1)
    let late := if part then p.late else Nat.log2 p.cmask
    if bad || p.cmask = 0 then s.bump klnCntBadmask_COUNT
    else
      let take := fun (s : State) (i : Nat) =>
        match chk, s.accAt i with
        | .ok, _ => s.operand i a p.cmask late p.payload
        | k, some c =>
          if c.st = .opened && p.cmask &&& (c.parked.foldl (fun m x => m ||| x.1) c.rmask) = 0 then s.foldFault i a k
          else s.operand i a p.cmask late p.payload
        | _, none => s
      match s.findAcc p.coll p.chunk with
      | some (i, _) => take s i
      | none =>
        if s.watchBit p.coll p.chunk false then s.bump klnCntDup_COUNT
        else if part || redCredited a.plan.alg (f.nm + 1) f.idx late then
          (match s.openAcc cl pl a p.coll p.chunk p.fmt with
            | some (i, t) => take t i
            | none => s.bump klnCntStale_COUNT)
        else s.bump klnCntStale_COUNT

/-- A RED or RED_PART is taken from port 18; its cells are released once it is folded or dropped (R244). -/
def kilnOperandRow (typ : BitVec 6) (part : Bool) (chk : KilnCheck) (s : State) : Host.Outcome State Fault Refusal :=
  match s.takeHead 18 (fun p => p.typ == typ) with
  | some (d, s) => Sys2Proof.Machine.done ((s.kilnOperand d.pkt part chk).release 0x131 d.cells)
  | none => .next s

/-- RED (R158, R159). -/
def execRed (chk : KilnCheck) (s : State) : Host.Outcome State Fault Refusal := kilnOperandRow tRED false chk s

/-- RED_PART (R158, R159). -/
def execRedPart (chk : KilnCheck) (s : State) : Host.Outcome State Fault Refusal := kilnOperandRow tREDPART true chk s

/-! ## Results: RED_RES and DONE (R161, R162, R173) -/

/-- Whether a collective has a chunk in a phase and pass. -/
def Coll.hasChunk (c : Coll) (p : Plan) (chunk : Nat) : Bool :=
  let ph := ckPh chunk
  let r := c.range p (ckP1 chunk) ph
  ph < c.phases p && (ckP1 chunk = 0 || p.bfx && c.kind.reduces) && r.1 ≤ ckJ chunk && ckJ chunk < r.1 + r.2

/-- RED_RES (R158, R161, R162): a data chunk waits for its landing; a pass-1 chunk is taken at once. -/
def execRedRes (s : State) : Host.Outcome State Fault Refusal :=
  match s.takeHead 18 (fun p => p.typ == tREDRES) with
  | none => .next s
  | some (d, s) =>
    let p := d.pkt
    match s.kilnPlan p, s.coll p.pair.1 p.coll with
    | some a, some c =>
      if !c.hasChunk a.plan p.chunk then done ((s.bump klnCntStale_COUNT).release 0x131 d.cells)
      else if ckP1 p.chunk = 1 then
        done ((s.landed p.pair.1 p.pair.2 a c p.chunk none false p.payload).release 0x131 d.cells)
      else
        done { s with landings := s.landings ++ [⟨p.coll, p.chunk, p.payload, none, d.cells, d.mid, false, []⟩] }
    | _, _ => done ((s.bump klnCntStale_COUNT).release 0x131 d.cells)

/-- Whether a DONE carries a credit (R157). -/
def Pkt.cred (p : Pkt) : Bool := p.w2.getLsbD 13

/-- DONE_FINALITY (R158, R162). -/
def execDoneFinality (s : State) : Host.Outcome State Fault Refusal :=
  match s.takeHead 18 (fun p => p.typ == tDONE && !p.cred) with
  | none => .next s
  | some (d, s) =>
    let p := d.pkt
    let s := s.release 0x131 d.cells
    match s.kilnPlan p, s.coll p.pair.1 p.coll with
    | some a, some c =>
      if c.hasChunk a.plan p.chunk then done (s.landed p.pair.1 p.pair.2 a c p.chunk none true [])
      else done (s.bump klnCntStale_COUNT)
    | _, _ => done (s.bump klnCntStale_COUNT)

/-- The direction of the counter that a credit from member `k` concerns: the neighbour that the packets of `m` go to. -/
def creditDir (alg n m k : Nat) : Option Nat :=
  match alg with
  | 0 => if k = m + 1 then some 1 else if k + 1 = m then some 0 else none
  | 1 => if k = (m + 1) % n then some 1 else none
  | _ => if k + 1 = m then some 0 else none

/-- DONE_CREDIT (R173): RET follows the largest RCUM taken; any other credit is dropped and counted. -/
def execDoneCredit (s : State) : Host.Outcome State Fault Refusal :=
  match s.takeHead 18 (fun p => p.typ == tDONE && p.cred) with
  | none => .next s
  | some (d, s) =>
    let p := d.pkt
    let s := s.release 0x131 d.cells
    match s.plan p.pair.1 p.pair.2 with
    | none => done (s.bump klnCntStale_COUNT)
    | some a =>
      let ph := ckPh p.chunk
      let f := a.plan.ph ph
      let dir := if ph < a.plan.nph then
          (match s.memberOf f p.src.toNat with
            | some k => creditDir a.plan.alg (f.nm + 1) f.idx k
            | none => none)
        else none
      match dir with
      | none => done (s.bump klnCntStale_COUNT)
      | some dr =>
        let k := ph * 4 + dr
        let delta := (p.cmask + 2 ^ 32 - a.ret.get 0 k % 2 ^ 32) % 2 ^ 32
        if ageBefore p.age.toNat a.loadedAt || delta = 0 || 2 ^ 31 ≤ delta then done (s.bump klnCntStale_COUNT)
        else done (s.modPlan p.pair.1 p.pair.2 fun a => { a with ret := a.ret.modify 0 k (· + delta) })

/-! ## Repair (R167-R169) -/

/-- REPAIR_CONTRIBUTION (R168): answered with a RED from the held source or the HELD sum of the phase below, with the AGE of the
request and no credit. -/
def execRepairContribution (s : State) : Host.Outcome State Fault Refusal :=
  match s.takeHead 18 (fun p => p.typ == tREPAIR && p.cmask != 0) with
  | none => .next s
  | some (d, s) =>
    let p := d.pkt
    let cl := p.pair.1
    let s := s.release 0x131 d.cells
    match s.kilnPlan p with
    | none => done (s.bump klnCntStale_COUNT)
    | some a =>
      let k := (a.plan.ph (ckPh p.chunk)).idx
      match (if p.cmask = 2 ^ k then s.heldContribution cl p.pair.2 a p.coll p.chunk else none) with
      | none => done (s.bump klnCntRepairUnserved_COUNT)
      | some b =>
        let fmt := match s.coll cl p.coll with | some c => c.wordFmt a.plan (ckP1 p.chunk) | none => p.fmt
        if ckPh p.chunk = 0 then
          done (s.fiSend cl (collPkt tRED p.src.toNat p.coll p.chunk fmt a.plan.op (2 ^ k) (fiFlow cl p.pair.2) (k * 2 ^ 11) b)
            (some p.age.toNat))
        else
          let pk := collPkt tRED p.src.toNat p.coll p.chunk fmt a.plan.op (2 ^ k) 0x131 (k * 2 ^ 11) b
          match s.findAcc p.coll (p.chunk - 2 ^ 14) with
          | some (_, c) =>
            let r := s.addRef (groupCells c.group)
            done (r.1.kilnSend pk (if r.2 then some c.group else none) (some p.age.toNat))
          | none => done (s.kilnSend pk none (some p.age.toNat))

/-- CONTEXT_DEADLINE (R159, R167): an OPEN context whose DEADLINE has come sends a repair round. -/
def execContextDeadline (idx : Fin 1048576) (s : State) : Host.Outcome State Fault Refusal :=
  match s.accAt idx with
  | some c =>
    if c.st = .opened && !c.comp && c.deadline ≤ s.now then
      match s.plan (ckCl c.chunk) (c.coll / 64) with
      | some a => done (s.repairRound idx a false)
      | none => .next s
    else .next s
  | none => .next s

/-- WATCH_DEADLINE (R169): a result REPAIR to the owner of every chunk whose FWD is 1 and RES is 0. -/
def execWatchDeadline (idx : Fin 1048576) (s : State) : Host.Outcome State Fault Refusal :=
  match s.ctx.find idx with
  | some (.watch w) =>
    let cl := ckCl w.chunk
    match s.coll cl w.coll, s.plan cl (w.coll / 64) with
    | some c, some a =>
      if w.deadline ≤ s.now && w.res ≠ BitVec.allOnes 64 then
        let ph := ckPh w.chunk
        let f := a.plan.ph ph
        let ks := (List.range 64).filter fun b => w.fwd.getLsbD b && !w.res.getLsbD b
        let s := s.setWatch idx { w with tries := min (w.tries + 1) 7, deadline := s.now + s.arr }
        done (ks.foldl (fun s b =>
          let o := c.owner a.plan (ckP1 w.chunk) ph (ckJ w.chunk + b)
          if o = f.idx then s
          else (s.kilnSend (collPkt tREPAIR (s.memberCoord f o) w.coll (w.chunk + b) 0 a.plan.op 0 0x131 0 []) none none).bump
            klnCntRepairTx_COUNT) s)
      else .next s
    | _, _ => .next s
  | _ => .next s

/-- RES_HOLD_EXPIRY (R176): a HELD context with HRES = 1 is released after RES_HOLD. -/
def execResHoldExpiry (idx : Fin 1048576) (s : State) : Host.Outcome State Fault Refusal :=
  match s.accAt idx with
  | some c => if c.st = .held && c.hres && c.heldAt + s.resHold ≤ s.now then done (s.freeAcc idx) else .next s
  | none => .next s

/-! ## The stall timer (R143, R144) -/

/-- The phases of a collective that still miss a RES bit, by their watch entries. -/
def State.openPhases (s : State) (cl id : Nat) : List Nat :=
  (List.range 3).filter fun ph => s.ctx.any fun e => match e.2 with
    | .watch w => w.coll = id && ckCl w.chunk = cl && ckPh w.chunk = ph && w.res ≠ BitVec.allOnes 64
    | .acc _ => false

/-- MISSING of a phase (R144): the expected contributors not yet received over its open contexts, or the owners of the missing
chunks where the member waits only for results. -/
def State.missing (s : State) (c : Coll) (a : PlanAcct) (ph : Nat) : Nat :=
  let contrib := s.ctx.foldl (fun m e => match e.2 with
    | .acc x =>
      if x.coll = c.id && ckCl x.chunk = c.cl && ckPh x.chunk = ph && x.st = .opened && !x.comp then
        m ||| (x.emask - (x.emask &&& x.parked.foldl (fun m y => m ||| y.1) x.rmask))
      else m
    | .watch _ => m) 0
  if contrib ≠ 0 then contrib
  else s.ctx.foldl (fun m e => match e.2 with
    | .watch w =>
      if w.coll = c.id && ckCl w.chunk = c.cl && ckPh w.chunk = ph then
        ((List.range 64).filter fun b => !w.res.getLsbD b).foldl
          (fun m b => m ||| 2 ^ (c.owner a.plan (ckP1 w.chunk) ph (ckJ w.chunk + b))) m
      else m
    | .acc _ => m) 0

/-- The lowest set bit of a mask below 32. -/
def lowestBit (m : Nat) : Nat := ((List.range 32).find? fun k => m.testBit k).getD 0

/-- COLL_STALL (R143-R145): the timer of a collective fires; the report is logged and raised at the wait of the cluster. -/
def execCollStall (cl : Fin 128) (plan : Fin 64) (seq : Fin 64) (s : State) : Host.Outcome State Fault Refusal :=
  let id := plan.val * 64 + seq.val
  match s.coll cl id, s.plan cl plan with
  | some c, some a =>
    (match c.stall with
      | .runs t =>
        if t ≤ s.now then
          let ph := (s.openPhases cl id).headD 0
          let m := s.missing c a ph
          let rpt := ph * 2 ^ 32 + m % 2 ^ 32
          let s := s.logEv 0x0402 cl id (BitVec.ofNat 64 rpt) (BitVec.ofNat 64 (s.memberCoord (a.plan.ph ph) (lowestBit m)))
          done ((s.modColl cl id fun c => { c with stall := .stopped, fired := some rpt }).wakeColl cl)
        else .next s
      | _ => .next s)
  | _, _ => .next s

/-! ## Landing (R171, R177-R179) -/

/-- A landing is refused (R171): the chunk is abandoned. -/
def State.landFault (s : State) (l : Landing) (a : PlanAcct) (resp addr : Nat) : State :=
  let s := s.engineFault 0x131 addr resp
  match l.own with
  | some i => s.abandon i 2 a
  | none => (s.kilnFault 2 l.coll l.chunk).failColl (ckCl l.chunk) l.coll (ckPh l.chunk)

/-- What follows a landing whose bytes are written: its touch bits, then the RES bit (R162, R178). -/
def State.landTouch (s : State) (l : Landing) (a : PlanAcct) (c : Coll) (blocks : List Nat) : State :=
  let r := s.touch blocks
  if r.2 = rOK then (r.1.landed (ckCl l.chunk) (l.coll / 64) a c l.chunk l.own false l.data).release l.mid l.cells
  else (r.1.landFault l a r.2 (s.get klnTouchBase_BASE * 4096)).release l.mid l.cells

/-- LANDING_ACK (R177-R179): the oldest landing that is not yet written is written; its touch bits are set, or wait while the
bitmap is being cleared. Accesses of the kiln complex wait while ACC.CTRL.HOLD is 1. -/
def execLandingAck (s : State) : Host.Outcome State Fault Refusal :=
  match s.landings.find? (fun l => !l.written) with
  | none => .next s
  | some l =>
    if s.accHeld 0x131 then .next s
    else
      let t := { s with landings := s.landings.erase l }
      match t.coll (ckCl l.chunk) l.coll, t.plan (ckCl l.chunk) (l.coll / 64) with
      | some c, some a =>
        let r := t.landChunk c a.plan (ckJ l.chunk) l.data
        if r.2.1 ≠ rOK then done ((r.1.landFault l a r.2.1 r.2.2.1).release l.mid l.cells)
        else if r.2.2.2.isEmpty || !t.flag klnTouchCtrl_BUSY then done (r.1.landTouch l a c r.2.2.2)
        else done { r.1 with landings := r.1.landings ++ [{ l with written := true, blocks := r.2.2.2 }] }
      | _, _ => done (t.release l.mid l.cells)

/-- Zeroes a range of local memory by hardware: its bytes and codewords. -/
def State.zeroRange (s : State) (lo hi : Nat) : State :=
  { s with mem := Tab.eraseRange s.mem lo hi, memErr := s.memErr.eraseRange (lo / 8) ((hi + 7) / 8) }

/-- A clear of the touch bitmap ends (R179): the bitmap is zero, BUSY falls, and the bit settings that waited are applied. -/
def State.touchCleared (s : State) : State :=
  let lo := s.get klnTouchBase_BASE * 4096
  let n := (s.get klnLandSize_BLOCKS + 7) / 8
  let s := if lo + n ≤ 0x8000000000 then s.zeroRange lo (lo + n) else s
  let s := s.put klnTouchCtrl_BUSY 0
  let ls := s.landings.filter (·.written)
  let s := { s with landings := s.landings.filter fun l => !l.written }
  ls.foldl (fun s l =>
    match s.coll (ckCl l.chunk) l.coll, s.plan (ckCl l.chunk) (l.coll / 64) with
    | some c, some a => s.landTouch l a c l.blocks
    | _, _ => s.release l.mid l.cells) s

/-! ## Source queues (R138, R139) -/

/-- A member's own part of a gather is sent (R125, R126, R161): multicast from the owner, or point to point for an all-to-all
part; a part of its own lands here. -/
def State.sendPart (s : State) (cl p : Nat) (a : PlanAcct) (c : Coll) (x : Contrib) : State :=
  let ph := ckPh x.chunk
  let f := a.plan.ph ph
  let m := f.idx
  let land := fun (s : State) (chunk : Nat) =>
    { s with landings := s.landings ++ [⟨x.coll, chunk, x.data, none, [], 0x131, false, []⟩] }
  let pk := fun (dst chunk span : Nat) =>
    collPkt tREDRES dst x.coll chunk c.fmt a.plan.op (2 ^ (f.nm + 1) - 1) (fiFlow cl p) span x.data
  match c.kind with
  | .a2a =>
    -- the queue numbers the parts by receiver, the packets by sender (R130)
    let rcv := ckJ x.chunk / c.n1
    let ck := chunkOf cl 0 0 (m * c.n1 + ckJ x.chunk % c.n1)
    if rcv = m then land s ck else s.fiSend cl (pk (s.memberCoord f rcv) ck 0) none
  | k =>
    let sp := a.plan.span ph (a.plan.bothWays false)
    let s := if sp % 1024 = 0 then s else s.fiSend cl (pk s.coord x.chunk sp) none
    if k == Fused.bcast then s.settle cl p a c 0 (ckJ x.chunk) false x.data ph else land s x.chunk

/-- A contribution obtains its credit and leaves its source queue (R138, R156, R173): straight to the next member as a RED, or
into this module's kiln. -/
def State.sendContrib (s : State) (cl p : Nat) (a : PlanAcct) (c : Coll) (x : Contrib) : Option State :=
  if x.isRes then some (s.sendPart cl p a c x)
  else
    let ph := ckPh x.chunk
    let f := a.plan.ph ph
    let n := f.nm + 1
    let o := c.owner a.plan (ckP1 x.chunk) ph (ckJ x.chunk)
    let own := fun (s : State) => (s.spend cl p (ph * 4 + 2)).ownOperand cl p a x.coll x.chunk (c.wordFmt a.plan (ckP1 x.chunk)) x.data
    match nextOf a.plan.alg n f.idx o with
    | some (nx, dir) =>
      if emaskOf a.plan.alg n f.idx o = 2 ^ f.idx then
        if a.credits (ph * 4 + dir) = 0 then none
        else
          let s := (s.spend cl p (ph * 4 + dir)).setBit x.coll x.chunk true false
          some (s.fiSend cl (collPkt tRED (s.memberCoord f nx) x.coll x.chunk (c.wordFmt a.plan (ckP1 x.chunk)) a.plan.op (2 ^ f.idx)
            (fiFlow cl p) (f.idx * 2 ^ 11) x.data) none)
      else if a.credits (ph * 4 + 2) = 0 then none else some (own s)
    | none => if a.credits (ph * 4 + 2) = 0 then none else some (own s)

/-- CONTRIBUTION_INJECT (R138): the contribution at the head of a source queue leaves it if it has a credit. -/
def execContributionInject (cl : Fin 128) (plan : Fin 64) (s : State) : Host.Outcome State Fault Refusal :=
  match s.plan cl plan with
  | some a =>
    (match a.queue with
      | x :: rest =>
        let t := s.modPlan cl plan fun a => { a with queue := rest }
        (match s.coll cl x.coll with
          | some c => (match t.sendContrib cl plan a c x with
            | some u => done u
            | none => .next s)
          | none => .next t)
      | [] => .next s)
  | none => .next s

end Sys2Proof.Machine
end

