-- ==== Sys2Proof/Machine/SchOps.lean ====
section
/-!
DEFINITION. Machine/SchOps.lean: submitting commands (R393, R417) and taking them from the queue heads (R398).
-/
namespace Sys2Proof.Machine

/-! ## Commands (R394, R395) -/

/-- A reserved opcode, SOURCE or KIND (R395, R412, R430). -/
def Cmd.reserved (c : Cmd) : Bool :=
  match c.op with
  | 0x0D => bitsOf (c.word 1) 0 2 = 3
  | 0x14 => 2 ≤ bitsOf (c.word 1) 0 2
  | 0x15 => 4 ≤ bitsOf (c.word 1) 0 4
  | o => o = 0 || 0x17 < o

/-- Whether a queue's head is in progress. -/
def State.inRun (s : State) (q : Nat) : Bool := s.runs.any (·.q == q)

/-- Whether SCH takes commands: it runs, and no STOP policy keeps it to HEARTBEAT (R388, R405). -/
def State.schTakes (s : State) : Bool := s.mstate ≠ mOFF && s.procRuns .sch

/-- Check 1 of R397: the submitter holds XQ (R373). -/
def State.mayExecute (s : State) (c : Cmd) : Bool := s.granted 0x004 c.sub.mid aXQ

/-- Reserved commands at the queue heads complete with E_PARAM, or E_ACCESS where their submitter lacks XQ (R397). -/
def State.schSettle (s : State) : Nat → State
  | 0 => s
  | fuel + 1 =>
    if !s.schTakes || s.orphanStop then s
    else match (List.range 64).find? fun q => !s.inRun q && (match s.queue q with | c :: _ => c.reserved | [] => false) with
      | some q => (match s.queue q with
        | c :: _ => ({ s with rrq := q }.finishCmd q (if s.mayExecute c then ePARAM else eACCESS) 0).schSettle fuel
        | [] => s)
      | none => s

/-- As many reserved heads as the queues can hold. -/
def State.schReady (s : State) : State := s.schSettle 1024

/-- A submission (R393): queued without firmware, or answered at once. A SCH in FW_FAULT is answered for by hardware (R385). -/
def State.submit (s : State) (q : Nat) (c : Cmd) : State :=
  if (s.proc .sch).st = .fwFault then s.completeCmd q c eFAULT 0
  else if !s.flag (schQ_EN q) then s.completeCmd q c ePARAM 0
  else if 16 ≤ (s.queue q).length then (s.bump (schQ_BUSY q)).completeCmd q c eBUSY 0
  else { s with queues := s.queues.set [] q (s.queue q ++ [c]) }.schReady

/-- A write of a word of SCH.SUBq; word 7 submits all eight words (R417). -/
def State.subWrite (s : State) (mid q w : Nat) (v : W64) : State :=
  let s := { s with subWords := s.subWords.set 0 (q * 8 + w) v }
  if w = 7 then s.submit q ⟨(List.range 8).map fun k => s.subWords.get 0 (q * 8 + k), ⟨mid, none⟩⟩ else s

end Sys2Proof.Machine
end

