-- ==== Sys2Proof/Machine/Regs.lean ====
section
/-!
DEFINITION. Machine/Regs.lean: register reads and writes (R10, R34): the checks, what a register shows, what a read clears, and
what a write of each block does (R111-R113, R181-R182, R222-R223, R252-R255, R288-R289, R353-R356, R377-R384, R415-R418,
R440-R441, R462-R463, R480-R481).
-/
namespace Sys2Proof.Machine

/-! ## What a register shows -/

/-- Expert bit `b` of SYS.EXPERT_EN (R416). -/
def State.expert (s : State) (b : Nat) : Bool := (s.get sysExpertEn_EN).testBit b

/-- The FW_FAULT bits of SYS.FW_LOAD (R416). -/
def State.fwFaults (s : State) : Nat :=
  let f := fun (p : Proc) => if (s.proc p).st = .fwFault then 1 else 0
  f .sec + 2 * f .pwr + 4 * f .sch + (if s.procs.any fun e => 3 ≤ e.1 && e.2.st = .fwFault then 8 else 0)

/-- The pair of last arrivals that KLN.LATE_MEMBER shows: (phase * 32 + line index, arrivals, lag total) (R182). -/
def lateBest (t : Tab (Nat × Nat)) : Option (Nat × Nat × Nat) :=
  t.foldl (fun (b : Option (Nat × Nat × Nat)) e => match b with
    | some x => if x.2.1 < e.2.1 then some (e.1, e.2) else b
    | none => some (e.1, e.2)) none

/-- KLN.LATE_MEMBER for the selected pair. -/
def State.lateMember (s : State) : W64 :=
  match s.plan (s.get klnLateSel_CL) (s.get klnLateSel_PLAN) with
  | some a => (match lateBest a.late with
    | some (k, n, lag) =>
      BitVec.ofNat 64 (k / 32 * 2 ^ 62 + k % 32 * 2 ^ 57 + 2 ^ 56 + min n (2 ^ 24 - 1) * 2 ^ 32 + min (lag / n) (2 ^ 32 - 1))
    | none => 0)
  | none => 0

/-- KLN.CTX_USED: entries in HELD and entries reserved by valid plans. -/
def State.ctxUsed (s : State) : W64 :=
  let held := s.ctx.countP fun e => match e.2 with | .acc c => c.st = .held | .watch _ => false
  BitVec.ofNat 64 (held * 2 ^ 32 + s.plans.foldl (fun a e => a + e.2.plan.ctxq) 0)

/-- Groups of the plan part that no plan reserves. -/
def State.planFree (s : State) : Nat := s.planGroups - s.plans.foldl (fun a e => a + e.2.plan.cellq) 0

/-- POOL.CELL for the selected cell. -/
def State.cellView (s : State) : W64 :=
  let c := s.cell (s.get poolCellSel_CELL)
  BitVec.ofNat 64 (c.quar.toNat * 2 ^ 22 + c.alloc.toNat * 2 ^ 21 + c.part * 2 ^ 19 + c.ref * 2 ^ 11 + c.owner)

/-- The key of the VOQ that FAB.Q_SEL selects; none for a reserved port. -/
def State.qSel (s : State) : Option Nat :=
  let i := s.get fabQSel_IN
  let o := s.get fabQSel_OUT
  if i < 20 && o < 20 then some (voqKey i o (s.get fabQSel_CLASS) (s.get fabQSel_VC)) else none

/-- FAB.Q_DEPTH of the selected VOQ. -/
def State.qDepth (s : State) : W64 :=
  match s.qSel with
  | some k => BitVec.ofNat 64 (s.voqHwm.get 0 k * 2 ^ 32 + cellsOf (s.voqs.get [] k))
  | none => 0

/-- ACC.DATA: the selected table word, its fixed entries as R375 has them; a target without a table reads 0. -/
def State.accDataView (s : State) : W64 :=
  let t := s.get accSel_TARGET
  if targetRights t = 0 then 0
  else
    let w := s.get accSel_WORD
    (s.acc.get 0 (t * 64 + w)) ||| accWord (fun t m => if fixedMaster m then fixedRights t m else 0) t w

/-- The instance index of a register of a repeated row. -/
def inst (off base stride : Nat) : Nat := (off - base) / stride

/-- The value of a register as a read returns it (R10): WO fields read zero, and fields that show other state show it. -/
def State.regView (s : State) (k : Nat) (d : RegDesc) : W64 :=
  let v := s.rd k &&& ~~~(BitVec.ofNat 64 d.wo)
  let o := k % 0x100000
  match blkOf (k / 0x100000) with
  | some (.sys, _) =>
    if k = sysState then setBits v 53 3 s.holds
    else if k = sysFwLoad then setBits (setBits v 20 1 (s.get sysState_FPEND)) 16 4 s.fwFaults
    else v
  | some (.cone, _) => if k = coneCount then s.cone else v
  | some (.sec, _) => if k = secStatus then setBits v 63 1 s.secServes.toNat else v
  | some (.sch, _) => if o < 0x200 then setBits v 16 5 (s.queue (o / 8)).length else v
  | some (.fab, _) => if k = fabQDepth then s.qDepth else v
  | some (.route, _) => if k = Sys2Proof.Machine.routeEnt then s.routeEnt (s.flag routeEntSel_BANK) (s.get routeEntSel_INDEX) else v
  | some (.pool, _) =>
    if 0x8 ≤ o && o < 0x28 then setBits v 0 19 (s.occ (inst o 0x8 8))
    else if k = poolPlanFree then BitVec.ofNat 64 s.planFree
    else if k = poolCell then s.cellView
    else v
  | some (.kln, _) => if k = klnCtxUsed then s.ctxUsed else if k = klnLateMember then s.lateMember else v
  | some (.acc, _) => if k = Sys2Proof.Machine.accData then s.accDataView else v
  | some (.apc, _) => if k = apcStatus then BitVec.ofNat 64 (s.get apcCtrl_RUN) else v
  | some (.lnk, i) => if o = 0x8 then setBits v 12 12 (s.unack i) else v
  | some (.cl, n) =>
    if o = 0x18 then s.clModeVal n
    else if 0x80 ≤ o && o < 0xC0 then setBits v 32 8 ((s.cl n).qready.countP fun e => e.1 = inst o 0x80 8)
    else if o = 0x100 then 0
    else v
  | _ => v

/-- Clears every RC field of a register (R10, R34). -/
def State.regClear (s : State) (k : Nat) (d : RegDesc) : State :=
  if d.rc = 0 then s
  else
    let s := s.wr k (s.rd k &&& ~~~(BitVec.ofNat 64 d.rc))
    if k = fabQDepth then (match s.qSel with
      | some q => { s with voqHwm := s.voqHwm.set 0 q 0 }
      | none => s)
    else s

/-! ## What a write does

A hook takes the whole value of a write, with what a half write leaves alone filled in, and answers none where a rule has the
write ignored and logged (R34). -/

/-- Whether the module is sealed (R10). -/
def State.sealed (s : State) : Bool := s.mstate ≠ mOFF && s.mstate ≠ mBOOTING

/-- Stores the RW fields of a register, its RWL fields until the module is sealed, and clears the RW1C bits written as 1. -/
def State.regStore (s : State) (k : Nat) (d : RegDesc) (v : W64) : State :=
  let w := BitVec.ofNat 64 (d.rw ||| (if s.sealed then 0 else d.rwl))
  s.wr k (((s.rd k &&& ~~~w) ||| (v &&& w)) &&& ~~~(v &&& BitVec.ofNat 64 d.rw1c))

/-- CONE (R338, R353, R354). -/
def State.hookCone (s : State) (mid k : Nat) (d : RegDesc) (v : W64) : Option State :=
  let o := k % 0x100000
  if k = coneSet then
    if s.isRoot && (s.mstate = mBOOTING || s.mstate = mREADY) then
      some ({ s with cone := v, coneFrac := 0, coneSlew := 0 })
    else none
  else if k = coneCtrl then some (s.regStore k d v).coneReview
  else if 0x40 ≤ o && o < 0x140 then
    let a := inst o 0x40 0x20
    let on := s.flag (coneAlarmCtrl_EN a)
    if o % 0x20 = 0x8 then
      let t := (s.wr k (s.rd k &&& ~~~(v &&& BitVec.ofNat 64 d.rw1c)))
      if on then
        let t := if v.getLsbD 63 then t else t.put (coneAlarmCtrl_EN a) 0
        some (if bitsOf v 56 2 = s.get (coneAlarmCtrl_ACTION a) then t else t.ignored mid (regAddr k) v)
      else
        let t := t.put (coneAlarmCtrl_ACTION a) (bitsOf v 56 2)
        some (if v.getLsbD 63 then t.armAlarm a else t)
    else if on then none
    else some (s.regStore k d v)
  else some (s.regStore k d v)

/-- PWR (R448, R449, R462, R463). -/
def State.hookPwr (s : State) (k : Nat) (d : RegDesc) (v : W64) : Option State :=
  let o := k % 0x100000
  if 0x100 ≤ o then (if s.expert 0 then some (s.regStore k d v).retune else none)
  else
    let t := s.regStore k d v
    if k = pwrFmax then some t.retune
    else if k = pwrLsleep || k = pwrLsleepAt then some t.sleepReview
    else some t

/-- SEC (R425, R439, R441): the services need SEC running. -/
def State.hookSec (s : State) (k : Nat) (d : RegDesc) (v : W64) : Option State :=
  if k = secDbg then some (if v.getLsbD 7 then s.closeDebug else s)
  else if k = secChalGen then some (if v.getLsbD 0 && s.secServes then s.drawChallenge else s)
  else some (s.regStore k d v)

/-- SCH (R402, R403, R417). -/
def State.hookSch (s : State) (mid k : Nat) (d : RegDesc) (v : W64) : Option State :=
  let o := k % 0x100000
  if o < 0x200 then
    let q := o / 8
    if v.getLsbD 31 then some ({ s with qOff := s.qOff.filter (· ≠ q) }.put (schQ_EN q) 1)
    else if (s.queue q).isEmpty then some (s.put (schQ_EN q) 0)
    else some { s with qOff := s.qOff.filter (· ≠ q) ++ [q] }
  else if k = schHringTail then
    let ahead := (v.toNat + (2 ^ 32 - s.get schHringHead_HEAD)) % 2 ^ 32
    if 0 < ahead && ahead < 2 ^ 31 then none else some ((s.regStore k d v).ringDrain 64).autoState
  else if 0x1000 ≤ o then some (s.subWrite mid (inst o 0x1000 0x40) (o % 0x40 / 8) v)
  else some (s.regStore k d v)

/-- Whether the partition sizes leave what R254 asks for. -/
def State.partsFit (s : State) : Bool :=
  decide (s.linkShare 0 + s.get poolPart_INJ * 16 + 16 ≤ s.partSize 0) && decide (s.linkShare 2 + 1024 ≤ s.partSize 2)
    && decide (s.linkShare 1 + 4096 ≤ s.partSize 1) && decide (s.linkShare 3 ≤ s.partSize 3)

/-- FAB (R239, R248, R252, R253). -/
def State.hookFab (s : State) (k : Nat) (d : RegDesc) (v : W64) : Option State :=
  let o := k % 0x100000
  let t := s.regStore k d v
  if k = fabArb then
    let sum := bitsOf v 0 8 + bitsOf v 8 8 + bitsOf v 16 8 + bitsOf v 24 8
    if 100 < sum || bitsOf v 32 8 < bitsOf v 24 8 then none else some t
  else if k = fabAgeLimit then
    some (if s.bankState (!s.flag routeBank_ACTIVE) = bkDRAINING then { t with flipMax := max s.flipMax t.ageLimit } else t)
  else if 0x40 ≤ o && o < 0x80 then
    let small := fun (n : Nat) => n != 0 && decide (n < 34)
    if small (bitsOf v 0 16) || small (bitsOf v 16 16) || !t.partsFit then none else some t
  else some t

/-- ROUTE (R277, R288, R289). -/
def State.hookRoute (s : State) (mid k : Nat) (d : RegDesc) (v : W64) : Option State :=
  if k = routeSlice then (if mid = 0x120 || mid = 0x122 then some (s.regStore k d v) else none)
  else if k = routeKeyA || k = routeKeyB then
    (if s.bankOpen (k = routeKeyB) then some (s.writeKey (k = routeKeyB) v) else none)
  else if k = Sys2Proof.Machine.routeEnt then
    let b := s.flag routeEntSel_BANK
    (if s.expert 2 && s.bankOpen b then some (s.writeEntry b (s.get routeEntSel_INDEX) v) else none)
  else some (s.regStore k d v)

/-- POOL (R254, R255). -/
def State.hookPool (s : State) (k : Nat) (d : RegDesc) (v : W64) : Option State :=
  let t := s.regStore k d v
  if k = poolPart then
    let up := (List.range 14).any fun i => lkBISQUE ≤ s.lnk i && s.lnk i ≤ lkMISWIRED
    if up || !s.plans.isEmpty || !t.partsFit then none else some t
  else if k = poolCellSel then (if s.expert 3 then some t else none)
  else some t

/-- KLN (R178, R179, R182). -/
def State.hookKln (s : State) (mid k : Nat) (d : RegDesc) (v : W64) : Option State :=
  let t := s.regStore k d v
  if k = klnCtxAllow then (if s.plans.isEmpty then some t else none)
  else if k = klnTouchCtrl && v.getLsbD 1 then
    some (if s.flag klnTouchCtrl_BUSY then t.ignored mid (regAddr k) v else t.put klnTouchCtrl_BUSY 1)
  else some t

/-- Whether DETERMINISTIC may change (R339). -/
def State.detFree (s : State) : Bool := s.clustersIn [0, 4] && s.plans.isEmpty

/-- DIG (R339, R356): DIG.DET changes only by SET_POLICY, which SCH writes. -/
def State.hookDig (s : State) (mid k : Nat) (d : RegDesc) (v : W64) : Option State :=
  if k = digDet then
    if bitsOf v 0 1 = s.get digDet_DETERMINISTIC then some s
    else if mid = 0x122 && s.detFree then some (s.regStore k d v) else none
  else some (s.regStore k d v)

/-- ACC (R377, R382): only SEC and SCH write. Clearing HOLD by SCH completes a table load, which clears TORN. -/
def State.hookAcc (s : State) (mid k : Nat) (d : RegDesc) (v : W64) : Option State :=
  if mid ≠ 0x120 && mid ≠ 0x122 then none
  else if k = accCtrl then
    let t := s.regStore k d v
    some (if s.flag accCtrl_HOLD && !v.getLsbD 0 && mid = 0x122 then t.put accCtrl_TORN 0 else t)
  else if k = Sys2Proof.Machine.accData then
    let t := s.get accSel_TARGET
    if targetRights t = 0 then none
    else
      let w := s.get accSel_WORD
      some ((List.range 16).foldl (fun s j => s.setRights t (16 * w + j) (bitsOf v (4 * j) 4 &&& targetRights t)) s)
  else some (s.regStore k d v)

/-- IMG (R469, R471, R481). -/
def State.hookImg (s : State) (mid k : Nat) (d : RegDesc) (v : W64) : Option State :=
  if k = imgCtrl then (s.regStore k d v).imgStart mid (bitsOf v 0 4) else some (s.regStore k d v)

/-- LNK (R198, R200, R220, R222, R223). -/
def State.hookLnk (s : State) (mid k i : Nat) (d : RegDesc) (v : W64) : Option State :=
  let o := k % 0x100000
  if o = 0 then
    let s := (s.put (lnkCtrl_FE_ALLOW i) (bitsOf v 10 1)).put (lnkCtrl_MAXRATE i) (bitsOf v 8 2)
    let loop := bitsOf v 4 2
    let s := if loop = s.get (lnkCtrl_LOOP i) then s
      else if s.expert 5 then s.lnkSetLoop i loop else s.ignored mid (regAddr k) v
    let s := if v.getLsbD 0 == s.flag (lnkCtrl_EN i) then s else s.lnkSetEn i (v.getLsbD 0)
    if v.getLsbD 11 then
      let r := s.lnkRetrainWrite mid i
      some (if r.2 then r.1 else s.ignored mid (regAddr k) v)
    else some s
  else if o = 0x30 then (if s.expert 5 then some (s.regStore k d v) else none)
  else if o = 0x38 then (if s.expert 5 then some (s.lnkEyeWrite i v) else none)
  else some (s.regStore k d v)

/-- HBM (R383, R384). -/
def State.hookHbm (s : State) (k : Nat) (d : RegDesc) (v : W64) : Option State :=
  if k % 0x100000 = hbmInject 0 % 0x100000 && !s.expert 6 then none else some (s.regStore k d v)

/-- CL (R112-R114). -/
def State.hookCl (s : State) (mid k n : Nat) (d : RegDesc) (v : W64) : Option State :=
  let o := k % 0x100000
  if o = 0x8 then some (s.clCommand mid n (bitsOf v 0 3))
  else if o = 0x18 && bitsOf v 4 2 = 3 then none
  else if o = 0x60 then some ((s.regStore k d v).modCl n fun c => { c with recs := 0 })
  else if o = 0x100 then some s
  else some (s.regStore k d v)

/-- A write of a register's whole value; none where it is ignored and logged. -/
def State.regHook (s : State) (mid k : Nat) (d : RegDesc) (v : W64) : Option State :=
  match blkOf (k / 0x100000) with
  | some (.sys, _) => if k = sysExpertEn && mid ≠ 0x122 then none else some (s.regStore k d v)
  | some (.cone, _) => s.hookCone mid k d v
  | some (.pwr, _) => s.hookPwr k d v
  | some (.sec, _) => s.hookSec k d v
  | some (.sch, _) => s.hookSch mid k d v
  | some (.fab, _) => s.hookFab k d v
  | some (.route, _) => s.hookRoute mid k d v
  | some (.pool, _) => s.hookPool k d v
  | some (.kln, _) => s.hookKln mid k d v
  | some (.dig, _) => s.hookDig mid k d v
  | some (.acc, _) => s.hookAcc mid k d v
  | some (.img, _) => s.hookImg mid k d v
  | some (.log, _) => if d.rwl ≠ 0 && s.sealed then none else some (s.regStore k d v)
  | some (.apc, _) => some (s.regStore k d v)
  | some (.lnk, i) => s.hookLnk mid k i d v
  | some (.hbm, _) => s.hookHbm k d v
  | some (.cl, n) => s.hookCl mid k n d v
  | none => none

/-! ## Accesses (R34) -/

/-- The checks of a register access in R34's order: its response, and the register where it passes. A refusal by the table is
recorded. CL.Si of a RUNNING cluster answers DECERR (R112). -/
def State.regCheck (s : State) (mid b off size : Nat) : State × Nat × Option RegDesc :=
  match blkOf b with
  | none => (s, rDECERR, none)
  | some (bk, n) =>
    if !((size = 8 && off % 8 = 0) || (size = 4 && off % 4 = 0)) then (s, rDECERR, none)
    else
      let right := if b = 4 && 0x1000 ≤ off && off < 0x2000 then aXQ else aCFG
      if !s.granted b mid right then (s.deny mid (regAddr (b * 0x100000 + off)) b right, rDENIED, none)
      else match regDesc bk (off / 8 * 8) with
        | none => (s, rDECERR, none)
        | some d =>
          if bk = .cl && 0x100 ≤ off && s.clSt n = clRUNNING then (s, rDECERR, none) else (s, rOK, some d)

/-- An access to a CL register wakes its cluster (R446); a START waits for the exit instead. -/
def State.clWake (s : State) (b off : Nat) : State :=
  if 0x100 ≤ b && off / 8 ≠ 1 then s.wakeCl (b - 0x100) else s

/-- The key of what a master holds of a register's high half. -/
def heldKey (mid k : Nat) : Nat := mid * 2 ^ 29 + k

/-- A register read (R34): its response and its value. A 32-bit read of the low half of a register with RC fields clears them and
holds the high half for the master. -/
def State.regRead (s : State) (mid b off size : Nat) : State × Nat × Nat :=
  match s.regCheck mid b off size with
  | (s, resp, none) => (if resp = rDECERR then s.accessErr mid (regAddr (b * 0x100000 + off)) resp else s, resp, 0)
  | (s, _, some d) =>
    let k := b * 0x100000 + off / 8 * 8
    let s := s.clWake b off
    let v := (s.regView k d).toNat
    let kept := Tab.find s.held32 (heldKey mid k)
    let t := { s with held32 := Tab.erase s.held32 (heldKey mid k) }
    if size = 8 then (t.regClear k d, rOK, v)
    else if off % 8 = 0 then
      if d.rc = 0 then (t, rOK, v % 2 ^ 32)
      else ({ t with held32 := Tab.insert t.held32 (heldKey mid k) (BitVec.ofNat 64 (v / 2 ^ 32)) }.regClear k d, rOK, v % 2 ^ 32)
    else (t, rOK, match kept with
      | some h => h.toNat
      | none => v / 2 ^ 32)

/-- What the half that a 32-bit write leaves alone holds: its stored bits, without those that a 1 would act on. -/
def State.otherHalf (s : State) (k : Nat) (d : RegDesc) : W64 :=
  if k = coneSet then s.cone
  else if 0x401000 ≤ k && k < 0x402000 then s.subWords.get 0 ((k - 0x401000) / 8)
  else s.regView k d &&& ~~~(BitVec.ofNat 64 d.rw1c)

/-- A register write (R34): its response. -/
def State.regWrite (s : State) (mid b off size : Nat) (v : W64) : State × Nat :=
  match s.regCheck mid b off size with
  | (s, resp, none) => (if resp = rDECERR then s.accessErr mid (regAddr (b * 0x100000 + off)) resp else s, resp)
  | (s, _, some d) =>
    let k := b * 0x100000 + off / 8 * 8
    let s := { s.clWake b off with held32 := Tab.erase s.held32 (heldKey mid k) }
    let full := if size = 8 then v else setBits (s.otherHalf k d) (off % 8 * 8) 32 (v.toNat % 2 ^ 32)
    match s.regHook mid k d full with
    | some t => (t, rOK)
    | none => (s.ignored mid (regAddr (b * 0x100000 + off)) v, rOK)

end Sys2Proof.Machine
end

