-- ==== Sys2Proof/Machine/Access.lean ====
section
/-!
DEFINITION. Machine/Access.lean: an access to any local address (R32, R33): registers, memory, and the diagnostic windows of the
stream context table (R154, R155) and the buffer pool; and accesses that wait while the tables are loaded (R377).
-/
namespace Sys2Proof.Machine

/-! ## The stream context window (R154, R155) -/

/-- The STATE code of an accumulating context. -/
def ctxCode : CtxState → Nat
  | .opened => 1
  | .final => 2
  | .held => 3
  | .fault => 5

/-- The four words of an entry as one number. -/
def entryBits : Option Entry → Nat
  | none => 0
  | some (.acc c) =>
    let w0 := ctxCode c.st * 2 ^ 61 + c.fix.toNat * 2 ^ 60 + c.own.toNat * 2 ^ 59 + c.comp.toNat * 2 ^ 58 + c.hres.toNat * 2 ^ 57
      + c.fmt % 16 * 2 ^ 53 + c.op % 16 * 2 ^ 49 + c.bfx.toNat * 2 ^ 48 + c.coll % 4096 * 2 ^ 36 + c.chunk % 2 ^ 24 * 2 ^ 12
      + c.oidx % 32 * 2 ^ 7 + c.link.isSome.toNat * 2 ^ 6
    let w1 := c.rmask % 2 ^ 32 * 2 ^ 32 + c.emask % 2 ^ 32
    let w2 := c.group % 2 ^ 14 * 2 ^ 50 + c.link.getD 0 % 2 ^ 20 * 2 ^ 30 + cone24 c.deadline * 2 ^ 6 + c.repcnt % 8 * 2 ^ 3
      + c.errcnt % 4 * 2 + c.ndet.toNat
    let w3 := cone24 c.prevt * 2 ^ 40 + c.last % 32 * 2 ^ 35 + min (c.lag / 64) (2 ^ 24 - 1) * 2 ^ 11 + c.nops % 32 * 2 ^ 6
    w0 + w1 * 2 ^ 64 + w2 * 2 ^ 128 + w3 * 2 ^ 192
  | some (.watch w) =>
    let w0 := 4 * 2 ^ 61 + w.coll % 4096 * 2 ^ 36 + w.chunk % 2 ^ 24 * 2 ^ 12
    let w1 := cone24 w.deadline * 2 ^ 40 + min w.tries 7 * 2 ^ 37
    w0 + w1 * 2 ^ 64 + w.fwd.toNat * 2 ^ 128 + w.res.toNat * 2 ^ 192

/-- A time with its cone count bits [29:6] replaced. -/
def withCone24 (t v : Nat) : Nat := t / 2 ^ 30 * 2 ^ 30 + v * 64 + t % 64

/-- The entry that four words make; what the words do not hold is kept from the old entry. -/
def State.entryOfBits (s : State) (old : Option Entry) (v : Nat) : Option Entry :=
  let f := fun (lo n : Nat) => v / 2 ^ lo % 2 ^ n
  let mk := fun (st : CtxState) =>
    let base := match old with
      | some (.acc c) => c
      | _ => { st := st, fix := false, own := false, comp := false, hres := false, fmt := 0, op := 0, bfx := false, coll := 0,
               chunk := 0, oidx := 0, link := none, rmask := 0, emask := 0, group := 0, deadline := s.now, repcnt := 0,
               errcnt := 0, ndet := false, prevt := s.now, last := 0, lag := 0, nops := 0, len := 0, heldAt := s.now,
               issued := f 64 32 != 0, parked := [], word := if f 48 1 = 1 || f 28 1 = 1 then 14 else if f 53 4 = 10 then 10 else 1,
               sat := false, sent := false : Ctx }
    some (.acc { base with
      st := st
      fix := f 60 1 == 1
      own := f 59 1 == 1
      comp := f 58 1 == 1
      hres := f 57 1 == 1
      fmt := f 53 4
      op := f 49 4
      bfx := f 48 1 == 1
      coll := f 36 12
      chunk := f 12 24
      oidx := f 7 5
      link := if f 6 1 = 1 then some (f 158 20) else none
      rmask := f 96 32
      emask := f 64 32
      group := f 178 14
      deadline := withCone24 base.deadline (f 134 24)
      repcnt := f 131 3
      errcnt := f 129 2
      ndet := f 128 1 == 1
      prevt := withCone24 base.prevt (f 232 24)
      last := f 227 5
      lag := if base.lag / 64 = f 203 24 then base.lag else f 203 24 * 64
      nops := f 198 5 })
  match f 61 3 with
  | 0 => none
  | 1 => mk .opened
  | 2 => mk .final
  | 3 => mk .held
  | 5 => mk .fault
  | 4 =>
    let t := match old with | some (.watch w) => w.deadline | _ => s.now
    some (.watch ⟨f 36 12, f 12 24, withCone24 t (f 104 24), f 101 3, BitVec.ofNat 64 (f 128 64), BitVec.ofNat 64 (f 192 64)⟩)
  | _ => old

/-- Reads bytes of the context table from an offset. -/
def State.ctxRead (s : State) (off : Nat) : Nat → List Byte
  | 0 => []
  | n + 1 => BitVec.ofNat 8 (entryBits (s.ctx.find (off / 32)) / 2 ^ (off % 32 * 8)) :: s.ctxRead (off + 1) n

/-- Writes bytes of one entry of the context table. -/
def State.ctxPut (s : State) (off : Nat) (b : List Byte) : State :=
  let i := off / 32
  let old := s.ctx.find i
  let bytes := bytesLE 32 (entryBits old)
  let new := bytes.take (off % 32) ++ b ++ bytes.drop (off % 32 + b.length)
  let s := { s with ctxErr := s.ctxErr.set false i false }
  match s.entryOfBits old (natLE new) with
  | some e => { s with ctx := s.ctx.insert i e }
  | none => { s with ctx := s.ctx.erase i }

/-- Writes bytes of the context table, entry by entry. -/
def State.ctxWrite (s : State) (off : Nat) (b : List Byte) : Nat → State
  | 0 => s
  | fuel + 1 =>
    if b.isEmpty then s
    else
      let n := 32 - off % 32
      (s.ctxPut off (b.take n)).ctxWrite (off + n) (b.drop n) fuel

/-! ## Any access (R32, R33) -/

/-- The check of a diagnostic window: its expert bit, then its table, in this order; the response. -/
def State.windowCheck (s : State) (mid a t bit right : Nat) : State × Nat :=
  if !s.expert bit then (s.accessErr mid a rDENIED, rDENIED)
  else if s.granted t mid right then (s, rOK)
  else (s.deny mid a t right, rDENIED)

/-- A checked read of `n` bytes: the response, the address it concerns, and the bytes. -/
def State.busRead (s : State) (mid a n : Nat) : State × Nat × Nat × List Byte :=
  match decodeAddr a with
  | .reg b off =>
    let r := s.regRead mid b off n
    (r.1, r.2.1, a, if r.2.1 = rOK then bytesLE n r.2.2 else [])
  | .ctx off =>
    if 0x2000000 < off + n then (s.accessErr mid a rDECERR, rDECERR, a, [])
    else
      let c := s.windowCheck mid a 0x281 4 aRD
      if c.2 = rOK && c.1.ctxErr.get false (off / 32) then (c.1.accessErr mid a rDATAERR, rDATAERR, a, [])
      else (c.1, c.2, a, if c.2 = rOK then c.1.ctxRead off n else [])
  | .pool off =>
    if 0x4000000 < off + n then (s.accessErr mid a rDECERR, rDECERR, a, [])
    else
      let c := s.windowCheck mid a 0x282 3 aRD
      if c.2 = rOK && (c.1.cellErr.any fun e => 8 * e.1 < off + n && off < 8 * e.1 + 8) then (c.1.accessErr mid a rDATAERR, rDATAERR, a, [])
      else (c.1, c.2, a, if c.2 = rOK then readBytes 0 c.1.poolMem off n else [])
  | _ => s.memRead mid a n

/-- A checked write: the response and the address it concerns. -/
def State.busWrite (s : State) (mid a : Nat) (b : List Byte) : State × Nat × Nat :=
  match decodeAddr a with
  | .reg k off =>
    let r := s.regWrite mid k off b.length (BitVec.ofNat 64 (natLE b))
    (r.1, r.2, a)
  | .ctx off =>
    if 0x2000000 < off + b.length then (s.accessErr mid a rDECERR, rDECERR, a)
    else
      let c := s.windowCheck mid a 0x281 4 aWR
      (if c.2 = rOK then c.1.ctxWrite off b (b.length / 32 + 2) else c.1, c.2, a)
  | .pool off =>
    if 0x4000000 < off + b.length then (s.accessErr mid a rDECERR, rDECERR, a)
    else
      let c := s.windowCheck mid a 0x282 3 aWR
      if c.2 = rOK then
        let w := c.1.poolWrite off b
        if w.2 then (w.1, rOK, a) else (w.1.accessErr mid a rDATAERR, rDATAERR, a)
      else (c.1, c.2, a)
  | _ => s.memWrite mid a b

/-! ## An access at an HBM controller (R357, R358, R364, R369) -/

/-- A write of the bytes of a mask in one unit: whole words replace, partly covered words are merged into the old word, which is
uncorrectable too where the stack reports so. -/
def State.unitWrite (s : State) (mid unit : Nat) (mask : BitVec 64) (data : BitVec 512) (rpt : StackReport) : State × Nat :=
  let k := s.stackOf unit
  let byte := fun (i : Nat) => BitVec.ofNat 8 (data.toNat / 2 ^ (8 * i))
  let s := (s.wakeStack k).countPc unit
  (List.range 8).foldl (fun (r : State × Nat) j =>
    let is := (List.range 8).filter fun i => mask.getLsbD (8 * j + i)
    let w := unit / 8 + j
    if is.length = 8 then ((r.1.storeWord (8 * w) ((List.range 8).map fun i => byte (8 * j + i))).1, r.2)
    else if is.isEmpty then r
    else
      let e := (r.1.eccRead w).1
      if rpt = .uncorrectable || e = .ue then (r.1.hbmUe k mid unit rpt false, rDATAERR)
      else
        let t := if e = .clean then r.1 else r.1.hbmCe k mid unit 1 rpt false
        (is.foldl (fun s i => (s.storeWord (8 * w + i) [byte (8 * j + i)]).1) t, r.2)) (s, rOK)

/-- A 64 B access: its response and data. -/
def State.unitAccess (s : State) (mid addr : Nat) (op : HbmOp) (rpt : StackReport) : State × Nat × List Byte :=
  let unit := addr / 64 * 64
  let fail := fun (s : State) (resp : Nat) => ((s.accessErr mid addr resp, resp, []) : State × Nat × List Byte)
  match decodeAddr addr with
  | .hbm _ =>
    if !s.hbmUp unit 64 then fail s rDECERR
    else
      let t := s.hbmTarget addr
      let right := match op with | .read => aRD | _ => aWR
      match op with
      | .orWord j v =>
        let r := s.memOr mid (unit + 8 * j.val) v
        (r.1, r.2, [])
      | .read =>
        if !s.granted t mid right then (s.deny mid addr t right, rDENIED, [])
        else
          let r := s.hbmRead mid unit rpt false
          (r.1, if r.2.1 then rOK else rDATAERR, r.2.2)
      | .write m d =>
        if !s.granted t mid right then (s.deny mid addr t right, rDENIED, [])
        else
          let r := s.unitWrite mid unit m d rpt
          (r.1, r.2, [])
  | _ => fail s rDECERR

/-! ## Accesses that wait (R377) -/

/-- Whether a master's accesses exist: those of the debug port only in a session (R375). -/
def State.masterOn (s : State) (mid : Nat) : Bool := s.mstate ≠ mOFF && (mid ≠ 0x3FF || s.flag secDbg_SESSION)

/-- A write by an engine: a response other than OK is an ENGINE_FAULT (R33). -/
def State.engineNow (s : State) (mid a : Nat) (b : List Byte) : State :=
  let r := s.busWrite mid a b
  if r.2.1 = rOK then r.1 else r.1.engineFault mid r.2.2 r.2.1

/-- A write by an engine, which waits while HOLD is set (R377). -/
def State.engineWrite (s : State) (mid a : Nat) (b : List Byte) : State :=
  if s.accHeld mid then { s with accWait := s.accWait ++ [.write mid a b.length (natLE b)] } else s.engineNow mid a b

/-- Carries out an access command: its response and data are shown on `bus`. -/
def State.accessNow (s : State) (i : BusOp) : State :=
  match i with
  | .write m a n v =>
    if 0x130 ≤ m && m ≤ 0x132 then s.engineNow m a (bytesLE n v)
    else
      let r := s.busWrite m a (bytesLE n v)
      { r.1 with bus := (r.2.1, []) }
  | .read m a n =>
    let r := s.busRead m a n
    { r.1 with bus := (r.2.1, r.2.2.2) }
  | .unit m a op rpt =>
    let r := s.unitAccess m a op rpt
    { r.1 with bus := (r.2.1, r.2.2) }

/-- Once HOLD is clear, the accesses that waited are checked against the tables in their order. -/
def State.releaseHeld (s : State) : State :=
  if s.flag accCtrl_HOLD then s else s.accWait.foldl State.accessNow { s with accWait := [] }

/-- An access command of a master: it waits while HOLD is set, unless its master's entries are fixed. -/
def accessRow (mid : Nat) (i : BusOp) (s : State) : Host.Outcome State Fault Refusal :=
  if !s.masterOn mid then .next s
  else if s.accHeld mid then .next { s with accWait := s.accWait ++ [i] }
  else Sys2Proof.Machine.done (s.accessNow i).releaseHeld

/-- A write of a whole register by a master, as a command of its own. -/
def writeRow (mid : BitVec 10) (k : Nat) (v : Nat) (s : State) : Host.Outcome State Fault Refusal :=
  accessRow mid.toNat (.write mid.toNat (regAddr k) 8 v) s

/-- A write that sets one field of a register to a value and leaves its other RW bits as they stand. -/
def fieldRow (mid : BitVec 10) (f : Field) (v : Nat) (s : State) : Host.Outcome State Fault Refusal :=
  let d := (keyDesc f.key).getD ⟨0, 0, 0, 0, 0, 0, 0, 0, 0, 0⟩
  writeRow mid f.key (setBits (s.regView f.key d &&& ~~~(BitVec.ofNat 64 d.rw1c)) f.lo f.wid v).toNat s

end Sys2Proof.Machine
end

