-- ==== Sys2Proof/Machine/RegRows.lean ====
section
/-!
DEFINITION. Machine/RegRows.lean: the commands that are register accesses (R34), the image engine's steps (R469-R471), and the hold of the
access tables (R377).
-/
namespace Sys2Proof.Machine

/-- REGISTER_WRITE (R34). -/
def execRegisterWrite (mid : BitVec 10) (addr : BitVec 48) (size : BitVec 8) (value : BitVec 64) (s : State) :
    Host.Outcome State Fault Refusal :=
  accessRow mid.toNat (.write mid.toNat addr.toNat size.toNat value.toNat) s

/-- REGISTER_READ_CLEAR (R34). -/
def execRegisterReadClear (mid : BitVec 10) (addr : BitVec 48) (size : BitVec 8) (s : State) : Host.Outcome State Fault Refusal :=
  accessRow mid.toNat (.read mid.toNat addr.toNat size.toNat) s

/-- HBM_ACCESS (R357, R358, R364, R369). -/
def execHbmAccess (mid : BitVec 10) (addr : BitVec 48) (op : HbmOp) (rpt : StackReport) (s : State) :
    Host.Outcome State Fault Refusal :=
  accessRow mid.toNat (.unit mid.toNat addr.toNat op rpt) s

/-! ## Links (R198, R200, R220, R223) -/

/-- LNK_ENABLE: EN := 1. -/
def execLnkEnable (mid : BitVec 10) (link : Fin 14) (s : State) : Host.Outcome State Fault Refusal := fieldRow mid (lnkCtrl_EN link) 1 s

/-- LNK_DISABLE: EN := 0. -/
def execLnkDisable (mid : BitVec 10) (link : Fin 14) (s : State) : Host.Outcome State Fault Refusal := fieldRow mid (lnkCtrl_EN link) 0 s

/-- LNK_LOOP_SET: LOOP. -/
def execLnkLoopSet (mid : BitVec 10) (link : Fin 14) (loop : BitVec 2) (s : State) : Host.Outcome State Fault Refusal :=
  fieldRow mid (lnkCtrl_LOOP link) loop.toNat s

/-- LNK_RETRAIN: RETRAIN := 1. -/
def execLnkRetrain (mid : BitVec 10) (link : Fin 14) (s : State) : Host.Outcome State Fault Refusal :=
  fieldRow mid (lnkCtrl_RETRAIN link) 1 s

/-- LNK_EYE_START: a write of LNK.EYE with START. -/
def execLnkEyeStart (mid : BitVec 10) (link : Fin 14) (lane : BitVec 5) (voff hoff : BitVec 8) (s : State) :
    Host.Outcome State Fault Refusal :=
  writeRow mid (lnkEye link) (2 ^ 62 + lane.toNat * 2 ^ 56 + voff.toNat * 2 ^ 48 + hoff.toNat * 2 ^ 40) s

/-! ## Clusters (R114) -/

/-- CL_START. -/
def execClStart (mid : BitVec 10) (cl : Fin 128) (s : State) : Host.Outcome State Fault Refusal := writeRow mid (clCmd cl) ccSTART s

/-- CL_RESUME. -/
def execClResume (mid : BitVec 10) (cl : Fin 128) (s : State) : Host.Outcome State Fault Refusal := writeRow mid (clCmd cl) ccRESUME s

/-- CL_SKIP. -/
def execClSkip (mid : BitVec 10) (cl : Fin 128) (s : State) : Host.Outcome State Fault Refusal := writeRow mid (clCmd cl) ccSKIP s

/-- CL_STOP. -/
def execClStop (mid : BitVec 10) (cl : Fin 128) (s : State) : Host.Outcome State Fault Refusal := writeRow mid (clCmd cl) ccSTOP s

/-- CL_PAUSE. -/
def execClPause (mid : BitVec 10) (cl : Fin 128) (s : State) : Host.Outcome State Fault Refusal := writeRow mid (clCmd cl) ccPAUSE s

/-! ## Blocks of the fabric die -/

/-- COMMAND_SUBMIT (R393, R417): a write of word 7 of SCH.SUBq. -/
def execCommandSubmit (mid : BitVec 10) (q : Fin 64) (value : BitVec 64) (s : State) : Host.Outcome State Fault Refusal :=
  writeRow mid (schSub 0 + q * 0x40 + 0x38) value.toNat s

/-- HRING_TAIL_WRITE (R402, R417). -/
def execHringTailWrite (mid : BitVec 10) (value : BitVec 64) (s : State) : Host.Outcome State Fault Refusal :=
  writeRow mid schHringTail value.toNat s

/-- APC_RUN_WRITE (R418). -/
def execApcRunWrite (mid : BitVec 10) (run : BitVec 32) (s : State) : Host.Outcome State Fault Refusal := writeRow mid apcCtrl run.toNat s

/-- KLN_TOUCH_CLR (R179): CLR := 1. -/
def execKlnTouchClr (mid : BitVec 10) (s : State) : Host.Outcome State Fault Refusal := fieldRow mid klnTouchCtrl_CLR 1 s

/-- ROUTE_ENT_WRITE (R272, R288, R289). -/
def execRouteEntWrite (mid : BitVec 10) (value : BitVec 64) (s : State) : Host.Outcome State Fault Refusal :=
  writeRow mid routeEnt value.toNat s

/-- ROUTE_KEY_WRITE (R289). -/
def execRouteKeyWrite (mid : BitVec 10) (bank : Bool) (value : BitVec 64) (s : State) : Host.Outcome State Fault Refusal :=
  writeRow mid (keyReg bank) value.toNat s

/-- CONE_SET (R331, R354). -/
def execConeSet (mid : BitVec 10) (value : BitVec 64) (s : State) : Host.Outcome State Fault Refusal := writeRow mid coneSet value.toNat s

/-- CONE_ALARM_ENABLE (R338): EN := 1 with an ACTION. -/
def execConeAlarmEnable (mid : BitVec 10) (k : Fin 8) (action : BitVec 2) (s : State) : Host.Outcome State Fault Refusal :=
  writeRow mid (coneAlarmCtrl k) (2 ^ 63 + action.toNat * 2 ^ 56) s

/-- HBM_INJECT_ARM (R384). -/
def execHbmInjectArm (mid : BitVec 10) (stack : Fin 8) (value : BitVec 64) (s : State) : Host.Outcome State Fault Refusal :=
  writeRow mid (hbmInject stack) value.toNat s

/-- SEC_CHAL_GEN (R425, R441): GEN := 1. -/
def execSecChalGen (mid : BitVec 10) (s : State) : Host.Outcome State Fault Refusal := writeRow mid secChalGen 1 s

/-- SEC_DBG_CLOSE (R439, R441): CLOSE := 1. -/
def execSecDbgClose (mid : BitVec 10) (s : State) : Host.Outcome State Fault Refusal := fieldRow mid secDbg_CLOSE 1 s

/-! ## The image engine (R469-R471) -/

/-- IMG_ERASE: OP 1. -/
def execImgErase (mid : BitVec 10) (region : BitVec 4) (off : BitVec 32) (s : State) : Host.Outcome State Fault Refusal :=
  writeRow mid imgCtrl (off.toNat * 2 ^ 16 + region.toNat * 2 ^ 8 + 1) s

/-- IMG_PROGRAM: OP 2. -/
def execImgProgram (mid : BitVec 10) (region : BitVec 4) (off : BitVec 32) (s : State) : Host.Outcome State Fault Refusal :=
  writeRow mid imgCtrl (off.toNat * 2 ^ 16 + region.toNat * 2 ^ 8 + 2) s

/-- IMG_CAL_SAVE: OP 3. -/
def execImgCalSave (mid : BitVec 10) (s : State) : Host.Outcome State Fault Refusal := fieldRow mid imgCtrl_OP 3 s

/-- IMG_HELD_START (R471): EMERGENCY has cleared and the operation that was held starts. -/
def execImgHeldStart (s : State) : Host.Outcome State Fault Refusal :=
  match s.img with
  | some o => if o.held && !s.flag sysState_EMERG then .next (s.imgRun o) else .next s
  | none => .next s

/-- IMG_OP_DONE (R469, R470): the operation in progress ends; `verified` is whether PROGRAM's readback agrees. -/
def execImgOpDone (verified : Bool) (s : State) : Host.Outcome State Fault Refusal :=
  match s.img with
  | some o => if o.held then .next s else .next (s.imgEffect o verified)
  | none => .next s

/-! ## The hold of the access tables (R377) -/

/-- ACC_HOLD_SET: SCH sets HOLD. -/
def execAccHoldSet (s : State) : Host.Outcome State Fault Refusal := fieldRow 0x122 accCtrl_HOLD 1 s

/-- ACC_HOLD_CLEAR: SCH clears HOLD, and the accesses that waited are checked. -/
def execAccHoldClear (s : State) : Host.Outcome State Fault Refusal := fieldRow 0x122 accCtrl_HOLD 0 s

/-- ACC_HOLD_TIMEOUT: HOLD has been set for 10 ms; the hardware clears it and sets TORN. -/
def execAccHoldTimeout (s : State) : Host.Outcome State Fault Refusal :=
  if s.flag accCtrl_HOLD then
    Sys2Proof.Machine.done (((s.put accCtrl_HOLD 0).put accCtrl_TORN 1).logEv 0x0A02 0x3FE 0 0 0).releaseHeld
  else .next s

end Sys2Proof.Machine
end

