-- ==== Sys2Proof/Machine/CccRows.lean ====
section
/-!
DEFINITION. Machine/CccRows.lean: what a CCC does about its cluster's exception (R94, R145, R326).
-/
namespace Sys2Proof.Machine

/-- Master ID of CCC n. -/
def cccMid (n : Nat) : Nat := 0x080 + n

/-- An E_FAULT report to SCH: CCC_FAULT is logged and posted, and the cluster stays in EXCEPTION (R94, R402; log entry 41). -/
def State.cccReport (s : State) (n : Nat) : State :=
  s.logNotice 0x0403 (cccMid n) n (s.rd (clExc n)) (s.rd (clExcOrig n))

/-- Whether an address is that of a row of the bound schedule table (R326). -/
def State.isRow (s : State) (a : Nat) : Bool :=
  match s.stepTable with
  | some (base, rows) => base ≤ a && (a - base) % 64 == 0 && (a - base) / 64 < rows
  | none => false

/-- The record STEP_SKEW and its slot in the host ring (R326, R410). -/
def State.skewRecord (s : State) (n : Nat) (w0 step : W64) (row : Nat) : State :=
  let argx := bitsOf w0 0 16 + n * 2 ^ 16 + bitsOf w0 23 1 * 2 ^ 23
  let r0 := mkRec s.cone (cccMid n) (logSev 0x0401 0) false false 0x0401 argx step (s.rd (clJstep n))
  let r1 := mkRec s.cone (cccMid n) (logSev 0x0401 0) true false 0x0401 0 (BitVec.ofNat 64 row) 0
  (s.logPut [r0, r1]).post 4 0x122 (r0.bytes ++ r1.bytes)

/-- The CCC's response to STEP_SKEW (R326). -/
def State.cccSkew (s : State) (n : Nat) : State :=
  let row := (s.sReg n 30).toNat
  if !s.isRow row then s.cccReport n
  else
    let a := s.busRead (cccMid n) row 8
    if a.2.1 ≠ rOK then a.1.cccReport n
    else
      let b := a.1.busRead (cccMid n) (row + 48) 8
      if b.2.1 ≠ rOK then b.1.cccReport n
      else
        let w0 := BitVec.ofNat 64 (natLE a.2.2.2)
        let w := if w0.getLsbD 23 then b.1.busWrite (cccMid n) (row + 48) (bytesLE 8 (s.rd (clJstep n)).toNat) else (b.1, rOK, 0)
        if w.2.1 ≠ rOK then w.1.cccReport n
        else (w.1.skewRecord n w0 (BitVec.ofNat 64 (natLE b.2.2.2)) row).clCommand (cccMid n) n ccSKIP

/-- CCC_EXCEPTION_RESPONSE (R94): the CCC of a cluster in EXCEPTION responds once to the exception that CL.EXC shows. What a service
does is firmware's own (log entry 21). -/
def execCccExceptionResponse (cl : Fin 128) (s : State) : Host.Outcome State Fault Refusal :=
  if s.clSt cl = clEXCEPTION && (s.cl cl).faulted && s.procRuns (.ccc cl) && !s.accHeld (cccMid cl) then
    let cause := s.get (clExc_CAUSE cl)
    let pc := s.get (clExc_PC cl)
    let t := s.modCl cl fun c => { c with faulted := false }
    done (if cause = xMXCHK || cause = xRESCHK then
        if (s.cl cl).retry = some (pc, cause) then t.modCl cl fun c => { c with selftest := some (pc, cause) }
        else (t.modCl cl fun c => { c with retry := some (pc, cause) }).clCommand (cccMid cl) cl ccRESUME
      else if cause = xSERVICE then t.clCommand (cccMid cl) cl ccSKIP
      else if cause = xSTEPSKEW then t.cccSkew cl
      else t.cccReport cl)
  else .next s

/-- UNIT_SELFTEST_DONE (R94, R307): the self-test of the unit ends; a failure fences the module. -/
def execUnitSelftestDone (cl : Fin 128) (pass : Bool) (s : State) : Host.Outcome State Fault Refusal :=
  match (s.cl cl).selftest with
  | some _ =>
    let t := s.modCl cl fun c => { c with selftest := none }
    done (if pass then t.cccReport cl else { t with fenceReq := some (1, cl) })
  | none => .next s

end Sys2Proof.Machine
end

