-- ==== Sys2Proof/Machine/MirrorOps.lean ====
section
/-!
DEFINITION. Machine/MirrorOps.lean: the mirror engine's generations (R308-R314): opening, releasing, closing, and the status block.
-/
namespace Sys2Proof.Machine

/-- Bytes of a half of a ward region (R308). -/
def MirrorBind.halfBytes (b : MirrorBind) : Nat := (b.half + 1) * 4096

/-- Updates the mirror engine. -/
def State.modMirror (s : State) (f : MirrorEng → MirrorEng) : State := { s with mirror := f s.mirror }

/-- Writes the status block (R312). -/
def State.mirrorStatus (s : State) : State :=
  match s.mirror.bind with
  | some b =>
    let m := s.mirror
    let w2 := m.closing.toNat + m.failed.toNat * 2 + m.whalf.toNat * 4 + m.flip.toNat * 8
    s.engineWrite 0x132 b.statusAddr
      (wordsBytes [m.localSnap, m.gen, BitVec.ofNat 64 w2, m.doneCone, BitVec.ofNat 64 m.rstatus, 0, 0, 0])
  | none => s

/-- A MIRROR packet of the mirror engine to the buddy or a ward (R309, R311, R315); the low TAG bits are open (log entry 11). -/
def State.mirrorSend (s : State) (dst addr : Nat) (data : List Byte) : State :=
  let t := s.fresh 8
  t.2.inject 129 ⟨mkPkt tMIRROR 5 dst 0 false (mkW1 (0xF00 + t.1.toNat) 0 data.length 0 0) (mkW2 0x132 addr) data, false, false, none,
    none, false⟩

/-- Sends the header of half WHALF (R311). What STEP, BYTES and CONE hold while COMPLETE is 0 is not stated: free values. -/
def State.mirrorHeader (s : State) (complete : Bool) (step gen : W64) : State :=
  match s.mirror.bind with
  | some b =>
    let a := s.fresh 64
    let c := a.2.fresh 64
    let d := c.2.fresh 64
    let t := if complete then s else d.2
    let w0 := BitVec.ofNat 64 (0x4D525248 + complete.toNat * 2 ^ 32)
    let bytes := BitVec.ofNat 64 (s.mirror.bytes.get 0 gen.toNat)
    let ws := if complete then [w0, step, gen, bytes, s.rd sysSerial, s.cone, 0, 0]
      else [w0, a.1, gen, c.1, s.rd sysSerial, d.1, 0, 0]
    t.mirrorSend b.buddy (b.buddyBase + s.mirror.whalf.toNat * b.halfBytes) (wordsBytes ws)
  | none => s

/-- The generation that the mirrors in front belong to: that of the SNAPSHOT being closed, else GEN. -/
def State.frontGen (s : State) : W64 :=
  match s.runs.findSome? fun r => match r.kind with | .snapshot _ g => some g | _ => none with
  | some g => g
  | none => s.mirror.gen

/-- Opens the front generation (R311): steps 1 and 2. -/
def State.mirrorOpen (s : State) : State :=
  let m := s.mirror
  let s := s.modMirror fun m => { m with whalf := m.whalf != m.flip, flip := false, opening := true }
  let s := s.mirrorHeader false 0 s.frontGen
  if m.flip then s.mirrorStatus else s

/-- Releases the waiting mirrors of the front generation once it is open (R309). -/
def State.mirrorRelease (s : State) : State :=
  match s.mirror.bind with
  | some b =>
    let g := s.frontGen
    let go := s.mirror.waiting.filter (·.gen = g)
    let base := b.buddyBase + s.mirror.whalf.toNat * b.halfBytes + 4096
    let s := s.modMirror fun m => { m with waiting := m.waiting.filter (·.gen ≠ g) }
    go.foldl (fun s w =>
      let p := { w.pkt with w2 := mkW2 w.pkt.flow (base + w.pkt.addr) }
      s.inject w.cl ⟨p, false, false, some w.slot, none, false⟩) s
  | none => s

/-- Whether a TX.MIRROR of a generation is still running. -/
def State.mirrorsRun (s : State) (g : W64) : Bool :=
  s.clusters.any fun c => c.2.slots.any fun m => match m.2.op with
    | some o => o.kind == .mirror && o.gen == g && o.st == .running
    | none => false

/-- The SNAPSHOT being closed: its queue, step and generation. -/
def State.closingRun (s : State) : Option (Nat × W64 × W64) :=
  s.runs.findSome? fun r => match r.kind with
    | .snapshot st g => some (r.q, st, g)
    | _ => none

/-- A generation has closed (R311, R312): LOCAL_SNAP and FLIP move on where its header is complete; the status block is rewritten
and the command completes with LOCAL_SNAP as its RESULT. -/
def State.mirrorClosed (s : State) (q : Nat) (step g : W64) (good : Bool) (code : Nat) : State :=
  let s := s.modMirror fun m => { m with
    localSnap := if good then step else m.localSnap
    flip := good
    failed := !good
    doneCone := if good then s.cone else m.doneCone
    opened := false
    opening := false
    sealing := false
    closing := false
    bad := m.bad.filter (· ≠ g)
    bytes := m.bytes.erase g.toNat }
  s.mirrorStatus.finishCmd q code s.mirror.localSnap

/-- Opens the front generation when a mirror waits for it or it is being closed, and releases its mirrors once it is open. -/
def State.mirrorFront (s : State) : State :=
  let s := if s.mirror.opened then s.mirrorRelease else s
  if !s.mirror.opened && !s.mirror.opening && (s.closingRun.isSome || s.mirror.waiting.any (·.gen = s.frontGen)) then s.mirrorOpen else s

/-- Moves the mirror engine on (R309, R311): it opens the front generation where that is due, and releases its mirrors. -/
def State.mirrorAdvance (s : State) : State := if s.mirror.bind.isNone then s else s.mirrorFront

/-- A generation being closed is sealed once every mirror of it has finished, or closes without a header where one has failed
(R311). -/
def State.mirrorSeal (s : State) : State :=
  match s.closingRun with
  | some (q, st, g) =>
    if s.mirror.opened && !s.mirror.sealing && !s.mirrorsRun g then
      if s.mirror.bad.contains g then (s.mirrorClosed q st g false eOK).mirrorAdvance
      else (s.modMirror fun m => { m with sealing := true }).mirrorHeader true st g
    else s
  | none => s

/-- The answer to a header (R311). That a header which is refused fails its generation is DEDUCED (log entry 36). -/
def State.headerAnswered (s : State) (status : Nat) : State :=
  if s.mirror.sealing then
    match s.closingRun with
    | some (q, st, g) => (s.mirrorClosed q st g (status = 0) (statusOf status)).mirrorAdvance
    | none => s
  else if s.mirror.opening then
    let g := s.frontGen
    (s.modMirror fun m => { m with opening := false, opened := true, bad := if status = 0 then m.bad else g :: m.bad }).mirrorAdvance
  else s

end Sys2Proof.Machine
end

