-- ==== Sys2Proof/Machine/ScalarSx.lean ====
section
/-!
DEFINITION. Machine/ScalarSx.lean: the scalar class SX (R99), but for SX.LD and SX.ST.
-/
namespace Sys2Proof.Machine

/-- The frame of a scalar instruction Sd := f Ss1 Ss2: it wraps modulo 2^64 and sets no flags (R99). -/
def sxBinary (op : Nat) (f : W64 → W64 → W64) (cl : Fin 128) (i : Issue) (s : State) : Host.Outcome State Fault Refusal :=
  runInstr cl 1 op i .no (sIdx i.dst && sIdx i.src1 && sIdx i.src2) true
    (fun s => .ok (s.setS cl i.dst.toNat (f (s.sReg cl i.src1.toNat) (s.sReg cl i.src2.toNat)))) s

/-- The frame of a scalar instruction Sd := v. -/
def sxSet (op : Nat) (ek : ExtKind) (legal : Bool) (v : State → W64) (cl : Fin 128) (i : Issue) (s : State) :
    Host.Outcome State Fault Refusal :=
  runInstr cl 1 op i ek (sIdx i.dst && legal) true (fun s => .ok (s.setS cl i.dst.toNat (v s))) s

/-- IMM64 with an extension, else sext(IMM8). -/
def immOf (i : Issue) : W64 := if i.x then i.ext else i.imm8.signExtend 64

/-- SX.ADD (R99). -/
def execSxAdd (cl : Fin 128) (i : Issue) (s : State) : Host.Outcome State Fault Refusal := sxBinary 0x00 (· + ·) cl i s

/-- SX.ADDI (R99). -/
def execSxAddi (cl : Fin 128) (i : Issue) (s : State) : Host.Outcome State Fault Refusal :=
  sxSet 0x01 .opt (sIdx i.src1) (fun s => s.sReg cl i.src1.toNat + immOf i) cl i s

/-- SX.SUB (R99). -/
def execSxSub (cl : Fin 128) (i : Issue) (s : State) : Host.Outcome State Fault Refusal := sxBinary 0x02 (· - ·) cl i s

/-- SX.MUL (R99). -/
def execSxMul (cl : Fin 128) (i : Issue) (s : State) : Host.Outcome State Fault Refusal := sxBinary 0x03 (· * ·) cl i s

/-- SX.MULH (R99): the high 64 bits of the signed product. -/
def execSxMulh (cl : Fin 128) (i : Issue) (s : State) : Host.Outcome State Fault Refusal :=
  sxBinary 0x04 (fun a b => BitVec.ofInt 64 (a.toInt * b.toInt / 2 ^ 64)) cl i s

/-- SX.AND (R99). -/
def execSxAnd (cl : Fin 128) (i : Issue) (s : State) : Host.Outcome State Fault Refusal := sxBinary 0x05 (· &&& ·) cl i s

/-- SX.OR (R99). -/
def execSxOr (cl : Fin 128) (i : Issue) (s : State) : Host.Outcome State Fault Refusal := sxBinary 0x06 (· ||| ·) cl i s

/-- SX.XOR (R99). -/
def execSxXor (cl : Fin 128) (i : Issue) (s : State) : Host.Outcome State Fault Refusal := sxBinary 0x07 (· ^^^ ·) cl i s

/-- SX.SHL (R99): by Ss2[5:0]. -/
def execSxShl (cl : Fin 128) (i : Issue) (s : State) : Host.Outcome State Fault Refusal :=
  sxBinary 0x08 (fun a b => a <<< (b.toNat % 64)) cl i s

/-- SX.SHR (R99). -/
def execSxShr (cl : Fin 128) (i : Issue) (s : State) : Host.Outcome State Fault Refusal :=
  sxBinary 0x09 (fun a b => a >>> (b.toNat % 64)) cl i s

/-- SX.SRA (R99). -/
def execSxSra (cl : Fin 128) (i : Issue) (s : State) : Host.Outcome State Fault Refusal :=
  sxBinary 0x0A (fun a b => a.sshiftRight (b.toNat % 64)) cl i s

/-- SX.SLT (R99): signed. -/
def execSxSlt (cl : Fin 128) (i : Issue) (s : State) : Host.Outcome State Fault Refusal :=
  sxBinary 0x0B (fun a b => if a.slt b then 1 else 0) cl i s

/-- SX.LDI (R99). -/
def execSxLdi (cl : Fin 128) (i : Issue) (s : State) : Host.Outcome State Fault Refusal :=
  sxSet 0x0C .opt true (fun _ => immOf i) cl i s

/-- SX.CONE (R30, R99). -/
def execSxCone (cl : Fin 128) (i : Issue) (s : State) : Host.Outcome State Fault Refusal :=
  sxSet 0x18 .no true (·.cone) cl i s

/-- SX.JSTEP (R99). -/
def execSxJstep (cl : Fin 128) (i : Issue) (s : State) : Host.Outcome State Fault Refusal :=
  sxSet 0x19 .no true (fun s => s.rd (clJstep cl)) cl i s

/-- SX.STEPCHK (R99, R325): STEP_SKEW where Ss1 differs from CL.JSTEP; it waits for every older instruction, and
instructions run one at a time. -/
def execSxStepchk (cl : Fin 128) (i : Issue) (s : State) : Host.Outcome State Fault Refusal :=
  runInstr cl 1 0x1A i .no (sIdx i.src1) true (fun s =>
    if s.sReg cl i.src1.toNat ≠ s.rd (clJstep cl) then .raise s (Exc.plain xSTEPSKEW) else .ok s) s

end Sys2Proof.Machine
end

