-- ==== Sys2Proof/Machine/TensorTx.lean ====
section
/-!
DEFINITION. Machine/TensorTx.lean: SX.LD and SX.ST (R99), the tensor moves TX (R105, R106) but for TX.AG, and the asynchronous
operations of R90: starting one, what it moves, and its failure (R93). Ss1 names the field SRC1 wherever it stands (log entry 37).
-/
namespace Sys2Proof.Machine

/-- The checked port of a cluster's sequencer and tensor mover (R375). -/
def busPort (n : Nat) : Port where
  read s a len := s.busRead n a len
  write s a b := s.busWrite n a b

/-- Holds an instruction while the tables are being loaded (R377). -/
def whileHeld (s : State) (n : Nat) (e : Exe) : Exe := if s.accHeld n then .stall s else e

/-- A T register index always names one of T0-T63; Sd, Td and Ta of a move. -/
def movRegs (i : Issue) : Bool := sIdx i.dst

/-- Lets what a register access has set going settle. -/
def settled (o : Host.Outcome State Fault Refusal) : Host.Outcome State Fault Refusal :=
  match o with
  | .next t => Sys2Proof.Machine.done t
  | x => x

/-! ## SX.LD and SX.ST (R99) -/

/-- SX.LD (R99): ALIGN unless the address is a multiple of 8; the access is checked (R33). -/
def execSxLd (cl : Fin 128) (i : Issue) (s : State) : Host.Outcome State Fault Refusal :=
  runInstr cl 1 0x10 i .no (sIdx i.dst && sIdx i.src1) true (fun s =>
    let a := s.offAddr cl i 8
    whileHeld s cl (unheld s cl [] [] [(a, a + 8, false)]
      (if a % 8 ≠ 0 then .raise s (Exc.plain xALIGN a)
      else if 2 ^ 48 ≤ a then .raise (s.accessErr cl a rDECERR) (Exc.plain xACCESS a rDECERR)
      else
        let r := s.busRead cl a 8
        if r.2.1 = rOK then .ok (r.1.setS cl i.dst.toNat (BitVec.ofNat 64 (natLE r.2.2.2)))
        else .raise r.1 (Exc.plain xACCESS r.2.2.1 r.2.1)))) s

/-- SX.ST (R99). -/
def execSxSt (cl : Fin 128) (i : Issue) (s : State) : Host.Outcome State Fault Refusal :=
  runInstr cl 1 0x11 i .no (sIdx i.src1 && sIdx i.src2) true (fun s =>
    let a := s.offAddr cl i 8
    whileHeld s cl (unheld s cl [] [] [(a, a + 8, true)]
      (if a % 8 ≠ 0 then .raise s (Exc.plain xALIGN a)
      else if 2 ^ 48 ≤ a then .raise (s.accessErr cl a rDECERR) (Exc.plain xACCESS a rDECERR)
      else
        let r := s.busWrite cl a (bytesLE 8 (s.sReg cl i.src2.toNat).toNat)
        if r.2.1 = rOK then .ok r.1.releaseHeld else .raise r.1 (Exc.plain xACCESS r.2.2 r.2.1)))) s |> settled

/-! ## Starting an asynchronous operation (R90) -/

/-- The lowest free move slot (log entry 18). -/
def State.freeSlotOf (s : State) (n : Nat) : Option Nat := (List.range 64).find? fun k => (s.slot n k).op.isNone

/-- An operation as it is accepted: its descriptors and mode as they are at issue (R76, R90). -/
def State.asyncOp (s : State) (n : Nat) (i : Issue) (kind : AsyncKind) (td ta tidx : Nat) : AsyncOp :=
  { kind := kind, st := .running, pc := s.pc n, seq := (s.cl n).seq,
    issue := { i with strict := s.strictFor n i }, mode := s.rndMode n i, seed := s.rd (clSeed n),
    td := s.tReg n td, tdScale := s.tReg n (td + 1), ta := s.tReg n ta, taScale := s.tReg n (ta + 1), tidx := s.tReg n tidx,
    arg := s.sReg n i.src1.toNat, gen := s.mirror.gen, waiting := 0, answer := 0, addr := 0 }

/-- Accepts an operation into a slot; the handle goes to Sd. With no slot free it does not issue. -/
def acceptAsync (s : State) (n : Nat) (i : Issue) (o : AsyncOp) (f : Nat → AsyncOp → State → State) : Exe :=
  match s.freeSlotOf n with
  | some k =>
    let h := s.slotHandle n k
    let t := s.setSlot n k { s.slot n k with op := some o }
    .handle ((f k o t).setS n i.dst.toNat (BitVec.ofNat 64 h)) 0 h
  | none => .stall s

/-- The byte ranges of a tensor pair overlap those of another (R106). -/
def spansMeet (a b : TD × TD) : Bool :=
  (pairHz a false).any fun x => (pairHz b false).any fun y => decide (x.1 < y.2.1) && decide (y.1 < x.2.1)

/-- Whether two tensors have equal dimensions. -/
def sameDims (a b : TD) : Bool := a.dim0 == b.dim0 && a.dim1 == b.dim1 && a.dim2 == b.dim2

/-- Formats that a move may name: an element format on both sides, or E8M0 on both, which moves a scale array (R41; log entry 38). -/
def movFmts (fa fd : Nat) : Bool := (elemFmt fa && elemFmt fd) || (fa == 9 && fd == 9)

/-- TX.MOV (R105, R106). -/
def execTxMov (cl : Fin 128) (i : Issue) (s : State) : Host.Outcome State Fault Refusal :=
  let fa := i.fmta.toNat
  let fd := i.fmtd.toNat
  runInstr cl 4 0x00 i .opt (movRegs i && movFmts fa fd) true (fun s =>
    let d := s.tPair cl i.src1.toNat
    let a := s.tPair cl i.src2.toNat
    unheld s cl [] [] (pairHz a false ++ pairHz d true)
      (if !s.tensorOk cl i.src1.toNat fd true || !s.tensorOk cl i.src2.toNat fa false || !sameDims d.1 a.1 || spansMeet d a then .illegal s
      else acceptAsync s cl i (s.asyncOp cl i .mov i.src1.toNat i.src2.toNat 0) (fun _ _ t => t))) s

/-- The checks of GATHER and SCATTER: R79, R85, R106, and INT32 indices. -/
def rowMove (op : Nat) (kind : AsyncKind) (ek : ExtKind) (cl : Fin 128) (i : Issue) (s : State) : Host.Outcome State Fault Refusal :=
  let fa := i.fmta.toNat
  let fd := i.fmtd.toNat
  runInstr cl 4 op i ek (movRegs i && movFmts fa fd) true (fun s =>
    let d := s.tPair cl i.src1.toNat
    let a := s.tPair cl i.src2.toNat
    let x := TD.of (s.tReg cl i.aux.toNat)
    unheld s cl [] [] (pairHz a false ++ pairHz d true ++ x.hz false)
      (if !s.tensorOk cl i.src1.toNat fd true || !s.tensorOk cl i.src2.toNat fa false || !s.tensorOk cl i.aux.toNat 10 false
          || spansMeet d a then .illegal s
      else acceptAsync s cl i (s.asyncOp cl i kind i.src1.toNat i.src2.toNat i.aux.toNat) (fun _ _ t => t))) s

/-- TX.GATHER (R105, R106). -/
def execTxGather (cl : Fin 128) (i : Issue) (s : State) : Host.Outcome State Fault Refusal := rowMove 0x01 .gather .opt cl i s

/-- TX.SCATTER (R105, R106). -/
def execTxScatter (cl : Fin 128) (i : Issue) (s : State) : Host.Outcome State Fault Refusal := rowMove 0x02 .scatter .no cl i s

/-! ## Descriptors (R83, R105, R106) -/

/-- The frame of LDT and STT: 16 B at store offset Ss1 + sext(IMM8) * 16, aligned and inside the store. -/
def descAccess (n : Nat) (i : Issue) (s : State) (w : Bool) (f : Nat → Exe) : Exe :=
  let off := s.offAddr n i 16
  let a := storeAddr n off
  unheld s n [] [] [(a, a + 16, w)]
    (if off % 16 ≠ 0 then .raise s (Exc.plain xALIGN a)
    else if storeSize < off + 16 then .raise (s.accessErr n a rDECERR) (Exc.plain xACCESS a rDECERR)
    else f a)

/-- TX.LDT (R105). -/
def execTxLdt (cl : Fin 128) (i : Issue) (s : State) : Host.Outcome State Fault Refusal :=
  runInstr cl 4 0x03 i .no (sIdx i.src1) true (fun s => descAccess cl i s false fun a =>
    let r := s.rawRead cl a 16
    if r.2.1 = rOK then .ok (r.1.setT cl i.dst.toNat (BitVec.ofNat 128 (natLE r.2.2)))
    else .raise (r.1.accessErr cl a r.2.1) (Exc.plain xACCESS a r.2.1)) s

/-- TX.STT (R105). -/
def execTxStt (cl : Fin 128) (i : Issue) (s : State) : Host.Outcome State Fault Refusal :=
  runInstr cl 4 0x04 i .no (sIdx i.src1) true (fun s => descAccess cl i s true fun a =>
    let r := s.rawWrite cl a (bytesLE 16 (s.tReg cl i.src2.toNat).toNat)
    if r.2 = rOK then .ok r.1 else .raise (r.1.accessErr cl a r.2) (Exc.plain xACCESS a r.2)) s

/-- The field that TX.TSET writes: its lowest bit, its width, and the unit of its value (R83, R105). -/
def tsetField (k : Nat) : Nat × Nat × Nat :=
  match k with
  | 0 => (0, 44, 16)
  | 1 => (44, 4, 1)
  | 2 => (48, 1, 1)
  | 3 => (49, 3, 1)
  | 4 => (64, 16, 1)
  | 5 => (80, 16, 1)
  | 6 => (52, 12, 1)
  | 7 => (96, 20, 16)
  | _ => (116, 12, 4096)

/-- TX.TSET (R105, R106): ALIGN where the value is no multiple of its unit or does not fit its field (R91). -/
def execTxTset (cl : Fin 128) (i : Issue) (s : State) : Host.Outcome State Fault Refusal :=
  runInstr cl 4 0x05 i .no (sIdx i.src1 && i.imm8.toNat ≤ 8) true (fun s =>
    let v := (s.sReg cl i.src1.toNat).toNat
    let f := tsetField i.imm8.toNat
    if v % f.2.2 ≠ 0 || 2 ^ f.2.1 ≤ v / f.2.2 then .raise s (Exc.plain xALIGN v)
    else
      let t := (s.tReg cl i.dst.toNat).toNat
      .ok (s.setT cl i.dst.toNat
        (BitVec.ofNat 128 (t - t / 2 ^ f.1 % 2 ^ f.2.1 * 2 ^ f.1 + v / f.2.2 * 2 ^ f.1)))) s

/-- TX.WAIT (R90, R93). -/
def execTxWait (cl : Fin 128) (i : Issue) (s : State) : Host.Outcome State Fault Refusal :=
  runInstr cl 4 0x06 i .no (sIdx i.src1) true (fun s => moveExe cl (s.sReg cl i.src1.toNat).toNat s) s

/-! ## Packets of a cluster (R227, R265, R309) -/

/-- FLOW of a cluster's packet: its move slot, plan register or queue, and its master ID (R265). -/
def clFlow (n stream : Nat) : Nat := stream % 64 * 1024 + n

/-- The first position and bytes of the pieces of `b` that cross no 4 KiB boundary of its address (R309). -/
def pieces4k (a off : Nat) (b : List Byte) : Nat → List (Nat × List Byte)
  | 0 => []
  | fuel + 1 =>
    if b.isEmpty then []
    else
      let n := 4096 - a % 4096
      (off, b.take n) :: pieces4k (a + n) (off + n) (b.drop n) fuel

/-- Marks an operation that will finish with a failure. -/
def State.failOp (s : State) (n k resp addr : Nat) : State :=
  match (s.slot n k).op with
  | some o => s.setSlot n k { s.slot n k with op := some { o with answer := resp, addr := addr } }
  | none => s

/-- Marks a TX.MIRROR of a generation as failed for the generation's close (R311). -/
def State.mirrorBad (s : State) (g : W64) : State := s.modMirror fun m => { m with bad := g :: m.bad }

/-- Bytes of one row of a tensor, padded to a byte or a group (R40). -/
def TD.rowBytes (t : TD) : Nat := packedBytes t.fmt t.dim0

/-- Bytes of a tensor in row-major order. -/
def TD.totalBytes (t : TD) : Nat := t.rowBytes * t.dim1 * t.dim2

/-- The bytes of a tensor in row-major order: in layout 0, its lines as they are stored (R348). -/
def Data.bytes (d : Data) : List Byte :=
  if d.td.empty then []
  else (List.range (d.td.dim1 * d.td.dim2)).flatMap fun r =>
    bytesLE d.td.rowBytes ((List.range d.td.dim0).reverse.foldl
      (fun a i0 => a * 2 ^ fmtBits d.td.fmt + d.code i0 (r % d.td.dim1) (r / d.td.dim1)) 0)

/-- Queues the MIRROR packets of a tensor at its offset (R309). Its bytes are taken at issue (log entry 19). Where nothing is sent
the operation fails with DECERR; which address it then reports is not stated: a free value. -/
def State.mirrorStart (s : State) (n k : Nat) (o : AsyncOp) : State :=
  let t := TD.of o.ta
  let fail := fun (s : State) => let f := s.fresh 48; (f.2.mirrorBad o.gen).failOp n k rDECERR f.1.toNat
  match s.mirror.bind with
  | none => fail s
  | some b =>
    let len := if t.empty then 0 else t.totalBytes
    if !b.en || b.half * 4096 < o.arg.toNat + len then fail s
    else if t.empty then s
    else
      let r := readTensor (busPort n) s t
      if r.2.1 ≠ rOK then (r.1.mirrorBad o.gen).failOp n k r.2.1 r.2.2.1
      else
        let ps := pieces4k (b.buddyBase + o.arg.toNat) o.arg.toNat r.2.2.2.bytes (len / 4096 + 2)
        let s := r.1.modMirror fun m => { m with bytes := m.bytes.set 0 o.gen.toNat (max (m.bytes.get 0 o.gen.toNat) (o.arg.toNat + len)) }
        let s := s.setSlot n k { s.slot n k with op := some { o with waiting := ps.length } }
        let s := ps.foldl (fun s x =>
          let g := s.fresh 4
          let p := mkPkt tMIRROR 5 b.buddy 0 false (mkW1 (n * 16 + g.1.toNat) 0 x.2.length 0 0) (mkW2 (clFlow n k) x.1) x.2
          g.2.modMirror fun m => { m with waiting := m.waiting ++ [⟨n, k, o.gen, p⟩] }) s
        s.mirrorAdvance

/-- TX.MIRROR (R105, R309): Ta is SRC2, the offset Ss1. -/
def execTxMirror (cl : Fin 128) (i : Issue) (s : State) : Host.Outcome State Fault Refusal :=
  runInstr cl 4 0x07 i .no (movRegs i && sIdx i.src1) true (fun s =>
    let a := s.tPair cl i.src2.toNat
    whileHeld s cl (unheld s cl [] [] (a.1.hz false)
      (if !s.tensorOk cl i.src2.toNat i.fmta.toNat false then .illegal s
      else acceptAsync s cl i (s.asyncOp cl i .mirror i.src2.toNat i.src2.toNat 0) (fun k o t => t.mirrorStart cl k o)))) s

/-! ## What a move does (R105, R106) -/

/-- What a finished operation leaves: the state, the flags, the first event, and the response and address of a failure. -/
structure MoveEnd where
  s : State
  fl : Nat
  ev : Option Event
  resp : Nat
  addr : Nat

/-- A move that failed. -/
def MoveEnd.bad (s : State) (resp addr : Nat) : MoveEnd := ⟨s, 0, none, resp, addr⟩

/-- The destination of an operation and its scale array. -/
def AsyncOp.dPair (o : AsyncOp) : TD × TD := (TD.of o.td, TD.of o.tdScale)
/-- The source of an operation and its scale array. -/
def AsyncOp.aPair (o : AsyncOp) : TD × TD := (TD.of o.ta, TD.of o.taScale)

/-- The rounding of an operation at element `e`: the mode and seed of its issue (R57, R58, R76). -/
def AsyncOp.rnd (o : AsyncOp) (n e : Nat) : Rnd := rndAt o.mode o.seed n o.pc e

/-- Codes copied unchanged. -/
def copied (codes : List Nat) : Results := ⟨codes, [], codes.map CRes.ok⟩

/-- Codes and scale codes copied unchanged. -/
def copiedScaled (codes scales : List Nat) : Results := ⟨codes, scales, codes.map CRes.ok⟩

/-- TX.MOV: equal formats without block scaling are copied; otherwise every element is converted (R44, R46, R47, R55, R57-R62). -/
def moveMov (n : Nat) (o : AsyncOp) (s : State) : MoveEnd :=
  let d := o.dPair
  let a := o.aPair
  if d.1.empty then ⟨s, 0, none, rOK, 0⟩
  else
    let r := readScaled (busPort n) s a.1 a.2
    if r.2.1 ≠ rOK then .bad r.1 r.2.1 r.2.2.1
    else
      let src := r.2.2.2
      let res := if !a.1.bsc && !d.1.bsc && a.1.fmt = d.1.fmt then copied src.data.codes
        else resultsFor d.1 d.2 (isInt a.1.fmt && !a.1.bsc) o.issue.sat (o.rnd n) (fun j => src.ares j)
      let w := writeResults (busPort n) r.1 d.1 d.2 res
      let g := res.gather
      if w.2.1 ≠ rOK then ⟨w.1, g.fl, none, w.2.1, w.2.2⟩
      else ⟨w.1.denFold n o.issue d.1.fmt res.codes, g.fl, g.ev, rOK, 0⟩

/-- The row index that Tidx gives for row `k`; where Tidx is too short the index is not stated: a free value. -/
def rowIndex (codes : List Nat) (free k : Nat) : Int :=
  toSigned 32 (if k < codes.length then codes.getD k 0 else (Config.freeBits 32 (free + k)).toNat)

/-- Whether the codes of rows can be moved as they are: equal formats, and both or neither block-scaled along the row (R42, R106);
other combinations are not stated (log entry 39). -/
def rowsCopy (a d : TD) : Bool := a.fmt == d.fmt && a.bsc == d.bsc && (!a.bsc || (a.layout != 1 && d.layout != 1))

/-- The code of column `i0`, plane `i2` of row `r` of a source, as it goes into a destination element `j`; a free value where the
source has no such element or the formats do not allow a copy. -/
def rowCode (src : Data) (copy : Bool) (free i0 i2 j : Nat) (r : Nat) : Nat :=
  if copy && i0 < src.td.dim0 && i2 < src.td.dim2 then src.code i0 r i2 else (Config.freeBits 64 (free + j)).toNat

/-- The free values that a row move may use. -/
def rowFrees (d x : TD) : Nat := d.count + d.dim1 + x.count + 64

/-- TX.GATHER (R106): row i of Td := row Tidx[i] of Ta; an index out of range yields zeros and sets NV. -/
def moveGather (n : Nat) (o : AsyncOp) (s : State) : MoveEnd :=
  let d := o.dPair
  let a := o.aPair
  let x := TD.of o.tidx
  if d.1.empty || a.1.empty || x.empty then ⟨s, 0, none, rOK, 0⟩
  else
    let rx := readTensor (busPort n) s x
    if rx.2.1 ≠ rOK then .bad rx.1 rx.2.1 rx.2.2.1
    else
      let r := readScaled (busPort n) rx.1 a.1 a.2
      if r.2.1 ≠ rOK then .bad r.1 r.2.1 r.2.2.1
      else
        let f0 := r.1.free
        let s := { r.1 with free := f0 + rowFrees d.1 x }
        let idx := rx.2.2.2.codes
        let copy := rowsCopy a.1 d.1
        let at_ := fun (k : Nat) => rowIndex idx f0 k
        let bad := fun (v : Int) => decide (v < 0) || decide ((a.1.dim1 : Int) ≤ v)
        let pick := fun (src : Data) (dflt : Nat) (t : TD) => (List.range t.count).map fun j =>
          let e := t.index j
          let v := at_ e.2.1
          if bad v then dflt else rowCode src copy (f0 + d.1.dim1) e.1 e.2.2 j v.toNat
        let codes := pick r.2.2.2.data 0 d.1
        let scales := match r.2.2.2.scale with
          | some sc => if d.1.bsc then pick sc 127 d.2 else []
          | none => if d.1.bsc then (List.range d.2.count).map fun j => (Config.freeBits 8 (f0 + j)).toNat else []
        let fl := if (List.range d.1.dim1).any fun k => bad (at_ k) then fNV else 0
        let w := writeResults (busPort n) s d.1 d.2 (copiedScaled codes scales)
        if w.2.1 ≠ rOK then ⟨w.1, fl, none, w.2.1, w.2.2⟩
        else ⟨w.1.denFold n o.issue d.1.fmt (codes.map (· % 2 ^ fmtBits d.1.fmt)), fl, none, rOK, 0⟩

/-- Writes pieces of bits through a port; a byte written in part is merged with what it holds. -/
def writePieces (p : Port) (s : State) (l : List BitPiece) : State × Nat × Nat :=
  let bytes := (pieceBytes l).foldl (fun (r : State × Nat × Nat × List (Nat × Byte)) x =>
    if r.2.1 ≠ rOK then r
    else if x.2.1 = 255 then (r.1, rOK, 0, r.2.2.2 ++ [(x.1, BitVec.ofNat 8 x.2.2)])
    else
      let q := p.read r.1 x.1 1
      (q.1, q.2.1, q.2.2.1, r.2.2.2 ++ [(x.1, BitVec.ofNat 8 ((q.2.2.2.headD 0).toNat &&& (255 - x.2.1) ||| x.2.2))]))
    (s, rOK, 0, [])
  if bytes.2.1 ≠ rOK then (bytes.1, bytes.2.1, bytes.2.2.1)
  else writeLines p bytes.1 (byteRuns bytes.2.2.2)

/-- The pieces of one row of a tensor. -/
def TD.rowPieces (t : TD) (row : Nat) (f : Nat → Nat → Nat) : List BitPiece :=
  (List.range t.dim2).flatMap fun i2 => (List.range t.dim0).map fun i0 =>
    ⟨t.bitAddr (i0 + t.dim0 * (row + t.dim1 * i2)), fmtBits t.fmt, f i0 i2 % 2 ^ fmtBits t.fmt⟩

/-- TX.SCATTER (R106): row Tidx[i] of Td := row i of Ta; an index out of range skips its row and sets NV; of equal indices the
highest i is left. -/
def moveScatter (n : Nat) (o : AsyncOp) (s : State) : MoveEnd :=
  let d := o.dPair
  let a := o.aPair
  let x := TD.of o.tidx
  if d.1.empty || a.1.empty || x.empty then ⟨s, 0, none, rOK, 0⟩
  else
    let rx := readTensor (busPort n) s x
    if rx.2.1 ≠ rOK then .bad rx.1 rx.2.1 rx.2.2.1
    else
      let r := readScaled (busPort n) rx.1 a.1 a.2
      if r.2.1 ≠ rOK then .bad r.1 r.2.1 r.2.2.1
      else
        let f0 := r.1.free
        let s := { r.1 with free := f0 + rowFrees d.1 x + a.1.dim1 }
        let idx := rx.2.2.2.codes
        let copy := rowsCopy a.1 d.1
        let bad := fun (v : Int) => decide (v < 0) || decide ((d.1.dim1 : Int) ≤ v)
        let rows := (List.range a.1.dim1).map fun k => (k, rowIndex idx f0 k)
        -- the row of Ta that each row of Td ends with
        let last : Tab Nat := rows.foldl (fun t y => if bad y.2 then t else Tab.insert t y.2.toNat y.1) []
        let fl := if rows.any fun y => bad y.2 then fNV else 0
        let data := last.flatMap fun y => d.1.rowPieces y.1 fun i0 i2 =>
          rowCode r.2.2.2.data copy (f0 + a.1.dim1) i0 i2 (i0 + d.1.dim0 * (y.1 + d.1.dim1 * i2)) y.2
        let w := writePieces (busPort n) s data
        let w := if w.2.1 ≠ rOK || !d.1.bsc then w
          else
            let srow := fun (row : Nat) => if d.1.layout = 1 then row / 32 else row
            writePieces (busPort n) w.1 (last.flatMap fun y => d.2.rowPieces (srow y.1) fun i0 i2 =>
              match r.2.2.2.scale with
              | some sc => rowCode sc copy f0 i0 i2 (i0 + i2) y.2
              | none => (Config.freeBits 8 (f0 + i0 + i2)).toNat)
        ⟨w.1, fl, none, w.2.1, w.2.2⟩

end Sys2Proof.Machine
end

