-- ==== Sys2Proof/Machine/DigestDx.lean ====
section
/-!
DEFINITION. Machine/DigestDx.lean: the digest class DX (R107), the layer entries and records of the digest and hash engine (R346,
R347).
-/
namespace Sys2Proof.Machine

/-- Digest slot IMM8[5:0] of a cluster. -/
def State.digSlot (s : State) (n : Nat) (i : Issue) : DigSlot := (s.cl n).digs.get DigSlot.reset (i.imm8.toNat % 64)

/-- DX.DIGEST (R107, R345): Ta is SRC2, the index base Ss1. -/
def execDxDigest (cl : Fin 128) (i : Issue) (s : State) : Host.Outcome State Fault Refusal :=
  let f := i.fmta.toNat
  runInstr cl 6 0x00 i .no (sIdx i.src1 && elemOrScale f) true (fun s =>
    let t := TD.of (s.tReg cl i.src2.toNat)
    whileHeld s cl (unheld s cl [] [] (t.hz false)
      (if !s.tensorOk cl i.src2.toNat f false then .illegal s
      else if t.empty then .ok s
      else
        let r := readTensor (busPort cl) s t
        if r.2.1 ≠ rOK then .raise r.1 (Exc.plain xACCESS r.2.2.1 r.2.1)
        else .ok (r.1.foldCodes cl (i.imm8.toNat % 64) f (s.sReg cl i.src1.toNat).toNat r.2.2.2.codes)))) s

/-- DX.DRD (R107). -/
def execDxDrd (cl : Fin 128) (i : Issue) (s : State) : Host.Outcome State Fault Refusal :=
  runInstr cl 6 0x01 i .no (sIdx i.dst && i.imm8.toNat / 64 ≠ 3) true (fun s =>
    let d := s.digSlot cl i
    .ok (s.setS cl i.dst.toNat (match i.imm8.toNat / 64 with
      | 0 => d.sum
      | 1 => BitVec.ofNat 64 d.count
      | _ => BitVec.ofNat 64 d.nans))) s

/-- DX.DCLR (R107). -/
def execDxDclr (cl : Fin 128) (i : Issue) (s : State) : Host.Outcome State Fault Refusal :=
  runInstr cl 6 0x02 i .no true true (fun s =>
    .ok (s.modCl cl fun c => { c with digs := c.digs.set DigSlot.reset (i.imm8.toNat % 64) DigSlot.reset })) s

/-! ## Layer entries (R346, R347) -/

/-- Writes the record of a closed entry to the ring at DIG.RING; beyond 2^SIZE records the oldest is overwritten and LOST counts. -/
def State.layerRecord (s : State) (e : LayerEnt) (incomplete : Bool) : State :=
  let size := 2 ^ s.get digRing_SIZE
  let head := s.get digRingHead_HEAD
  let w1 := e.layer % 2 ^ 16 + min e.pubs 65535 * 2 ^ 16 + incomplete.toNat * 2 ^ 32 + s.get digDet_DETERMINISTIC * 2 ^ 33
  let s := s.engineWrite 0x130 (s.get digRing_BASE * 4096 + head % size * 64)
    (wordsBytes [e.j, BitVec.ofNat 64 w1, e.sum, BitVec.ofNat 64 (e.count % 2 ^ 48), BitVec.ofNat 64 (e.nans % 2 ^ 32),
      BitVec.ofNat 64 e.first, s.cone, s.rd digNdetCount])
  let s := if size ≤ head then s.bump digRingHead_LOST else s
  s.put digRingHead_HEAD (head + 1)

/-- Closes an entry; its record is written only while EN is 1. -/
def State.closeLayer (s : State) (e : LayerEnt) (incomplete : Bool) : State :=
  let s := { s with layers := s.layers.erase e }
  if s.flag digCtrl_EN then s.layerRecord e incomplete else s

/-- Closes every entry with J below the new J, at BIND_STEP (R346). -/
def State.closeBelow (s : State) (j : W64) : State :=
  (s.layers.filter fun e => e.j.toNat < j.toNat).foldl
    (fun s e => s.closeLayer e (s.get digCtrl_EXPECT != 0 && decide (e.pubs < s.get digCtrl_EXPECT))) s

/-- The open entry with the oldest CONE_FIRST. -/
def oldestLayer (l : List LayerEnt) : Option LayerEnt :=
  l.foldl (fun b e => match b with
    | none => some e
    | some x => if e.first < x.first then some e else b) none

/-- Adds a publish into its entry (R346). -/
def State.publish (s : State) (j : W64) (layer : Nat) (d : DigSlot) : State :=
  if !s.flag digCtrl_EN then s
  else
    let add := fun (e : LayerEnt) => { e with pubs := e.pubs + 1, sum := e.sum + d.sum, count := e.count + d.count, nans := e.nans + d.nans }
    let r : LayerEnt × State := match s.layers.find? fun e => e.j = j && e.layer = layer with
      | some e => (add e, { s with layers := s.layers.map fun x => if x.j = j && x.layer = layer then add x else x })
      | none =>
        let s := if 256 ≤ s.layers.length then (match oldestLayer s.layers with | some o => s.closeLayer o true | none => s) else s
        let e := add ⟨j, layer, 0, 0, 0, 0, s.now⟩
        (e, { s with layers := s.layers ++ [e] })
    if r.2.get digCtrl_EXPECT ≠ 0 && r.2.get digCtrl_EXPECT ≤ r.1.pubs then r.2.closeLayer r.1 false else r.2

/-- DX.DPUB (R107, R346). -/
def execDxDpub (cl : Fin 128) (i : Issue) (s : State) : Host.Outcome State Fault Refusal :=
  runInstr cl 6 0x03 i .no (sIdx i.src1) true (fun s =>
    .ok (s.publish (s.rd (clJstep cl)) (bitsOf (s.sReg cl i.src1.toNat) 0 16) (s.digSlot cl i))) s

/-- DX.HASH (R107, R348): Ta is SRC1. -/
def execDxHash (cl : Fin 128) (i : Issue) (s : State) : Host.Outcome State Fault Refusal :=
  let f := i.fmta.toNat
  runInstr cl 6 0x04 i .no (sIdx i.dst && elemOrScale f) true (fun s =>
    let t := TD.of (s.tReg cl i.src1.toNat)
    unheld s cl [] [] (t.hz false)
      (if !s.tensorOk cl i.src1.toNat f false then .illegal s
      else acceptAsync s cl i (s.asyncOp cl i .hash i.src1.toNat i.src1.toNat 0) (fun _ _ t => t))) s

/-- Writes a hash result into DIG.HRESn (R348, R356). -/
def State.hashResult (s : State) (n : Nat) (h : BitVec 384) (len : Nat) : State :=
  let b := bytesBE 48 h.toNat
  let s := (List.range 6).foldl (fun s w => s.wr (digHres (8 * n + w)) (BitVec.ofNat 64 (natLE ((b.drop (8 * w)).take 8)))) s
  (s.wr (digHres (8 * n + 6)) (BitVec.ofNat 64 len)).wr (digHres (8 * n + 7)) 1

/-- DX.HASH at its end: the bytes of Ta are read by the digest and hash engine, in the cluster's name (log entry 40). -/
def moveHash (n : Nat) (o : AsyncOp) (s : State) : MoveEnd :=
  let t := TD.of o.ta
  let r := readTensor (busPort n) s t
  if r.2.1 ≠ rOK then .bad r.1 r.2.1 r.2.2.1
  else
    let b := r.2.2.2.bytes
    ⟨r.1.hashResult n (sha384 b) b.length, 0, none, rOK, 0⟩

end Sys2Proof.Machine
end

