-- ==== Sys2Proof/Machine/QueueQx.lean ====
section
/-!
DEFINITION. Machine/QueueQx.lean: the queue class QX (R108, R109), and the end of an asynchronous operation (R90, R93, R95).
-/
namespace Sys2Proof.Machine

/-! ## QX.SEND (R108) -/

/-- Queues the MSG of QX.SEND: its FLOW stream is the queue (R265). Its bytes are taken at issue (log entry 19). -/
def State.sendStart (s : State) (n k : Nat) (o : AsyncOp) : State :=
  let t := TD.of o.ta
  if t.empty then s
  else
    let r := readTensor (busPort n) s t
    if r.2.1 ≠ rOK then r.1.failOp n k r.2.1 r.2.2.1
    else
      let q := bitsOf o.arg 24 3
      let w2 := BitVec.ofNat 64 (clFlow n q * 2 ^ 48 + bitsOf o.arg 32 6 * 2 ^ 32 + q * 2 ^ 24 + bitsOf o.arg 16 7 * 2 ^ 16)
      let g := r.1.fresh 4
      let b := r.2.2.2.bytes
      let p := mkPkt tMSG 3 (bitsOf o.arg 0 14) 0 false (mkW1 (n * 16 + g.1.toNat) 0 b.length 0 0) w2 b
      (g.2.setSlot n k { g.2.slot n k with op := some { o with waiting := 1 } }).inject n ⟨p, false, false, some k, none, false⟩

/-- QX.SEND (R108): Ta is SRC2; ILLEGAL above 4,096 B. -/
def execQxSend (cl : Fin 128) (i : Issue) (s : State) : Host.Outcome State Fault Refusal :=
  let f := i.fmta.toNat
  runInstr cl 7 0x00 i .no (sIdx i.dst && sIdx i.src1 && elemOrScale f) true (fun s =>
    let t := TD.of (s.tReg cl i.src2.toNat)
    whileHeld s cl (unheld s cl [] [] (t.hz false)
      (if !s.tensorOk cl i.src2.toNat f false || 4096 < t.totalBytes then .illegal s
      else acceptAsync s cl i (s.asyncOp cl i .send i.src2.toNat i.src2.toNat 0) (fun k o t => t.sendStart cl k o)))) s

/-! ## QX.POLL and QX.RECV (R108, R109) -/

/-- QX.POLL (R108). -/
def execQxPoll (cl : Fin 128) (i : Issue) (s : State) : Host.Outcome State Fault Refusal :=
  runInstr cl 7 0x01 i .no (sIdx i.dst) true (fun s =>
    .ok (s.setS cl i.dst.toNat (BitVec.ofNat 64 ((s.cl cl).qready.countP fun e => e.1 = i.imm8.toNat % 8)))) s

/-- The pieces that put a byte string into a tensor in row-major order; bytes that the tensor has no room for, and elements that the
string does not reach, are left out. -/
def TD.bytePieces (t : TD) (data : List Byte) : List BitPiece :=
  let v := natLE data
  let hi := 8 * data.length
  (List.range t.count).filterMap fun j =>
    let e := t.index j
    let a := 8 * t.rowBytes * (e.2.1 + t.dim1 * e.2.2) + e.1 * fmtBits t.fmt
    let b := min (a + fmtBits t.fmt) hi
    if a < b then some ⟨t.bitAddr j, b - a, v / 2 ^ a % 2 ^ (b - a)⟩ else none

/-- QX.RECV (R108, R109): the oldest ready slot is copied into Td (SRC1) and released; with none ready it waits. -/
def recvExe (n : Nat) (i : Issue) (s : State) : Exe :=
  let q := i.imm8.toNat % 8
  let t := TD.of (s.tReg n i.src1.toNat)
  match (s.cl n).qready.find? fun e => e.1 = q with
  | none => .wait s .recv
  | some e =>
    let r := s.rawRead n (storeAddr n (s.get (clQ_BASE n q) * 4096 + e.2.1 * 4096)) e.2.2
    let a := storeAddr n (s.get (clQ_BASE n q) * 4096 + e.2.1 * 4096)
    if r.2.1 ≠ rOK then .raise (r.1.accessErr n a r.2.1) (Exc.plain xACCESS a r.2.1)
    else
      let w := writePieces (busPort n) r.1 (t.bytePieces r.2.2)
      if w.2.1 ≠ rOK then .raise w.1 (Exc.plain xACCESS w.2.2 w.2.1)
      else .ok ((w.1.modCl n fun c => { c with qready := c.qready.erase e }).setS n i.dst.toNat (BitVec.ofNat 64 e.2.2))

/-- QX.RECV (R108). -/
def execQxRecv (cl : Fin 128) (i : Issue) (s : State) : Host.Outcome State Fault Refusal :=
  let f := i.fmtd.toNat
  runInstr cl 7 0x02 i .no (sIdx i.dst && elemOrScale f) true (fun s =>
    let t := TD.of (s.tReg cl i.src1.toNat)
    whileHeld s cl (unheld s cl [] [] (t.hz true)
      (if !s.tensorOk cl i.src1.toNat f true then .illegal s
      else if t.empty then .ok s
      else recvExe cl i s))) s

/-- A message has arrived: a waiting QX.RECV takes it. -/
def State.wakeRecv (s : State) (n : Nat) : State :=
  match (s.cl n).wait with
  | some w => (match w.kind with
    | .recv => s.rewait n w (recvExe n w.issue s)
    | _ => s)
  | none => s

/-! ## QX.SUBMIT and QX.NOTIFY (R108, R393, R402) -/

/-- Reads `len` bytes at store offset Ss1, or raises ACCESS. -/
def storeTake (n : Nat) (i : Issue) (len : Nat) (s : State) (f : State → List Byte → Exe) : Exe :=
  let off := (s.sReg n i.src1.toNat).toNat
  let a := storeAddr n off
  unheld s n [] [] [(a, a + len, false)]
    (if storeSize < off + len then .raise (s.accessErr n a rDECERR) (Exc.plain xACCESS a rDECERR)
    else
      let r := s.rawRead n a len
      if r.2.1 ≠ rOK then .raise (r.1.accessErr n a r.2.1) (Exc.plain xACCESS a r.2.1) else f r.1 r.2.2)

/-- The eight words of 64 bytes. -/
def words64 (b : List Byte) : List W64 := (List.range 8).map fun k => BitVec.ofNat 64 (natLE ((b.drop (8 * k)).take 8))

/-- QX.SUBMIT (R108, R393): ACCESS with DENIED without the XQ right. -/
def execQxSubmit (cl : Fin 128) (i : Issue) (s : State) : Host.Outcome State Fault Refusal :=
  settled (runInstr cl 7 0x03 i .no (sIdx i.src1) true (fun s =>
    whileHeld s cl (storeTake cl i 64 s fun s b =>
      if !s.granted 0x004 cl aXQ then
        let a := regBase + 0x4 * 0x100000
        .raise (s.deny cl a 0x004 aXQ) (Exc.plain xACCESS a rDENIED)
      else .ok (s.submit (i.imm8.toNat % 64) ⟨words64 b, ⟨cl, none⟩⟩))) s)

/-- QX.NOTIFY (R108, R402). -/
def execQxNotify (cl : Fin 128) (i : Issue) (s : State) : Host.Outcome State Fault Refusal :=
  runInstr cl 7 0x04 i .no (sIdx i.src1) true (fun s =>
    storeTake cl i 32 s fun s b => .ok (s.post 2 cl b)) s

/-! ## ASYNC_OP_FINISH (R90, R93, R95) -/

/-- CLASS and OP of an asynchronous operation. -/
def AsyncKind.code : AsyncKind → Nat × Nat
  | .mov => (4, 0)
  | .gather => (4, 1)
  | .scatter => (4, 2)
  | .mirror => (4, 7)
  | .hash => (6, 4)
  | .send => (7, 0)

/-- The second completion record; a slot is freed on success and keeps a failure until it is reported (R90, R93). -/
def State.asyncEnd (_s : State) (n k : Nat) (o : AsyncOp) (e : MoveEnd) : State :=
  let s := e.s.locateAt n o.issue.strict o.pc 2 e.ev
  let c := o.kind.code
  let s := s.record n e.fl (if e.resp = rOK then 0 else 3) c.1 c.2 o.seq o.pc (s.slotHandle n k)
  let s := if e.resp = rOK then s.freeSlot n k
    else s.setSlot n k { s.slot n k with op := some { o with st := .failed e.resp e.addr } }
  s.wakeMove n

/-- Whether an earlier DX.HASH of the cluster is running (R348). -/
def State.hashBefore (s : State) (n : Nat) (o : AsyncOp) : Bool :=
  (s.cl n).slots.any fun m => match m.2.op with
    | some x => x.kind == .hash && x.st == .running && x.seq != o.seq && decide ((o.seq + 65536 - x.seq) % 65536 < 32768)
    | none => false

/-- ASYNC_OP_FINISH (R90): a move or hash does its work in one step (log entry 19); a TX.MIRROR or QX.SEND ends once every packet of it
is answered. -/
def execAsyncOpFinish (cl : Fin 128) (slot : Fin 64) (s : State) : Host.Outcome State Fault Refusal :=
  match (s.slot cl slot).op with
  | none => .next s
  | some o =>
    if o.st ≠ .running then .next s
    else
      let e : Option MoveEnd := match o.kind with
        | .mov => if s.accHeld cl then none else some (moveMov cl o s)
        | .gather => if s.accHeld cl then none else some (moveGather cl o s)
        | .scatter => if s.accHeld cl then none else some (moveScatter cl o s)
        | .hash => if s.accHeld cl || s.hashBefore cl o then none else some (moveHash cl o s)
        | _ => if o.waiting ≠ 0 then none else some ⟨s, 0, none, o.answer, o.addr⟩
      match e with
      | some e => Sys2Proof.Machine.done (s.asyncEnd cl slot o e).mirrorAdvance
      | none => .next s

end Sys2Proof.Machine
end

