-- ==== Sys2Proof/Machine/PacketRows.lean ====
section
/-!
DEFINITION. Machine/PacketRows.lean: what the units of a port do with the packets delivered to them: accesses (R215, R296, R297), answers
(R298), messages (R109), mirrors (R310, R315), TEST (R214), and CONE_SYNC (R333, R334).
-/
namespace Sys2Proof.Machine

/-! ## Answers (R215) -/

/-- The injection point whose packets enter at a port: a unit of that port answers there. -/
def answerPoint (port : Nat) : Nat :=
  match port with
  | 14 => 0
  | 15 => 4
  | 16 => 64
  | 17 => 68
  | _ => 129

/-- The target answers a request (R215). -/
def State.answer (s : State) (port : Nat) (p : Pkt) (status : Nat) (data : Option (List Byte)) : State :=
  s.inject (answerPoint port) ⟨answerTo p status data, true, false, none, none, false⟩

/-- What the records of a fabric access hold of its packet (R38): SRC in [13:0] and SLICE in [27:16] (log entry 42). -/
def Pkt.originWord (p : Pkt) : W64 := BitVec.ofNat 64 (p.src.toNat + p.slice.toNat * 2 ^ 16)

/-- Marks that what follows is the access of a packet, or of none. -/
def State.from_ (s : State) (o : W64) : State := { s with origin := o }

/-! ## The sequence filter (R296, R297) -/

/-- The key (SRC, FLOW) of a packet. -/
def Pkt.filterKey (p : Pkt) : Nat := p.src.toNat * 65536 + p.flow

/-- When an entry is free: AGE_LIMIT + 1 ms after its latest use (R297). -/
def State.filterStale (s : State) (e : FilterEnt) : Bool := e.last + s.ageLimit + 1000000 < s.now

/-- The entry with the oldest LAST: its key and LAST. -/
def oldestEnt (t : Tab FilterEnt) : Option (Nat × FilterEnt) :=
  t.foldl (fun (b : Option (Nat × FilterEnt)) e => match b with
    | some x => if e.2.last < x.2.last then some e else b
    | none => some e) none

/-- Makes room for an entry (R297): an eviction of one that is not free is counted. -/
def State.filterRoom (s : State) : State :=
  if s.filter.length < 65536 then s
  else match oldestEnt s.filter with
    | some (k, e) =>
      let t := { s with filter := Tab.erase s.filter k }
      if s.filterStale e then t else t.recount 2
    | none => s

/-- The entry of a packet, allocated where none is in use (R296). -/
def State.filterEnt (s : State) (p : Pkt) : FilterEnt × State :=
  match Tab.find s.filter p.filterKey with
  | some e => if s.filterStale e then (⟨p.chunk, 0, 0⟩, s) else (e, s)
  | none => (⟨p.chunk, 0, 0⟩, s.filterRoom)

/-- The window moved on to a PSEQ ahead of HI, and the distance behind HI (R296). -/
def FilterEnt.reach (e : FilterEnt) (pseq : Nat) : FilterEnt × Nat :=
  let d := (e.hi + 2 ^ 24 - pseq) % 2 ^ 24
  if 2 ^ 23 ≤ d then ({ e with hi := pseq, seen := e.seen <<< ((pseq + 2 ^ 24 - e.hi) % 2 ^ 24) }, 0) else (e, d)

/-- Passes a WRITE or MIRROR through the filter (R296): `apply` is done for a request that is not a duplicate and answers its
response; the status to answer with. -/
def State.filtered (s : State) (p : Pkt) (apply : State → State × Nat) : State × Nat :=
  let f := s.filterEnt p
  let r := f.1.reach p.chunk
  let keep := fun (t : State) (e : FilterEnt) => { t with filter := Tab.insert t.filter p.filterKey { e with last := s.now } }
  if r.2 < 64 && !r.1.seen.getLsbD r.2 then
    let a := apply f.2
    (keep a.1 (if a.2 = rOK then { r.1 with seen := r.1.seen ||| (1#64 <<< r.2) } else r.1), a.2)
  else (keep (f.2.recount 0) r.1, rOK)

/-! ## Accesses -/

/-- WRITE (R215, R296): it waits while HOLD keeps its master's accesses (R377). -/
def execWrite (port : Fin 20) (s : State) : Host.Outcome State Fault Refusal :=
  match s.takeHead port (·.typ == tWRITE) with
  | none => .next s
  | some (d, t) =>
    if s.accHeld d.mid then .next s
    else
      let p := d.pkt
      let r := t.filtered p fun t =>
        let w := (t.from_ p.originWord).busWrite d.mid p.addr (p.payload.take p.len)
        (w.1.from_ 0, w.2.1)
      done (r.1.answer port p r.2 none)

/-- READ_REQ (R215, R294). -/
def execReadReq (port : Fin 20) (s : State) : Host.Outcome State Fault Refusal :=
  match s.takeHead port (·.typ == tREADREQ) with
  | none => .next s
  | some (d, t) =>
    if s.accHeld d.mid then .next s
    else
      let p := d.pkt
      let r := (t.from_ p.originWord).busRead d.mid p.addr p.len
      done ((r.1.from_ 0).answer port p r.2.1 (some r.2.2.2))

/-! ## Answers at their requester (R227, R242, R298) -/

/-- The request that an answer matches by TAG and PSEQ; of several, one whose word 2 it copies. -/
def State.matching (s : State) (p : Pkt) : Option Req :=
  let l := s.requests.filter fun r => r.pkt.coll = p.coll && r.pkt.chunk = p.chunk && (r.pkt.typ == tREADREQ) == (p.typ == tREADRSP)
  match l.find? (·.pkt.w2 = p.w2) with
  | some r => some r
  | none => l.head?

/-- Sends the pushes of a restore up to the window of 64 requests (R295, R315): packets of at most 4,096 B that cross no 4 KiB
boundary, their bytes read out as master 0x132. -/
def State.pushFill (s : State) : Nat → State
  | 0 => s
  | fuel + 1 =>
    match s.mirror.bind, s.mirror.push with
    | some b, some u =>
      if 64 ≤ u.out || u.bytes ≤ u.next || u.status ≠ rOK then s
      else
        let n := min (u.bytes - u.next) (4096 - (u.base + u.next) % 4096)
        let r := s.memRead 0x132 (b.wardBase + u.half.toNat * b.halfBytes + 4096 + u.next) n
        if r.2.1 ≠ rOK then
          (r.1.engineFault 0x132 r.2.2.1 r.2.1).modMirror fun m => { m with push := some { u with status := r.2.1 } }
        else
          ((r.1.modMirror fun m => { m with push := some { u with next := u.next + n, out := u.out + 1 } }).mirrorSend b.ward
            (u.base + u.next) r.2.2.2).pushFill fuel
    | _, _ => s

/-- A restore being served has ended: RESTORE_END goes to the restorer (R315). -/
def State.restoreEnd (s : State) (dst : Nat) (step : W64) (bytes code : Nat) : State :=
  let f := s.fault 0x0B (if code = eOK then 0 else 2) 0x132 s.coord (s.get routeSlice_SLICE) 15 0 step (BitVec.ofNat 64 bytes)
    (BitVec.ofNat 64 code)
  f.2.sendNote dst f.1

/-- Goes on with the restore being served: more pushes, or its end once every push is answered. -/
def State.pushAdvance (s : State) : State :=
  let s := s.pushFill 65
  match s.mirror.bind, s.mirror.push with
  | some b, some u =>
    if u.out = 0 && (u.bytes ≤ u.next || u.status ≠ rOK) then
      (s.modMirror fun m => { m with push := none }).restoreEnd b.ward u.step (min u.next u.bytes) (statusOf u.status)
    else s
  | _, _ => s

/-- An answer to a MIRROR of the mirror engine: of the header of half WHALF at the buddy, or of a push. -/
def State.engineAnswered (s : State) (r : Req) (status : Nat) : State :=
  match s.mirror.bind with
  | some b =>
    if r.pkt.dst.toNat = b.buddy && r.pkt.addr = b.buddyBase + s.mirror.whalf.toNat * b.halfBytes && r.pkt.len = 64
        && (s.mirror.opening || s.mirror.sealing) then s.headerAnswered status
    else
      (s.modMirror fun m => { m with push := m.push.map fun u =>
        { u with
          out := u.out - 1
          status := if u.status = rOK then status else u.status } }).pushAdvance
  | none => s

/-- The effect of an answer on its requester (R93, R242, R295, R298). -/
def State.answered (s : State) (p : Pkt) : State :=
  match s.matching p with
  | none => s.recount 1
  | some r =>
    let s := s.dropReq r
    let s := if p.cm && r.pkt.throttled then s.throttleCut (injKey r.point) p.src.toNat else s
    match r.slot with
    | some k => s.slotAnswer r.cl k r.pkt p.op
    | none => if r.pkt.typ == tMIRROR then s.engineAnswered r p.op else s

/-- READ_RSP (R298). -/
def execReadRsp (port : Fin 20) (s : State) : Host.Outcome State Fault Refusal :=
  match s.takeHead port (·.typ == tREADRSP) with
  | none => .next s
  | some (d, s) => Sys2Proof.Machine.done (s.answered d.pkt)

/-- DONE outside C2 (R298). -/
def execDone (port : Fin 20) (s : State) : Host.Outcome State Fault Refusal :=
  match s.takeHead port (fun p => p.typ == tDONE && !p.form) with
  | none => .next s
  | some (d, s) => Sys2Proof.Machine.done (s.answered d.pkt).schReady

/-! ## Messages (R109) -/

/-- Puts a message into its slot: the status to answer with. A disabled queue, or a slot beyond its size, drops it. -/
def State.msgPut (s : State) (mid : Nat) (p : Pkt) : State × Nat :=
  let n := bitsOf p.w2 16 7
  let q := bitsOf p.w2 24 3
  let k := bitsOf p.w2 32 6
  if !s.flag (clQ_EN n q) || 2 ^ s.get (clQ_SLOTS n q) ≤ k then (s, rDENIED)
  else
    let w := (s.from_ p.originWord).memWrite mid (storeAddr n (s.get (clQ_BASE n q) * 4096 + k * 4096)) (p.payload.take p.len)
    let s := w.1.from_ 0
    if w.2.1 ≠ rOK then (s, w.2.1)
    else
      let l := (s.cl n).qready
      let ready := l.any fun e => e.1 = q && e.2.1 = k
      let s := if ready then ((s.bump (clQ_OVW n q)).bump (digNdet_COUNT 3)).bump digNdetCount_COUNT else s
      let l := if ready then l.map fun e => if e.1 = q && e.2.1 = k then (q, k, p.len) else e else l ++ [(q, k, p.len)]
      ((s.modCl n fun c => { c with qready := l }).wakeRecv n, rOK)

/-- MSG (R109, R215). -/
def execMsg (port : Fin 20) (s : State) : Host.Outcome State Fault Refusal :=
  match s.takeHead port (·.typ == tMSG) with
  | none => .next s
  | some (d, t) =>
    if s.accHeld d.mid then .next s
    else
      let r := t.msgPut d.mid d.pkt
      done (r.1.answer port d.pkt r.2 none)

/-! ## Mirrors (R310, R315) -/

/-- Whether a MIRROR may be written: into the open restore window, or into the ward region. -/
def State.mirrorInWindow (s : State) (p : Pkt) : Bool :=
  match s.mirror.bind, s.mirror.window with
  | some b, some (lo, n) => p.src.toNat = b.buddy && decide (lo ≤ p.addr) && decide (p.addr + p.len ≤ lo + n)
  | _, _ => false

/-- Whether a MIRROR comes from the ward and lies wholly inside the ward region. -/
def State.mirrorOfWard (s : State) (p : Pkt) : Bool :=
  match s.mirror.bind with
  | some b => b.wardEn && p.src.toNat = b.ward && decide (b.wardBase ≤ p.addr) && decide (p.addr + p.len ≤ b.wardBase + 2 * b.halfBytes)
  | none => false

/-- Writes a MIRROR as master 0x132: only HBM is a target (R310); a response other than OK is an ENGINE_FAULT (R33). -/
def State.mirrorWrite (s : State) (p : Pkt) : State × Nat :=
  let inWin := s.mirrorInWindow p
  if !inWin && !s.mirrorOfWard p then (s, rDENIED)
  else
    let s := if inWin then s.modMirror fun m => { m with windowAt := s.now } else s
    match decodeAddr p.addr with
    | .hbm _ =>
      let w := (s.from_ p.originWord).memWrite 0x132 p.addr (p.payload.take p.len)
      let s := w.1.from_ 0
      if w.2.1 = rOK then
        (if inWin then s.modMirror fun m => { m with windowBytes := m.windowBytes + p.len } else s, rOK)
      else (s.engineFault 0x132 w.2.2 w.2.1 (some p), w.2.1)
    | _ => (s, rDENIED)

/-- MIRROR (R215, R296, R310): its cells are released once it is written or refused. -/
def execMirror (s : State) : Host.Outcome State Fault Refusal :=
  match s.takeHead 19 (·.typ == tMIRROR) with
  | none => .next s
  | some (d, t) =>
    if s.accHeld 0x132 then .next s
    else
      let p := t.livePkt d.pkt d.cells d.off
      let r := t.filtered p (·.mirrorWrite p)
      done ((r.1.release d.mid d.cells).answer 19 d.pkt r.2 none)

/-- TEST (R214): the packet is counted and its payload checked against its PCRC. -/
def execTest (s : State) : Host.Outcome State Fault Refusal :=
  match s.takeHead 19 (·.typ == tTEST) with
  | none => .next s
  | some (d, s) =>
    let bad := crc32c (d.pkt.payload.take d.pkt.carried) != d.pkt.pcrc
    .next { s with testCnt := s.testCnt + 1, testBad := s.testBad + bad.toNat }

/-! ## CONE_SYNC (R333, R334) -/

/-- CONE_SYNC: the message at the head of port 19 that came in on a torus link; one with a reserved SUBTYPE is dropped. -/
def execConeSync (s : State) : Host.Outcome State Fault Refusal :=
  match s.takeHead 19 (·.typ == tCONESYNC) with
  | none => .next s
  | some (d, s) =>
    if d.inPort < 12 && d.pkt.payload.headD 0 = 1 && d.pkt.payload.length = 64 then done (s.coneTake d.inPort d.pkt.payload) else .next s

/-- Places a CONE_SYNC in the C1 VOQ of a link, with DST from LNK.PEER_INFO; the link controller fills in its payload as it is
sent. -/
def State.coneSend (s : State) (i : Nat) : State :=
  let body := List.replicate 64 (0 : Byte)
  let p : Pkt := { mkPkt tCONESYNC 1 (s.get (lnkPeerInfo_COORD i)) 0xFFF false (mkW1 0 0 64 0 0) 0 body with
    epoch := s.flag routeBank_ACTIVE
    src := BitVec.ofNat 14 s.coord
    age := BitVec.ofNat 24 (cone24 s.now) }
  match s.alloc p.cellCount 3 0x122 0 with
  | some (cs, t) => (t.putPkt cs p).join (voqKey 19 i 1 0) ⟨p, none, cs, 32, 19, 0x122, false, s.now⟩
  | none => s

/-- CONE_SYNC_PERIOD (R333): every GLOST torus link carries one CONE_SYNC. -/
def execConeSyncPeriod (s : State) : Host.Outcome State Fault Refusal :=
  done ((List.range 12).foldl (fun s i => if s.lnk i = lkGLOST then s.coneSend i else s) s)

end Sys2Proof.Machine
end

