-- ==== Sys2Proof/Machine/RecoveryRows.lean ====
section
/-!
DEFINITION. Machine/RecoveryRows.lean: management messages (R285, R400, R401), fault notes (R301-R306), the close of a generation (R311) and
restores (R315, R316).
-/
namespace Sys2Proof.Machine

/-! ## Management messages -/

/-- MTYPE of a MGMT packet. -/
def Pkt.mtype (p : Pkt) : Nat := (p.payload.headD 0).toNat

/-- TO_HOST of a MGMT packet. -/
def Pkt.toHost (p : Pkt) : Bool := (p.payload.getD 1 0).getLsbD 0

/-- A CMD message reaches the submit engine (R393, R401): a duplicate is not queued again, and is answered once the original has
completed. -/
def State.mgmtSubmit (s : State) (mid : Nat) (p : Pkt) : State :=
  let live := s.mgmtSeen.filter fun e => s.now ≤ e.since + s.ageLimit + 1000000
  match live.find? fun e => e.src = p.src.toNat && e.tag = p.coll && e.pseq = p.chunk with
  | some e =>
    (match e.ack with
      | some (a, b) => s.cmdAck p mid a b
      | none => s)
  | none =>
    let e : SeenCmd := ⟨p.src.toNat, p.coll, p.chunk, s.now, none⟩
    { s with mgmtSeen := (e :: live).take 256 }.submit ((p.payload.getD 2 0).toNat % 64) ⟨words64 (p.payload.drop 16), ⟨mid, some p⟩⟩

/-- MGMT_CMD (R393, R400, R401). -/
def execMgmtCmd (s : State) : Host.Outcome State Fault Refusal :=
  match s.takeHead 19 (fun p => p.typ == tMGMT && p.mtype == 1 && !p.toHost) with
  | some (d, t) => if s.mstate = mOFF then .next s else done (t.mgmtSubmit d.mid d.pkt)
  | none => .next s

/-- MGMT_TO_HOST (R285, R400): SCH sends the packet out of a service port as R284 chooses it; with none it is discarded. -/
def execMgmtToHost (s : State) : Host.Outcome State Fault Refusal :=
  match s.takeHead 19 (fun p => p.typ == tMGMT && p.toHost) with
  | some (d, t) =>
    if !s.procRuns .sch then .next s
    else
      let p := { d.pkt with age := BitVec.ofNat 24 (cone24 s.now), hops := 0, vc := 0, epoch := s.flag routeBank_ACTIVE }
      match t.serviceOut p with
      | none => done (t.bump routeCntNoroute_COUNT)
      | some o =>
        (match t.alloc p.cellCount 3 0x122 0 with
          | some (cs, u) => done ((u.putPkt cs p).join (voqKey 19 o p.cls.toNat 0) ⟨p, none, cs, 32, 19, 0x122, false, s.now⟩)
          | none => .next s)
  | none => .next s

/-! ## Fault notes (R301) -/

/-- Word `k` of a fault record. -/
def Pkt.recWord (p : Pkt) (k : Nat) : W64 := BitVec.ofNat 64 (natLE ((p.payload.drop (8 * k)).take 8))

/-- KIND of a note. -/
def Pkt.noteKind (p : Pkt) : Nat := bitsOf (p.recWord 0) 0 8

/-- REPORTER of a note. -/
def Pkt.reporter (p : Pkt) : Nat := bitsOf (p.recWord 2) 0 14

/-- SUBJECT of a note. -/
def Pkt.subject (p : Pkt) : Nat := bitsOf (p.recWord 2) 32 14

/-- SSLICE of a note. -/
def Pkt.sslice (p : Pkt) : Nat := bitsOf (p.recWord 2) 48 12

/-- The eight words of a note. -/
def Pkt.recWords (p : Pkt) : List W64 := (List.range 8).map p.recWord

/-- Notes a key as seen now; false where it was seen within the last second (R301). -/
def State.noteFresh (s : State) (kind key : Nat) : Bool × State :=
  let l := s.notes.filter fun e => s.now < e.2.2 + 1000000000
  if l.any fun e => e.1 = kind && e.2.1 = key then (false, { s with notes := l }.recount 5)
  else (true, { s with notes := (kind, key, s.now) :: l })

/-- The frame of a note's row: the first FAULT_NOTE at port 19, of one of the kinds; a copy of a record seen within the last second is
dropped. -/
def noteRow (kinds : List Nat) (f : State → Pkt → State) (s : State) : Host.Outcome State Fault Refusal :=
  match s.takeHead 19 (fun p => p.typ == tFAULTNOTE && kinds.contains p.noteKind) with
  | none => .next s
  | some (d, s) =>
    let r := s.noteFresh 0 (d.pkt.reporter * 65536 + bitsOf (d.pkt.recWord 0) 32 16)
    if r.1 then done (f r.2 d.pkt) else done r.2

/-- FAULT_NOTE (R301): a record about a link, a FENCED module or an engine of another module is logged; it changes nothing else. -/
def execFaultNote (s : State) : Host.Outcome State Fault Refusal :=
  noteRow [0x01, 0x02, 0x06, 0x07, 0x08, 0x09] (fun s p =>
    if p.noteKind = 0x06 then
      let r := s.noteFresh 0x06 p.subject
      if r.1 then r.2.logFault p.recWords else r.2
    else s.logFault p.recWords) s

/-! ## Suspicion and loss (R303-R306) -/

/-- PROBE (R303): answered with PROBE_ACK in every state, without firmware. -/
def execProbe (s : State) : Host.Outcome State Fault Refusal :=
  noteRow [0x03] (fun s p =>
    let f := s.fault 0x04 0 0x3FE s.coord (s.get routeSlice_SLICE) 15 0 0 0 0
    f.2.sendNote p.reporter f.1) s

/-- PROBE_ACK (R303): a suspicion of the reporter ends. -/
def execProbeAck (s : State) : Host.Outcome State Fault Refusal :=
  noteRow [0x04] (fun s p => { s with suspects := s.suspects.filter fun e => e.2.coord ≠ p.reporter }) s

/-- PROBE_PERIOD (R303). -/
def execProbePeriod (dir : Fin 6) (s : State) : Host.Outcome State Fault Refusal := done (s.sendProbe dir)

/-- Fault pending is set (R305): a step-boundary hold. -/
def State.setFpend (s : State) : State := (s.put sysState_FPEND 1).autoState

/-- LOST_TIME_EXPIRY (R303, R304): the neighbour is declared lost; a module of its slice tells the other members, and accepts its own
declaration. -/
def execLostTimeExpiry (dir : Fin 6) (s : State) : Host.Outcome State Fault Refusal :=
  match s.suspects.find dir with
  | some m =>
    if s.now < m.since + 1000000 || m.coord = s.coord then .next s
    else
      let ss := s.get (lnkPeerInfo_SLICE (2 * dir))
      let f := { s with suspects := s.suspects.erase dir }.peerFault 0x05 3 (2 * dir) m.coord (BitVec.ofNat 64 m.since) 0
      if s.get routeSlice_SLICE = ss && ss ≠ 0 then
        let s := f.2.fanOut f.1 (f.2.members m.coord)
        done (s.noteFresh 0x05 m.coord).2.setFpend
      else done f.2
  | none => .next s

/-- MODULE_LOST (R301, R305, R306): logged and posted; a module of the lost one's slice sets fault pending, and one that is named itself
goes on. -/
def execModuleLost (s : State) : Host.Outcome State Fault Refusal :=
  noteRow [0x05] (fun s p =>
    let r := s.noteFresh 0x05 p.subject
    if !r.1 then r.2
    else
      let own := r.2.get routeSlice_SLICE
      let w := setBits (p.recWord 0) 8 2 (if p.subject = s.coord then 3 else bitsOf (p.recWord 0) 8 2)
      let l := w :: (p.recWords.drop 1)
      let s := (r.2.logFault l).post 3 0x122 (wordsBytes l)
      if p.subject ≠ s.coord && p.sslice = own && own ≠ 0 then s.setFpend else s) s

/-! ## Mirrors and restores (R311, R315, R316) -/

/-- GENERATION_CLOSE (R311): every mirror of the generation being closed has finished. -/
def execGenerationClose (s : State) : Host.Outcome State Fault Refusal := done s.mirrorSeal.schReady

/-- The header of a half of the ward region: its words, or the response that its read received. -/
def State.wardHeader (s : State) (b : MirrorBind) (h : Bool) : State × Nat × List W64 :=
  let r := s.memRead 0x132 (b.wardBase + h.toNat * b.halfBytes) 64
  if r.2.1 = rOK then (r.1, rOK, words64 r.2.2.2) else (r.1.engineFault 0x132 r.2.2.1 r.2.1, r.2.1, [])

/-- Whether a header is that of a complete generation of a step. -/
def headerOf (step : W64) (l : List W64) : Bool :=
  bitsOf (l.getD 0 0) 0 32 = 0x4D525248 && bitsOf (l.getD 0 0) 32 1 = 1 && l.getD 1 0 = step

/-- The buddy serves a RESTORE_REQ (R315), or answers with an error. -/
def State.serveRestore (s : State) (p : Pkt) : State :=
  let step := p.recWord 4
  let base := bitsOf (p.recWord 5) 0 48
  match s.mirror.bind with
  | none => s.restoreEnd p.reporter step 0 ePARAM
  | some b =>
    if !b.wardEn || b.ward ≠ p.reporter then s.restoreEnd p.reporter step 0 ePARAM
    else
      let h0 := s.wardHeader b false
      let h1 := h0.1.wardHeader b true
      let s := h1.1
      let ok0 := h0.2.1 = rOK && headerOf step h0.2.2
      let ok1 := h1.2.1 = rOK && headerOf step h1.2.2
      let second := ok1 && (!ok0 || decide ((h0.2.2.getD 2 0).toNat < (h1.2.2.getD 2 0).toNat))
      if !ok0 && !ok1 then
        s.restoreEnd p.reporter step 0 (if h0.2.1 ≠ rOK then statusOf h0.2.1 else if h1.2.1 ≠ rOK then statusOf h1.2.1 else ePARAM)
      else
        let bytes := ((if second then h1.2.2 else h0.2.2).getD 3 0).toNat
        if (p.recWord 6).toNat < bytes then s.restoreEnd p.reporter step 0 ePARAM
        else
          let out := match s.mirror.push with | some u => u.out | none => 0
          (s.modMirror fun m => { m with push := some ⟨second, step, bytes, base, 0, out, rOK⟩ }).pushAdvance

/-- RESTORE_REQ (R315): it waits while HOLD keeps the mirror engine's accesses (R377). -/
def execRestoreReq (s : State) : Host.Outcome State Fault Refusal :=
  if s.accHeld 0x132 then .next s else noteRow [0x0A] State.serveRestore s

/-- The RESTORE in progress: its queue. -/
def State.restoringQ (s : State) : Option Nat := (s.runs.find? fun r => r.kind == .restoring).map (·.q)

/-- A restore ends with a status (R315, R316): the window closes, the status block is written, the module leaves RESTORING and the command
completes. -/
def State.restoreDone (s : State) (code bytes : Nat) : State :=
  let q := s.restoringQ
  let s := (s.modMirror fun m => { m with window := none, rstatus := code }).mirrorStatus
  let s := if s.mstate = mRESTORING then s.setMstate mBOUND else s
  match q with
  | some q => (s.finishCmd q code (BitVec.ofNat 64 bytes)).schReady
  | none => s

/-- RESTORE_END (R315, R316). No message carries the header's GEN or the half to the restorer: both are free values (log entry 44). -/
def execRestoreEnd (s : State) : Host.Outcome State Fault Refusal :=
  noteRow [0x0B] (fun s p =>
    match s.mirror.bind, s.mirror.window with
    | some b, some _ =>
      if p.reporter ≠ b.buddy || p.recWord 4 ≠ s.mirror.windowStep then s
      else
        let code := bitsOf (p.recWord 6) 0 8
        if code ≠ eOK then s.restoreDone code s.mirror.windowBytes
        else
          let g := s.fresh 64
          let h := g.2.fresh 1
          let s := h.2.recount 7
          (s.modMirror fun m => { m with
            localSnap := m.windowStep
            gen := g.1 + 1
            whalf := h.1 == 1
            flip := true
            opened := false
            opening := false }).restoreDone eOK (p.recWord 5).toNat
    | _, _ => s) s

/-- RESTORE_TIMEOUT (R316): nothing has arrived for 10 ms. -/
def execRestoreTimeout (s : State) : Host.Outcome State Fault Refusal :=
  if s.mirror.window.isSome && s.mirror.windowAt + 10000000 ≤ s.now then done (s.restoreDone eFAULT s.mirror.windowBytes) else .next s

end Sys2Proof.Machine
end

