-- ==== Sys2Proof/Machine/Settings.lean ====
section
/-!
DEFINITION. Machine/Settings.lean: the user settings layer and its resolution (R472-R474), the initial route tables and the
calibration record of the image (R475, R476, R478), and the access image of BIND (R378).
-/
namespace Sys2Proof.Machine

/-- IMG_REGION_INVALID (R482): a region code and a section. -/
def State.regionInvalid (s : State) (region sec : Nat) : State := s.logEv 0x0B01 0x122 region (BitVec.ofNat 64 sec) 0

/-! ## The user settings layer (R472) -/

/-- Offset of the layer in the image. -/
def layerBase : Nat := 0x150000

/-- COUNT of the layer as stored. -/
def State.layerCount (s : State) : Nat := tokField (s.image layerBase 32) 6 2

/-- The records' bytes. -/
def State.layerBytes (s : State) : List Byte := s.image (layerBase + 224) (24 * s.layerCount)

/-- Whether MAGIC, VERSION, COUNT and the CRC pass. -/
def State.layerOk (s : State) : Bool :=
  let h := s.image layerBase 32
  tokField h 0 4 == 0x54455355 && tokField h 4 2 == 1 && decide (s.layerCount ≤ 2048)
    && tokField h 8 4 == (crc32c s.layerBytes).toNat

/-- Whether a record that writes SYS.EXPERT_EN may be applied (R474). -/
def State.layerSigned (s : State) : Bool :=
  let h := s.image layerBase 224
  s.sec.ownerHash == 0 || (tokField h 12 1 % 2 == 1 && sha384 ((h.drop 32).take 96) == s.sec.ownerHash
    && ecVerify (BitVec.ofNat 768 (beField h 32 96)) (sha384 (h.take 128 ++ s.layerBytes)).toNat (beField h 128 48) (beField h 176 48))

/-- The three words of each record. -/
def State.layerRecords (s : State) : List (W64 × W64 × W64) :=
  let b := s.layerBytes
  (List.range s.layerCount).map fun j =>
    let w := fun (k : Nat) => BitVec.ofNat 64 (natLE ((b.drop (24 * j + 8 * k)).take 8))
    (w 0, w 1, w 2)

/-- A register's value with VALUE written under MASK. -/
def underMask (old mask v : W64) : W64 := (old &&& ~~~mask) ||| (v &&& mask)

/-- The register that a REG record may write: its key and row. None where the record is refused for its MASK or its register. -/
def regRecord (w0 w1 : W64) : Option (Nat × RegDesc) :=
  match decodeAddr (bitsOf w0 16 48) with
  | .reg b o =>
    let k := b * 0x100000 + o
    (match keyDesc k with
      | some d =>
        if w1 &&& ~~~(BitVec.ofNat 64 d.img) ≠ 0 || k = routeKeyA || k = routeKeyB || (List.range 14).any (fun i => k == lnkExpect i)
          then none
        else some (k, d)
      | none => none)
  | _ => none

/-- Applies one record (R473, R474); none where it is refused. A reserved KIND is refused too. -/
def State.applyRecord (s : State) (signed : Bool) (r : W64 × W64 × W64) : Option State :=
  match bitsOf r.1 0 4 with
  | 1 =>
    (match regRecord r.1 r.2.1 with
      | some (k, d) =>
        if k = sysExpertEn then
          (if signed then some ((s.regStore k d (underMask (s.rd k) r.2.1 r.2.2)).put imgBoot_VALID (s.get imgBoot_VALID ||| 128))
            else none)
        else s.regHook 0x122 k d (underMask (s.regView k d &&& ~~~(BitVec.ofNat 64 d.rw1c)) r.2.1 r.2.2)
      | none => none)
  | 2 =>
    let f := fun (lo : Nat) => bitsOf r.2.1 lo 8
    if 7 < f 0 || 7 < f 8 || 3 < f 16 then none
    else some (s.modPwr fun p => { p with cube := f 0 + 8 * f 8 + 64 * f 16 })
  | _ => none

/-- Applies the layer at boot (R473): every refusal is logged as SETTING_REFUSED and counted. What KLN.TIMER and KLN.CTX_ALLOW
resolve to is kept for BIND (R397). -/
def State.applySettings (s : State) : State :=
  let s := if !s.layerOk then s.regionInvalid 6 0
    else
      let signed := s.layerSigned
      let s := s.put imgBoot_VALID (s.get imgBoot_VALID ||| 32)
      s.layerRecords.zipIdx.foldl (fun s r => match s.applyRecord signed r.1 with
        | some t => t.bump imgBoot_APPLIED
        | none => (s.logEv 0x0B02 0x122 r.2 r.1.1 r.1.2.1).bump imgBoot_REFUSED) s
  { s with imgTimer := s.rd klnTimer, imgAllow := s.rd klnCtxAllow }

/-! ## Route tables and calibration (R475, R476, R478) -/

/-- Whether the initial route tables region is valid. -/
def State.routeRegionOk (s : State) : Bool :=
  tokField (s.image 0x180008 8) 4 4 == 0x54554F52 && tokField (s.image 0x180008 8) 0 4 == (crc32c (s.image 0x160000 131080)).toNat

/-- The entries and the key of the region. -/
def State.routeRegion (s : State) : Tab W64 × W64 :=
  let b := s.image 0x160000 131080
  (entriesOf b 0 16384, BitVec.ofNat 64 (natLE (b.drop 131072)))

/-- Loads a bank from the image; none where the region is invalid, which is logged. -/
def State.routesFromImage (s : State) (b : Bool) : Option State :=
  if s.routeRegionOk then let r := s.routeRegion; some (s.loadBank b r.1 (some r.2)) else none

/-- Whether the calibration record's header passes (R475; log entry 46). -/
def State.calOk (s : State) : Bool :=
  let h := s.image 0x40000 64
  tokField h 0 4 == 0x4C414343 && tokField h 4 2 == 1 && tokField h 8 8 == (s.rd sysSerial).toNat

/-- Whether a calibration section of `n` bytes ends with its CRC. -/
def State.calSection (s : State) (off n : Nat) : Bool :=
  let b := s.image (0x40000 + off) n
  s.calOk && tokField b (n - 4) 4 == (crc32c (b.take (n - 4))).toNat

/-- The sections: their number, offset and length with the CRC (log entry 46). -/
def calSections : List (Nat × Nat × Nat) :=
  [(0, 0x1000, 14 * 4 * 17 * 32 + 4), (1, 0x11000, 324), (2, 0x12000, 130 * 25 * 2 + 4)]

/-- SENSOR offsets in force (R475, R476): the record's, or +5.00 °C each. -/
def State.sensorOffsets (s : State) : List Int :=
  if s.calSection 0x11000 324 then (List.range 160).map fun i => toSigned 16 (natLE (s.image (0x51000 + 2 * i) 2))
  else List.replicate 160 500

/-- Reads the calibration record at boot: an invalid section is logged and its fallback applies (R476). -/
def State.loadCalibration (s : State) : State :=
  let s := calSections.foldl (fun s c =>
    if s.calSection c.2.1 c.2.2 then s.put imgBoot_VALID (s.get imgBoot_VALID ||| 2 ^ c.1) else s.regionInvalid 4 c.1) s
  let bad := (List.range 8).filter fun k => !s.calSection (0x20000 + k * 0x10000) 0x10000
  let s := bad.foldl (fun s k => s.regionInvalid 4 (3 + k)) s
  let s := if bad.isEmpty then s.put imgBoot_VALID (s.get imgBoot_VALID ||| 8) else s
  s.modPwr fun p => { p with offsets := s.sensorOffsets }

/-! ## The access image (R378) -/

/-- Whether a record of an access image is valid. -/
def accRecordOk (w0 w1 : W64) : Bool :=
  match bitsOf w0 0 4 with
  | 1 =>
    let t := targetRights (bitsOf w0 16 10)
    decide (bitsOf w0 32 10 ≤ bitsOf w0 48 10) && t != 0 && (bitsOf w0 60 4 &&& t) == bitsOf w0 60 4
  | 2 => decide (bitsOf w0 12 36 ≤ bitsOf w1 12 36) && decide (bitsOf w1 12 36 < 0x8000000)
  | _ => false

/-- The words of an image's records. -/
def accRecords (b : List Byte) (n : Nat) : List (W64 × W64) :=
  (List.range n).map fun j => (BitVec.ofNat 64 (natLE ((b.drop (16 * j)).take 8)), BitVec.ofNat 64 (natLE ((b.drop (16 * j + 8)).take 8)))

/-- Applies one record. -/
def State.accApply (s : State) (r : W64 × W64) : State :=
  if bitsOf r.1 0 4 = 1 then
    let first := bitsOf r.1 32 10
    (List.range (bitsOf r.1 48 10 + 1 - first)).foldl (fun s j => s.setRights (bitsOf r.1 16 10) (first + j) (bitsOf r.1 60 4)) s
  else
    let k := bitsOf r.1 4 6
    ((s.put (accRgnBase_EN k) (bitsOf r.1 10 1)).put (accRgnBase_BASE k) (bitsOf r.1 12 36)).put (accRgnLimit_LIMIT k) (bitsOf r.2 12 36)

/-- A table load by SCH (R377): HOLD is set and cleared around it, and TORN ends; the accesses that waited go on. -/
def State.accLoad (s : State) (l : List (W64 × W64)) : State :=
  let s := l.foldl State.accApply (s.put accCtrl_HOLD 1).accLoadDefaults
  ((s.put accCtrl_HOLD 0).put accCtrl_TORN 0).releaseHeld

end Sys2Proof.Machine
end

