-- ==== Sys2Proof/Machine/BootOps.lean ====
section
/-!
DEFINITION. Machine/BootOps.lean: the operations of the power-up sequence (R257, R370, R421, R422, R458, R473, R478), and what PWR does about
emergency sources that change while it does not run (R457).
-/
namespace Sys2Proof.Machine

/-! ## Emergency sources (R456, R457) -/

/-- A source sets or clears: PWR_OK follows undervoltage at once (R488), the rest follows once PWR runs. -/
def State.emChange (s : State) (on : Bool) (e : EmSrc) : State :=
  let s := if e = .undervoltage then s.modPwr fun p => { p with pwrOk := !on } else s
  if s.procRuns .pwr then (if on then s.emergSet e else s.emergClear e)
  else s.modPwr fun p => { p with emWait := p.emWait ++ [(on, e)] }

/-- PWR runs: it acts on what the sources have done meanwhile. -/
def State.emReplay (s : State) : State :=
  s.power.emWait.foldl (fun s c => if c.1 then s.emergSet c.2 else s.emergClear c.2) (s.modPwr fun p => { p with emWait := [] })

/-! ## SEC's boot (R421, R422) -/

/-- Boot fails (R422): the cause is recorded and logged; the module stays in BOOTING, in recovery mode. -/
def State.bootFail (s : State) (result failProc : Nat) : State :=
  let s := ((s.put secBoot_RESULT result).put secBoot_FAILPROC failProc).put secBoot_DONE 1
  let s := (s.modSec fun c => { c with recovery := true }).modPwr fun p => { p with phase := .failed }
  s.logEv 0x0302 0x3FE result (BitVec.ofNat 64 failProc) 0

/-- Step 6 of R421 for one processor: the state with its slot, or none where both slots fail. -/
def State.bootSlot (s : State) (m : List Byte) (p : Nat) : Option State :=
  let a := s.activeSlot p 0
  if s.slotOk m p a then some s
  else if s.slotOk m p (1 - a) then
    let s := if p < 3 then s.setSlotOf p 0 (1 - a) else (List.range 128).foldl (fun s n => s.setSlotOf 3 n (1 - a)) s
    let s := (s.put secBoot_FALLBACK (s.get secBoot_FALLBACK ||| 2 ^ p)).modSec fun c => { c with fallbackAtBoot := true }
    some (s.logEv 0x0303 0x3FE p (BitVec.ofNat 64 (1 - a)) 0)
  else none

/-- Step 6 of R421 from processor `p` on: the state, and the processor that failed. -/
def State.bootSlots (s : State) (m : List Byte) : Nat → Nat → State × Option Nat
  | 0, _ => (s, none)
  | n + 1, p =>
    match s.bootSlot m p with
    | some t => t.bootSlots m n (p + 1)
    | none => (s, some p)

/-! ## Topology and settings (R257, R283, R284, R473, R478) -/

/-- The topology table that the image gives: the fallback where the region is invalid. -/
def State.bootTopo (s : State) : Topo := (topoOf (s.image 0x140000 64)).getD Topo.fallback

/-- The cube that the settings layer gives: that of the last CUBE record which is not refused. -/
def State.bootCube (s : State) : Nat :=
  if !s.layerOk then 0
  else s.layerRecords.foldl (fun c r =>
    let f := fun (lo : Nat) => bitsOf r.2.1 lo 8
    if bitsOf r.1 0 4 = 2 && f 0 ≤ 7 && f 8 ≤ 7 && f 16 ≤ 3 then f 0 + 8 * f 8 + 64 * f 16 else c) 0

/-- The factory defaults that depend on the module's place: ROUTE.SVC is open on a bridge module, and ROUTE.PERMIT0 names the bridge
module of this cube (R283, R284). -/
def State.routeDefaults (s : State) : State :=
  let u := { s with topo := s.bootTopo }.modPwr fun p => { p with cube := s.bootCube }
  let b := u.isBridge.toNat
  let s := (s.put routeSvc_SV0_OPEN b).put routeSvc_SV1_OPEN b
  let s := ((s.put (routePermit_VALID 0) 1).put (routePermit_MGMT 0) 1).put (routePermit_MEM 0) 1
  s.put (routePermit_BRIDGE 0) (u.derive u.topo.bridgeSlot)

/-- The processors released at the end of SEC's boot (R421). -/
def bootProcs : List Proc := [.pwr, .sch] ++ (List.range 128).map fun n => .ccc (Fin.ofNat 128 n)

/-- PWR and SCH start (R445, R454, R458): the tolerance is 0.1 µs, the last trip is shown, and the image's settings and calibration
are loaded. -/
def State.pwrStart (s : State) : State :=
  let s := s.put pwrTol_TOL 100
  let s := if s.power.trip then (s.put pwrStatus_LAST_TRIP 1).logEv 0x0206 0x3FE 0 0 0 else s
  let s := s.modPwr fun p => { p with trip := false, phase := .training }
  s.emReplay.routeDefaults.applySettings.loadCalibration

/-- Step 7 of R421: KEY and the AK are drawn, and the processors are released. -/
def State.bootRelease (s : State) : State :=
  let k := s.draw 64
  let s := { k.2 with hbmKey := k.1 }.makeAk
  let s := bootProcs.foldl (fun s p => s.setProc p ⟨.running, []⟩) s
  ((s.put secBoot_RESULT 0).put secBoot_DONE 1).pwrStart

/-! ## From cleared memory to the links (R370, R458) -/

/-- All memory and the SRAMs of R363 are zero. -/
def State.clearAllMemory (s : State) : State :=
  { s with mem := [], memErr := [], poolMem := [], cellErr := [] }

/-- Route bank A: the image's tables, or standard entries (R272, R478). -/
def State.bootBank (s : State) : State :=
  let s := match s.routesFromImage false with
    | some t => t.put imgBoot_VALID (t.get imgBoot_VALID ||| 64)
    | none => s.loadBank false s.stdBank none
  s.setBankState false bkACTIVE

/-- The topology table and the derived coordinate (R257, R478). -/
def State.bootPlace (s : State) : State :=
  let t := s.bootTopo
  let s := if t.valid then s.put imgBoot_VALID (s.get imgBoot_VALID ||| 16) else s
  let s := s.setTopo t
  (((s.put routeCoord_COORD (s.derive s.power.slotId.toNat)).put routeCoord_ASSIGNED 0).loadExpect).coneReview

/-- The links are released from DARK. -/
def State.releaseLinks (s : State) : State :=
  (List.range 14).foldl (fun s i => if s.lnk i = lkDARK then s.enterDark i else s)
    (s.modPwr fun p => { p with phase := .links, linksAt := s.now })

/-- Once memory is cleared and the self-tests have ended: routes, access tables and topology are loaded, and the links released. -/
def State.bootCleared (s : State) : State :=
  if s.power.phase = .clearing && s.power.cleared && s.power.tested then (s.bootPlace.bootBank.accLoad []).releaseLinks else s

end Sys2Proof.Machine
end

