-- ==== Sys2Proof/Machine/SchFrame.lean ====
section
/-!
DEFINITION. Machine/SchFrame.lean: how SCH picks, checks and ends a command (R397, R398).
-/
namespace Sys2Proof.Machine

/-- What a command's effect comes to: it completes with a CODE and a RESULT, or goes on, with `next` once it stands in progress. -/
inductive CmdEnd where
  | fin (s : State) (code : Nat) (res : W64)
  | run (s : State) (kind : RunKind) (next : State → State := id)

/-! ## Checks (R397) -/

/-- The clusters of the mask in words `k` and `k + 1`. -/
def Cmd.mask (c : Cmd) (k : Nat) : List Nat := maskList (c.word k) (c.word (k + 1))

/-- A 48-bit address in word `k`. -/
def Cmd.addr (c : Cmd) (k : Nat) : Nat := bitsOf (c.word k) 0 48

/-- Whether an address lies in HBM. -/
def inHbm (a : Nat) : Bool := decide (a < 0x8000000000)

/-- Whether [a, a + n) lies in HBM. -/
def spanHbm (a n : Nat) : Bool := decide (a + n ≤ 0x8000000000)

/-- NROWS of a BIND_STEP. -/
def Cmd.nrows (c : Cmd) : Nat := bitsOf (c.word 2) 48 15

/-- TCLR of a BIND_STEP. -/
def Cmd.tclr (c : Cmd) : Bool := (c.word 2).getLsbD 63

/-- Check 2 of R397: parameters that are invalid in every state. -/
def State.badParam (s : State) (c : Cmd) : Bool :=
  (c.statusAddr ≠ 0 && !statusAddrOk c.statusAddr) ||
    (match c.op with
    | 0x01 => bitsOf (c.word 1) 0 12 = 0 || 0xFFD < bitsOf (c.word 1) 0 12 || !inHbm (c.addr 2)
    | 0x0D => (match bitsOf (c.word 1) 0 2 with
      | 0 => !inHbm (c.addr 2)
      | 2 => (List.range 3).any fun a => decide (s.extent a < s.boxSize a)
      | _ => false)
    | 0x12 => ((c.word 1).getLsbD 1 && bitsOf (c.word 2) 8 2 = 3) || ((c.word 1).getLsbD 2 && decide (6000 < bitsOf (c.word 3) 0 16))
    | 0x13 => 16384 < c.nrows || (c.nrows ≠ 0 && (c.addr 2 % 64 ≠ 0 || !spanHbm (c.addr 2) (64 * c.nrows)))
        || (c.addr 3 ≠ 0 && (c.addr 3 % 32 ≠ 0 || !inHbm (c.addr 3)))
    | _ => false)

/-- Check 3 of R397: the states in which a command is legal. -/
def Cmd.legal (c : Cmd) (st : Nat) : Bool :=
  match c.op with
  | 0x01 => st = mREADY
  | 0x02 | 0x03 | 0x0C => st = mBOUND
  | 0x04 | 0x05 | 0x13 => st = mBOUND || st = mRUNNING
  | 0x06 => st = mRUNNING
  | 0x07 => st = mRUNNING || st = mPAUSED
  | 0x08 | 0x0B => mBOUND ≤ st && st ≤ mPAUSED
  | 0x09 => mREADY ≤ st && st ≤ mRESTORING
  | 0x0A => st = mFENCED
  | 0x0D | 0x0E | 0x11 => mREADY ≤ st
  | 0x10 => if bitsOf (c.word 1) 0 2 = 0 then st = mREADY || st = mFENCED else mREADY ≤ st
  | 0x12 => (mREADY ≤ st && st ≤ mPAUSED) || st = mFENCED
  | 0x15 => if bitsOf (c.word 1) 0 4 = 0 then mBOUND ≤ st && st ≤ mPAUSED else (mREADY ≤ st && st ≤ mPAUSED) || st = mFENCED
  | 0x16 => st = mREADY || st = mFENCED
  | _ => mBOOTING ≤ st

/-- A command's checks up to the state table, and then its effect. -/
def State.checked (s : State) (c : Cmd) (body : State → Cmd → CmdEnd) : CmdEnd :=
  if !s.mayExecute c then .fin s eACCESS 0
  else if s.badParam c then .fin s ePARAM 0
  else if !c.legal s.mstate then .fin s eSTATE 0
  else body s c

/-! ## Taking commands (R398) -/

/-- Whether an image operation runs (R471). -/
def State.imgRunning (s : State) : Bool := match s.img with | some o => !o.held | none => false

/-- Whether a command stays at its queue's head. Every command but HEARTBEAT waits under a STOP (R405); a state-changing one while
another is in progress, a BIND_STEP under a hold (R392), a SNAPSHOT while one closes (R311), a provenance
request while the engine hashes, and what SEC verifies or fuses while an
image operation runs (R471). -/
def State.cmdWaits (s : State) (c : Cmd) : Bool :=
  (s.orphanStop && c.op ≠ 0x17) || (stateChanging c.op && s.runs.any fun r => stateChanging r.op) || (c.op = 0x13 && s.holds ≠ 0)
    || (c.op = 0x0B && s.closingRun.isSome) || (c.op = 0x15 && bitsOf (c.word 1) 0 4 = 0 && s.flag digProv_BUSY)
    || (s.imgRunning && ((c.op = 0x10 && !s.flag sysState_EMERG) || (c.op = 0x16 && (c.word 1).getLsbD 0)))

/-- Whether SCH can take a queue's head. -/
def State.canTake (s : State) (q : Nat) : Bool :=
  !s.inRun q && (match s.queue q with | c :: _ => !s.cmdWaits c | [] => false)

/-- The queue that SCH serves next: FENCE ahead of every queue, then round robin after the one last served. -/
def State.schPick (s : State) : Option Nat :=
  if !s.schTakes then none
  else
    let cand := ((List.range 64).map fun k => (s.rrq + 1 + k) % 64).filter s.canTake
    match cand.find? fun q => (match s.queue q with | c :: _ => c.op == 0x09 | [] => false) with
    | some q => some q
    | none => cand.head?

/-- A command ends or goes on. -/
def CmdEnd.settle (e : CmdEnd) (q op : Nat) : State :=
  match e with
  | .fin s code res => s.finishCmd q code res
  | .run s k next => next { s with runs := s.runs.filter (·.q ≠ q) ++ [⟨q, op, k⟩] }

/-- The frame of a command's row: SCH takes it where it is the next one and is the row's command. -/
def schRow (q : Fin 64) (want : Cmd → Bool) (body : State → Cmd → CmdEnd) (s : State) : Host.Outcome State Fault Refusal :=
  match s.schPick, s.queue q with
  | some k, c :: _ =>
    if k = q.val && want c then
      let s := { s with rrq := q.val }
      done ((s.checked c body).settle q c.op).schReady
    else .next s
  | _, _ => .next s

/-! ## Accesses for a command (R505) -/

/-- Reads [a, a + n) for a command: the state, the status and the bytes. -/
def State.cmdRead (s : State) (mid a n : Nat) : State × Nat × List Byte :=
  let r := s.memRead mid a n
  (r.1, statusOf r.2.1, r.2.2.2)

/-- Writes for a command: the state and the status. -/
def State.cmdWrite (s : State) (mid a : Nat) (b : List Byte) : State × Nat :=
  let r := s.memWrite mid a b
  (r.1, statusOf r.2.1)

/-- A read that a command's further effect needs. -/
def State.cmdReadThen (s : State) (mid a n : Nat) (f : State → List Byte → CmdEnd) : CmdEnd :=
  let r := s.cmdRead mid a n
  if r.2.1 = eOK then f r.1 r.2.2 else .fin r.1 r.2.1 0

/-- A write that a command's further effect needs. -/
def State.cmdWriteThen (s : State) (mid a : Nat) (b : List Byte) (f : State → CmdEnd) : CmdEnd :=
  let r := s.cmdWrite mid a b
  if r.2 = eOK then f r.1 else .fin r.1 r.2 0

/-- The run in progress at a queue's head. -/
def State.runAt (s : State) (q : Nat) : Option Run := s.runs.find? (·.q == q)

/-- A run that ends: its command completes, and SCH looks at its queues again. -/
def State.endRun (s : State) (q code : Nat) (res : W64) : State := (s.finishCmd q code res).schReady

end Sys2Proof.Machine
end

