-- ==== Sys2Proof/Machine/SchJob.lean ====
section
/-!
DEFINITION. Machine/SchJob.lean: the commands that bind and unbind a job, load programs, and start, pause and stop clusters (R395-R397).
-/
namespace Sys2Proof.Machine

/-! ## BIND (R308, R314, R378) -/

/-- The mirror binding of 64 bytes; none where HALF is 0, or the status block or the ward region lies outside HBM. -/
def bindingOf (b : List Byte) : Option MirrorBind :=
  let l := words64 b
  let w := fun (k : Nat) => l.getD k 0
  let m : MirrorBind := {
    buddy := bitsOf (w 0) 0 14
    en := (w 0).getLsbD 14
    ward := bitsOf (w 0) 16 14
    wardEn := (w 0).getLsbD 30
    buddyBase := bitsOf (w 1) 12 36 * 4096
    wardBase := bitsOf (w 2) 12 36 * 4096
    half := bitsOf (w 3) 0 27
    statusAddr := bitsOf (w 4) 6 42 * 64 }
  if m.half = 0 || !spanHbm m.statusAddr 64 || (m.wardEn && !spanHbm m.wardBase (2 * m.halfBytes)) then none else some m

/-- The cube of a coordinate (R314). -/
def cubeOf (c : Nat) : Nat × Nat × Nat := (axisOf c 0 / 4, axisOf c 1 / 4, axisOf c 2 / 4)

/-- BUDDY_WARN (R314). -/
def State.buddyWarn (s : State) (b : MirrorBind) : State :=
  let w := (cubeOf b.buddy == cubeOf s.coord).toNat + 2 * (!s.isMember b.buddy).toNat
  if b.en && w ≠ 0 then s.faultLocal 0x09 0x122 (BitVec.ofNat 64 w) 0 0 else s

/-- BIND's effect, once everything that it names is valid (R397). -/
def State.bindJob (s : State) (slice : Nat) (l : List (W64 × W64)) (m : Option MirrorBind) : State :=
  let s := (s.put routeSlice_SLICE slice).sendIdents.accLoad l
  let s := { s with mirror := { MirrorEng.reset with bind := m } }.mirrorStatus
  let s := (s.wr klnTimer s.imgTimer).wr klnCtxAllow s.imgAllow
  let s := match m with | some b => s.buddyWarn b | none => s
  s.setMstate mBOUND 0x01

/-- BIND: the access image and the mirror binding are read and checked whole before anything changes. -/
def bindBody (s : State) (c : Cmd) : CmdEnd :=
  s.cmdReadThen 0x122 (c.addr 2) 32 fun s h =>
    let n := tokField h 6 2
    if tokField h 0 4 ≠ 0x53434341 || tokField h 4 2 ≠ 1 || 4096 < n then .fin s ePARAM 0
    else s.cmdReadThen 0x122 (c.addr 2 + 32) (16 * n) fun s b =>
      let l := accRecords b n
      if tokField h 8 4 ≠ (crc32c b).toNat || !(l.all fun r => accRecordOk r.1 r.2) then .fin s ePARAM 0
      else
        let slice := bitsOf (c.word 1) 0 12
        if c.addr 3 = 0 then .fin (s.bindJob slice l none) eOK 0
        else s.cmdReadThen 0x122 (c.addr 3) 64 fun s m =>
          match bindingOf m with
          | some m => .fin (s.bindJob slice l (some m)) eOK 0
          | none => .fin s ePARAM 0

/-- BIND. -/
def execBind (q : Fin 64) (s : State) : Host.Outcome State Fault Refusal := schRow q (·.op == 0x01) bindBody s

/-! ## UNBIND, UNFENCE and memory clearing (R370, R386, R397) -/

/-- UNBIND up to the clearing of memory. -/
def State.unbindJob (s : State) : State :=
  let s := (List.range 128).foldl State.cancelCluster s
  let s := (s.put routeSlice_SLICE 0).sendIdents
  { s with mirror := MirrorEng.reset }.put apcCtrl_RUN 0

/-- UNBIND: it completes at MEMORY_CLEAR_DONE. -/
def execUnbind (q : Fin 64) (s : State) : Host.Outcome State Fault Refusal :=
  schRow q (·.op == 0x02) (fun s _ => .run s.unbindJob (.clearing false)) s

/-- UNFENCE: it completes at MEMORY_CLEAR_DONE. -/
def execUnfence (q : Fin 64) (s : State) : Host.Outcome State Fault Refusal :=
  schRow q (·.op == 0x0A) (fun s _ => .run s.unbindJob (.clearing true)) s

/-- Memory is zero but for the log ring (R370). -/
def State.clearJobMemory (s : State) : State :=
  let log := s.get logBase_BASE * 2 ^ 24
  let s := (s.zeroRange 0 log).zeroRange (log + 2 ^ 24) 0x8000000000
  (List.range 128).foldl (fun s n => s.zeroRange (storeAddr n 0) (storeAddr n storeSize)) s

/-- Restarts the CCCs and the PWR that are in FW_FAULT, their counts cleared (R386). -/
def State.restartFaulted (s : State) : State :=
  { s with procs := s.procs.map fun e =>
      if e.2.st = .fwFault && (e.1 = 1 || 3 ≤ e.1) then (e.1, ⟨.restarting, []⟩) else e }

/-- UNBIND or UNFENCE ends. What the self-test of an UNFENCE finds is a free value (log entry 11). -/
def State.cleared (s : State) (q : Nat) (unfence : Bool) : State :=
  let s := s.clearJobMemory.accLoad []
  if unfence then
    let r := s.fresh 1
    if r.1 = 0 then r.2.endRun q eFAULT 0
    else ((r.2.restartFaulted.setMstate mREADY 0x0A).endRun q eOK 0)
  else (s.setMstate mREADY 0x02).endRun q eOK 0

/-- MEMORY_CLEAR_DONE (R370): at boot, and for UNBIND and UNFENCE. -/
def execMemoryClearDone (s : State) : Host.Outcome State Fault Refusal :=
  if s.power.phase = .clearing then .next (s.clearAllMemory.modPwr fun p => { p with cleared := true }).bootCleared
  else match s.runs.findSome? fun r => match r.kind with | .clearing u => some (r.q, u) | _ => none with
    | some (q, u) => done (s.cleared q u)
    | none => .next s

/-! ## LOAD_PROGRAM (R396) -/

/-- The program that a load descriptor names: SRC, LEN and DEST. -/
def progOf (d : List W64) : Nat × Nat × Nat := (bitsOf (d.getD 0 0) 0 48, bitsOf (d.getD 1 0) 0 32, bitsOf (d.getD 1 0) 32 23)

/-- LOAD_PROGRAM: the descriptor is read and checked; the copy ends at PROGRAM_COPY_DONE. -/
def loadBody (s : State) (c : Cmd) : CmdEnd :=
  s.cmdReadThen 0x122 (c.addr 1) 64 fun s b =>
    let d := words64 b
    let p := progOf d
    if storeSize < p.2.2 + p.2.1 || p.2.2 % 8 ≠ 0 || !spanHbm p.1 p.2.1
        || (c.mask 2).any (fun n => s.clSt n ≠ clIDLE && s.clSt n ≠ clHALTED) then .fin s ePARAM 0
    else .run s (.copying d)

/-- LOAD_PROGRAM. -/
def execLoadProgram (q : Fin 64) (s : State) : Host.Outcome State Fault Refusal := schRow q (·.op == 0x03) loadBody s

/-- The engine copy: the state and the status; earlier copies stand where one fails (R505). -/
def State.copyProgram (s : State) (c : Cmd) (d : List W64) : State × Nat :=
  let p := progOf d
  let r := s.cmdRead 0x122 p.1 p.2.1
  if r.2.1 ≠ eOK then (r.1, r.2.1)
  else (c.mask 2).foldl (fun (x : State × Nat) n =>
    if x.2 = eOK then x.1.cmdWrite 0x122 (storeAddr n p.2.2) r.2.2 else x) (r.1, eOK)

/-- What LOAD_PROGRAM sets after the copy. -/
def State.programLoaded (s : State) (c : Cmd) (d : List W64) : State :=
  let w := fun (k : Nat) => d.getD k 0
  let s := (c.mask 2).foldl (fun s n =>
    let s := (s.put (clCtrl_ENTRY n) (bitsOf (w 2) 0 23)).wr (clSeed n) (w 3)
    let s := (List.range 64).foldl (fun s p => if (s.plan n p).isSome then s.releasePlan n p else s) s
    { s with poisoned := s.poisoned.filter fun e => e.1 / 64 ≠ n }) s
  let s := (s.wr digSeed (w 4)).put klnLandBase_BASE (bitsOf (w 5) 12 36)
  (s.put klnLandSize_BLOCKS (bitsOf (w 6) 0 28)).put klnTouchBase_BASE (bitsOf (w 7) 12 36)

/-- PROGRAM_COPY_DONE (R388, R396). -/
def execProgramCopyDone (s : State) : Host.Outcome State Fault Refusal :=
  match s.runs.findSome? fun r => match r.kind with | .copying d => some (r.q, d) | _ => none with
  | some (q, d) =>
    (match s.queue q with
      | c :: _ =>
        let r := s.copyProgram c d
        done (if r.2 = eOK then (r.1.programLoaded c d).endRun q eOK 0 else r.1.endRun q r.2 0)
      | [] => .next s)
  | none => .next s

/-! ## Starting, pausing and stopping (R150, R338, R395, R397) -/

/-- The module is RUNNING with these clusters among the started ones. -/
def State.enterRun (s : State) (cmd : Nat) (l : List Nat) : State :=
  let old := if s.mstate = mBOUND then [] else s.started
  { s.setMstate mRUNNING cmd with started := old ++ l.filter fun n => !old.contains n }

/-- START. -/
def execStart (q : Fin 64) (s : State) : Host.Outcome State Fault Refusal :=
  schRow q (·.op == 0x04) (fun s c => .fin ((s.enterRun 0x04 (c.mask 1)).clCommands ccSTART (c.mask 1)).autoState eOK 0) s

/-- START_AT: a free alarm of 0-5. -/
def startAtBody (s : State) (c : Cmd) : CmdEnd :=
  match (List.range 6).find? fun k => !s.flag (coneAlarmCtrl_EN k) with
  | some k => .fin ((s.enterRun 0x05 (c.mask 1)).setAlarm k 1 (c.word 3) (c.word 1) (c.word 2)).autoState eOK (BitVec.ofNat 64 k)
  | none => .fin s eBUSY 0

/-- START_AT. -/
def execStartAt (q : Fin 64) (s : State) : Host.Outcome State Fault Refusal := schRow q (·.op == 0x05) startAtBody s

/-- PAUSE: the count goes to every cluster. -/
def execPause (q : Fin 64) (s : State) : Host.Outcome State Fault Refusal :=
  schRow q (·.op == 0x06) (fun s c =>
    .fin ((List.range 128).foldl (fun s n => (s.wr (clPauseAt n) (c.word 1)).put (clCtrl_PAT_EN n) 1) s) eOK 0) s

/-- MODE of a RESUME. -/
def Cmd.mode (c : Cmd) : Nat := bitsOf (c.word 1) 0 2

/-- A RESUME in PAUSED leaves it: RUNNING after paused clusters were resumed, BOUND when none is paused. -/
def State.leavePaused (s : State) (resumed : Bool) : State :=
  if s.mstate ≠ mPAUSED then s.autoState
  else if resumed then (s.setMstate mRUNNING 0x07).autoState
  else if s.clustersIn [0, 1, 2, 4] then (s.setMstate mBOUND 0x07).autoState
  else s

/-- RESUME, mode 0: paused clusters resume and fault pending is cleared. -/
def execResume (q : Fin 64) (s : State) : Host.Outcome State Fault Refusal :=
  schRow q (fun c => c.op == 0x07 && c.mode == 0) (fun s _ =>
    let l := (List.range 128).filter fun n => s.clSt n = clPAUSED
    .fin (((s.put sysState_FPEND 0).clCommands ccRESUME l).leavePaused (!l.isEmpty)) eOK (BitVec.ofNat 64 l.length)) s

/-- Modes 1 to 3 of RESUME: a command to the clusters of the mask that are in EXCEPTION. -/
def resumeMode (m cmd : Nat) (q : Fin 64) (s : State) : Host.Outcome State Fault Refusal :=
  schRow q (fun c => c.op == 0x07 && c.mode == m) (fun s c =>
    let l := (c.mask 2).filter fun n => s.clSt n = clEXCEPTION
    .fin ((s.clCommands cmd l).leavePaused false) eOK (BitVec.ofNat 64 l.length)) s

/-- RESUME, mode 1. -/
def execResumeClusters (q : Fin 64) (s : State) : Host.Outcome State Fault Refusal := resumeMode 1 ccRESUME q s

/-- RESUME, mode 2. -/
def execSkipClusters (q : Fin 64) (s : State) : Host.Outcome State Fault Refusal := resumeMode 2 ccSKIP q s

/-- RESUME, mode 3. -/
def execStopClusters (q : Fin 64) (s : State) : Host.Outcome State Fault Refusal := resumeMode 3 ccSTOP q s

/-- DRAIN: alarm 7 carries it out (log entry 35). -/
def drainBody (s : State) (c : Cmd) : CmdEnd :=
  if s.flag (coneAlarmCtrl_EN 7) then .fin s eBUSY 0
  else
    let s := s.put sysState_FPEND 0
    let s := if s.mstate = mBOUND then s else s.setMstate mDRAINING 0x08
    .fin (s.setAlarm 7 0 (c.word 1) 0 0).autoState eOK 0

/-- DRAIN. -/
def execDrain (q : Fin 64) (s : State) : Host.Outcome State Fault Refusal := schRow q (·.op == 0x08) drainBody s

/-- FENCE (R307). -/
def execFence (q : Fin 64) (s : State) : Host.Outcome State Fault Refusal :=
  schRow q (·.op == 0x09) (fun s _ => .fin (s.fenceModule 4 0 0x09) eOK 0) s

/-! ## SNAPSHOT and RESTORE (R311, R315) -/

/-- SNAPSHOT: GEN advances and the generation in front is closed; it completes when its header is acknowledged. Without a binding that
mirrors there is none to close: E_PARAM. -/
def snapshotBody (s : State) (c : Cmd) : CmdEnd :=
  match s.mirror.bind with
  | some b =>
    if !b.en then .fin s ePARAM 0
    else .run s (.snapshot (c.word 1) s.mirror.gen) fun s =>
      ((s.modMirror fun m => { m with gen := m.gen + 1, closing := true }).mirrorStatus).mirrorAdvance
  | none => .fin s ePARAM 0

/-- SNAPSHOT. -/
def execSnapshot (q : Fin 64) (s : State) : Host.Outcome State Fault Refusal := schRow q (·.op == 0x0B) snapshotBody s

/-- RESTORE: the window opens and RESTORE_REQ goes to the buddy. Without a binding: E_PARAM. -/
def restoreBody (s : State) (c : Cmd) : CmdEnd :=
  match s.mirror.bind with
  | some b => .run s .restoring fun s =>
    let d := c.addr 2
    let s := (s.put sysState_FPEND 0).setMstate mRESTORING 0x0C
    let s := s.modMirror fun m => { m with
      window := some (d, (c.word 3).toNat)
      windowStep := c.word 1
      windowAt := s.now
      windowBytes := 0 }
    let f := s.fault 0x0A 0 0x132 s.coord (s.get routeSlice_SLICE) 15 0 (c.word 1) (BitVec.ofNat 64 d) (c.word 3)
    f.2.sendNote b.buddy f.1
  | none => .fin s ePARAM 0

/-- RESTORE. -/
def execRestore (q : Fin 64) (s : State) : Host.Outcome State Fault Refusal := schRow q (·.op == 0x0C) restoreBody s

end Sys2Proof.Machine
end

