-- ==== Sys2Proof/Machine/SchRoutes.lean ====
section
/-!
DEFINITION. Machine/SchRoutes.lean: the commands for routes and links, the tolerance, the policies, the log and the heartbeat (R262, R273, R274,
R397, R404, R405, R412, R445).
-/
namespace Sys2Proof.Machine

/-! ## Routes (R262, R273, R274, R478) -/

/-- BANK of a SET_ROUTES. -/
def Cmd.bank (c : Cmd) : Bool := (c.word 1).getLsbD 8

/-- The frame of SET_ROUTES: E_STATE for a bank that is ACTIVE or DRAINING; a loaded bank's CRC is the RESULT. -/
def routesBody (load : State → Cmd → (State → CmdEnd) → CmdEnd) (s : State) (c : Cmd) : CmdEnd :=
  if !s.bankOpen c.bank then .fin s eSTATE 0
  else load s c fun s => .fin s eOK (BitVec.ofNat 64 (s.bankCrc c.bank).toNat)

/-- Whether a command is SET_ROUTES from a source. -/
def isSetRoutes (source : Nat) (c : Cmd) : Bool := c.op == 0x0D && bitsOf (c.word 1) 0 2 == source

/-- SET_ROUTES from HBM: a table with a reserved encoding in an entry is refused (R11; log entry 124). -/
def execSetRoutesHbm (q : Fin 64) (s : State) : Host.Outcome State Fault Refusal :=
  schRow q (isSetRoutes 0) (routesBody fun s c ok =>
    s.cmdReadThen 0x122 (c.addr 2) 131080 fun s b =>
      if someReserved b 16384 then .fin s ePARAM 0
      else ok (s.loadBank c.bank (entriesOf b 0 16384) (some (BitVec.ofNat 64 (natLE (b.drop 131072)))))) s

/-- SET_ROUTES from the image: an invalid region gives E_FAULT and is logged. -/
def execSetRoutesImage (q : Fin 64) (s : State) : Host.Outcome State Fault Refusal :=
  schRow q (isSetRoutes 1) (routesBody fun s c ok =>
    s.cmdReadThen 0x122 0x0E0000160000 131088 fun s _ =>
      match s.routesFromImage c.bank with
      | some t => ok t
      | none => .fin (s.regionInvalid 7 0) eFAULT 0) s

/-- SET_ROUTES from the box: the bank keeps its key. -/
def execSetRoutesBox (q : Fin 64) (s : State) : Host.Outcome State Fault Refusal :=
  schRow q (isSetRoutes 2) (routesBody fun s c ok => ok (s.loadBank c.bank s.stdBank none)) s

/-- FLIP_EPOCH: refused while the inactive bank is not LOADED or a flip is pending; late, it takes effect at once. -/
def flipBody (s : State) (c : Cmd) : CmdEnd :=
  if s.bankState (!s.flag routeBank_ACTIVE) ≠ bkLOADED || s.flag routeBank_FLIP_PEND then .fin s eSTATE 0
  else
    let s := s.wr routeFlipAt (c.word 1)
    if (c.word 1).toNat ≤ s.now then .fin ((s.logEv 0x0601 0x3FE 0 (c.word 1) s.cone).flip) eOK 0
    else .fin ((s.put routeBank_FLIP_PEND 1).setAlarm 6 2 (c.word 1) 0 0) eOK 0

/-- FLIP_EPOCH. -/
def execFlipEpoch (q : Fin 64) (s : State) : Host.Outcome State Fault Refusal := schRow q (·.op == 0x0E) flipBody s

/-! ## Links (R206) -/

/-- ACCEPT_OBSERVED: the links of the mask that are MISWIRED or INCOMPATIBLE; the RESULT is the mask of those accepted. -/
def execAcceptObserved (q : Fin 64) (s : State) : Host.Outcome State Fault Refusal :=
  schRow q (·.op == 0x0F) (fun s c =>
    let l := (List.range 14).filter fun i => (c.word 1).getLsbD i && (s.lnk i = lkMISWIRED || s.flag (lnkStatus_INCOMPATIBLE i))
    .fin (l.foldl State.acceptObserved s) eOK (BitVec.ofNat 64 (l.foldl (fun m i => m + 2 ^ i) 0))) s

/-! ## The tolerance (R445) -/

/-- The exit latency in ns of a cluster's power state. -/
def clExit (st : Nat) : Nat := if st = 1 then 50 else 15000

/-- The exit latency in ns of a stack's state: power-down 2, self-refresh 3. -/
def stackExit (st : Nat) : Nat := if st = 2 then 500 else 10000

/-- A gated cluster becomes active; a START that waited for it takes effect (R446). -/
def State.clActive (s : State) (n : Nat) : State :=
  let t := (s.wakeCl n).modPwr fun p =>
    { p with
      startWait := p.startWait.filter (· ≠ n)
      waking := p.waking.filter fun u => match u with | .cluster m => m.val ≠ n | _ => true }
  if s.power.startWait.contains n then t.clCommand 0x122 n ccSTART else t

/-- Units in a state that is no longer enabled exit. -/
def State.exitUnits (s : State) : State :=
  let s := (List.range 128).foldl (fun s n =>
    let st := s.get (pwrCl_STATE n)
    if st = 0 || s.allows (clExit st) then s else s.clActive n) s
  let s := (List.range 8).foldl (fun s k =>
    let st := s.get (hbmStatus_STATE k)
    if (st = 2 || st = 3) && !s.allows (stackExit st) then s.wakeStack k else s) s
  if s.allows 100 then s else (List.range 14).foldl (fun s i => s.modLink i fun l => { l with idle := false }) s

/-- The tolerance in ns of a number of µs; all ones is no limit. -/
def tolNs (us : Nat) : Nat := min (us * 1000) 0xFFFFFFFF

/-- SET_LATENCY_TOL. -/
def execSetLatencyTol (q : Fin 64) (s : State) : Host.Outcome State Fault Refusal :=
  schRow q (·.op == 0x11) (fun s c => .fin (s.put pwrTol_TOL (tolNs (bitsOf (c.word 1) 0 32))).exitUnits eOK 0) s

/-! ## Policies (R339, R397, R427) -/

/-- What SET_POLICY writes once its checks have passed. -/
def State.setPolicy (s : State) (c : Cmd) : State :=
  let m := c.word 1
  let s := if m.getLsbD 0 then s.put digDet_DETERMINISTIC (bitsOf (c.word 2) 0 1) else s
  let s := if m.getLsbD 1 then s.put sysPolicy_ORPHAN (bitsOf (c.word 2) 8 2) else s
  let s := if m.getLsbD 2 then s.put sysPolicy_HB_TMO (bitsOf (c.word 3) 0 16) else s
  if m.getLsbD 3 then s.put sysExpertEn_EN (bitsOf (c.word 4) 0 8) else s

/-- SET_POLICY: DET under R339, and EXPERT under a token of the owner. -/
def policyBody (s : State) (c : Cmd) : CmdEnd :=
  if (c.word 1).getLsbD 0 && !s.detFree then .fin s eSTATE 0
  else if (c.word 1).getLsbD 3 then
    if !s.secServes then .fin s eFAULT 0
    else s.cmdReadThen 0x120 (c.addr 5) 256 fun s b =>
      let r := s.checkToken b 1 (bitsOf (c.word 4) 0 8)
      if r.1 then .fin (r.2.setPolicy c) eOK 0 else .fin r.2 eAUTH 0
  else .fin (s.setPolicy c) eOK 0

/-- SET_POLICY. -/
def execSetPolicy (q : Fin 64) (s : State) : Host.Outcome State Fault Refusal := schRow q (·.op == 0x12) policyBody s

/-! ## The log (R318, R412) -/

/-- READ_LOG, kind 0: the recovery counters, which the read clears. -/
def execReadLogCounters (q : Fin 64) (s : State) : Host.Outcome State Fault Refusal :=
  schRow q (fun c => c.op == 0x14 && bitsOf (c.word 1) 0 2 == 0) (fun s c =>
    s.cmdWriteThen 0x122 (c.addr 2) (wordsBytes ((List.range 8).map fun k => BitVec.ofNat 64 (s.recov.get 0 k))) fun s =>
      .fin { s with recov := [] } eOK 64) s

/-- READ_LOG, kind 1: records of the log ring, from an index modulo 524,288. -/
def execReadLogRecords (q : Fin 64) (s : State) : Host.Outcome State Fault Refusal :=
  schRow q (fun c => c.op == 0x14 && bitsOf (c.word 1) 0 2 == 1) (fun s c =>
    let n := (c.word 4).toNat
    if 2 ^ 43 < n then .fin s ePARAM 0
    else
      let at_ := fun (k : Nat) => s.get logBase_BASE * 2 ^ 24 + ((c.word 3).toNat + k) % 524288 * 32
      let r := (List.range n).foldl (fun (x : State × Nat × List Byte) k =>
        if x.2.1 ≠ eOK then x
        else
          let r := x.1.cmdRead 0x122 (at_ k) 32
          (r.1, r.2.1, x.2.2 ++ r.2.2)) (s, eOK, [])
      if r.2.1 ≠ eOK then .fin r.1 r.2.1 0
      else r.1.cmdWriteThen 0x122 (c.addr 2) r.2.2 fun s => .fin s eOK (BitVec.ofNat 64 (32 * n))) s

/-! ## The heartbeat (R404, R405) -/

/-- HEARTBEAT restarts the timer and ends ORPHANED. -/
def execHeartbeat (q : Fin 64) (s : State) : Host.Outcome State Fault Refusal :=
  schRow q (·.op == 0x17) (fun s _ =>
    .fin ({ s with hbAt := s.cone, orphanStop := false }.put sysState_ORPH 0) eOK s.cone) s

/-- The orphan policy acts in BOUND, RUNNING and PAUSED (R405). -/
def State.orphaned (s : State) : State :=
  if s.mstate < mBOUND || mPAUSED < s.mstate then s
  else match s.get sysPolicy_ORPHAN with
    | 0 => s.autoState
    | 1 => { s.stopAll.setMstate mBOUND with orphanStop := true }
    | _ => s

/-- HEARTBEAT_TIMEOUT (R404): ORPHANED is set and logged with the heartbeat's age. -/
def execHeartbeatTimeout (s : State) : Host.Outcome State Fault Refusal :=
  let tmo := s.get sysPolicy_HB_TMO * 100000000
  if mREADY ≤ s.mstate && s.procRuns .sch && tmo ≠ 0 && s.hbAt.toNat + tmo ≤ s.now && !s.flag sysState_ORPH then
    done ((s.put sysState_ORPH 1).logEv 0x0005 0x3FE 0 (s.cone - s.hbAt) 0).orphaned
  else .next s

end Sys2Proof.Machine
end

