-- ==== Sys2Proof/Machine/StepBind.lean ====
section
/-!
DEFINITION. Machine/StepBind.lean: the schedule table and BIND_STEP (R319-R324).
-/
namespace Sys2Proof.Machine

/-! ## Rows (R319, R320) -/

/-- A row of the schedule table: the fields that the module reads. -/
structure SchedRow where
  curve : Nat
  lr : Nat
  warmup : Nat
  decay : Nat
  f : Nat
  p : Nat
  uoff : Nat
  reserved : Bool
  blocks : Nat
  deriving DecidableEq, Repr

/-- The row that eight words hold. -/
def schedRow (l : List W64) : SchedRow :=
  let w := fun (k : Nat) => l.getD k 0
  { curve := bitsOf (w 0) 24 3
    lr := bitsOf (w 0) 32 32
    warmup := bitsOf (w 1) 0 32
    decay := bitsOf (w 1) 32 32
    f := bitsOf (w 2) 0 32
    p := bitsOf (w 2) 32 32
    uoff := bitsOf (w 3) 32 32
    reserved := bitsOf (w 0) 27 5 ≠ 0 || bitsOf (w 7) 54 10 ≠ 0
    blocks := bitsOf (w 7) 0 27 + bitsOf (w 7) 27 27 }

/-- Whether an FP32 code is finite. -/
def finite32 (c : Nat) : Bool :=
  match decodeNum 1 c with
  | .fin .. => true
  | _ => false

/-- Whether a row is valid (R320). -/
def State.rowValid (s : State) (tbase : Nat) (r : SchedRow) : Bool :=
  !r.reserved && decide (r.curve ≤ 5) && finite32 r.lr && finite32 r.f
    && (r.decay ≠ 0 || (r.curve ≠ 1 && r.curve ≠ 2)) && (r.p ≠ 0 || (r.curve ≠ 3 && r.curve ≠ 5))
    && (r.curve ≠ 5 || spanHbm (tbase + 64 * r.uoff) (4 * r.p)) && decide (r.blocks ≤ s.get klnLandSize_BLOCKS)

/-! ## The learning rate (R321) -/

/-- Rounds once into FP32, ties to even. -/
def r32 (a : ARes) : ExNum := decodeNum 1 (a.into 1 .rne false).code

/-- An integer as FP32. -/
def int32 (n : Nat) : ExNum := decodeNum 1 (convert 1 .rne false (ExNum.ofInt n)).code

/-- 1 in FP32. -/
def one32 : ExNum := .fin false 1 0

/-- The Taylor sum of the cosine, as a multiple of 2^-256: `y2` is the square of the argument. -/
def cosSum (y2 t k acc : Int) : Nat → Int
  | 0 => acc
  | n + 1 =>
    let t' := -(t * y2 / (2 ^ 256 : Nat) / ((2 * k + 1) * (2 * k + 2)))
    cosSum y2 t' (k + 1) (acc + t') n

/-- The code of an FP32 value. -/
def code32 (x : ExNum) : Nat := (convert 1 .rne false x).code

/-- SCH's cosine: within 1 unit in the last place of the rounded value; how far is open (log entry 15). -/
def cos32 (x : ExNum) : ExNum :=
  match x with
  | .fin _ m e =>
    let y := if 0 ≤ e then m * 2 ^ e.toNat * 2 ^ 256 else m * 2 ^ 256 / 2 ^ (-e).toNat
    let v := cosSum (y * y / 2 ^ 256 : Nat) (2 ^ 256 : Nat) 0 (2 ^ 256 : Nat) 56
    decodeNum 1 (nudge 1 1 (Config.schUlpOff 0 (BitVec.ofNat 64 (code32 x)) 0) (convert 1 .rne false (ExNum.mk' v (-256) false))).code
  | y => y

/-- A magnitude cut to 256 bits, with a sticky last bit. -/
def cut256 (m : Nat) (e : Int) : Nat × Int :=
  let k := Nat.log2 m
  if k < 256 then (m, e)
  else
    let d := k - 255
    ((m >>> d) ||| (if m % 2 ^ d = 0 then 0 else 1), e + d)

/-- The magnitude (m * 2^e)^n times (am * 2^ae), by squaring, each product cut to 256 bits. -/
def powGo (m : Nat) (e : Int) (n am : Nat) (ae : Int) : Nat → Nat × Int
  | 0 => (am, ae)
  | fuel + 1 =>
    if n = 0 then (am, ae)
    else
      let a := if n % 2 = 1 then cut256 (am * m) (ae + e) else (am, ae)
      let b := cut256 (m * m) (2 * e)
      powGo b.1 b.2 (n / 2) a.1 a.2 fuel

/-- SCH's integer power: within 1 unit in the last place of the rounded value; how far is open (log entry 15). -/
def pow32 (x : ExNum) (n : Nat) : ExNum :=
  match x with
  | .fin s m e =>
    if n = 0 then one32
    else if m = 0 then .fin (s && n % 2 = 1) 0 0
    else
      let r := powGo m e n 1 0 64
      let g := flog2 r.1 r.2
      let r := if 4096 < g then (3, (4096 : Int)) else if g < -4096 then (3, -4098) else r
      decodeNum 1 (nudge 1 1 (Config.schUlpOff 1 (BitVec.ofNat 64 (code32 x)) (BitVec.ofNat 64 n))
        (convert 1 .rne false (.fin (s && n % 2 = 1) r.1 r.2))).code
  | y => y

/-- LR_T of a row for job step `j`; `user` is the entry that curve 5 selects. -/
def lrAt (r : SchedRow) (j user : Nat) : Nat :=
  let lr := decodeNum 1 r.lr
  let f := decodeNum 1 r.f
  let g :=
    if j < r.warmup then r32 (nDiv (int32 (j + 1)) (int32 r.warmup))
    else
      let u := j - r.warmup
      let x := r32 (nDiv (int32 (min u r.decay)) (int32 r.decay))
      match r.curve with
      | 0 => one32
      | 1 => r32 (nAdd one32 (r32 (nMul (r32 (nAdd one32 f.negate)) x)).negate)
      | 2 =>
        let h := r32 (nMul (r32 (nAdd one32 f.negate)) (.fin false 1 (-1)))
        let c := r32 (nAdd one32 (cos32 (r32 (nMul (decodeNum 1 0x40490FDB) x))))
        r32 (nAdd f (r32 (nMul h c)))
      | 3 => pow32 f (u / r.p)
      | 4 => r32 (nSqrt (r32 (nDiv (int32 (max r.warmup 1)) (int32 (u + max r.warmup 1)))))
      | _ => decodeNum 1 user
  ((nMul lr g).into 1 .rne false).code

/-- The index of the user entry that a row takes at a step. -/
def userIndex (r : SchedRow) (j : Nat) : Nat := min (j - r.warmup) (r.p - 1)

/-! ## BIND_STEP (R322, R323) -/

/-- What BIND_STEP must log when a row is not valid: the record names the row; its CODE and SEV are open (log entry 45). -/
def State.rowRecord (s : State) (row addr : Nat) : State :=
  let k := s.fresh 16
  let v := k.2.fresh 2
  v.2.logPut [mkRec s.cone 0x122 v.1.toNat false false k.1.toNat 0 (BitVec.ofNat 64 row) (BitVec.ofNat 64 addr)]

/-- Step 2: the rows are read and checked from row `i`; the first failure's status. -/
def State.checkRows (s : State) (tbase i : Nat) : Nat → State × Nat
  | 0 => (s, eOK)
  | n + 1 =>
    let r := s.cmdRead 0x122 (tbase + 64 * i) 64
    if r.2.1 ≠ eOK then (r.1, r.2.1)
    else if r.1.rowValid tbase (schedRow (words64 r.2.2)) then r.1.checkRows tbase (i + 1) n
    else (r.1.rowRecord i (tbase + 64 * i), ePARAM)

/-- Step 3: LR_T of every row from row `i` is computed and word 3 written. -/
def State.writeRows (s : State) (tbase j i : Nat) : Nat → State × Nat
  | 0 => (s, eOK)
  | n + 1 =>
    let a := tbase + 64 * i
    let r := s.cmdRead 0x122 a 64
    if r.2.1 ≠ eOK then (r.1, r.2.1)
    else
      let row := schedRow (words64 r.2.2)
      let u := if row.curve = 5 && row.warmup ≤ j then r.1.cmdRead 0x122 (tbase + 64 * row.uoff + 4 * userIndex row j) 4
        else (r.1, eOK, [])
      if u.2.1 ≠ eOK then (u.1, u.2.1)
      else
        let w := u.1.cmdWrite 0x122 (a + 24) (bytesLE 8 (lrAt row j (natLE u.2.2) + row.uoff * 2 ^ 32))
        if w.2 ≠ eOK then w else w.1.writeRows tbase j (i + 1) n

/-- Steps 5 and 6: CL.JSTEP of every cluster at one count, the entries of earlier steps close (R346), and the binding record
(R324). -/
def stepBound (s : State) (c : Cmd) : CmdEnd :=
  let j := c.word 1
  let s := (List.range 128).foldl (fun s n => s.wr (clJstep n) j) s
  let s := { s.closeBelow j with stepTable := some (c.addr 2, c.nrows) }
  let cone := s.cone
  if c.addr 3 = 0 then .fin s eOK cone
  else s.cmdWriteThen 0x122 (c.addr 3)
    (wordsBytes [j, BitVec.ofNat 64 (c.addr 2), BitVec.ofNat 64 (c.nrows + c.tclr.toNat * 2 ^ 15), cone]) fun s => .fin s eOK cone

/-- Steps 2 to 4: with TCLR = 1 the command goes on at TOUCH_CLEAR_DONE. -/
def stepRows (s : State) (c : Cmd) : CmdEnd :=
  let r := s.checkRows (c.addr 2) 0 c.nrows
  if r.2 ≠ eOK then .fin r.1 r.2 0
  else
    let w := r.1.writeRows (c.addr 2) (c.word 1).toNat 0 c.nrows
    if w.2 ≠ eOK then .fin w.1 w.2 0
    else if c.tclr then .run (w.1.busWrite 0x122 (regAddr klnTouchCtrl) (bytesLE 8 (setBits (w.1.rd klnTouchCtrl) 1 1 1).toNat)).1 .bindClear
    else stepBound w.1 c

/-- Step 1: whether a BIND_STEP may go on. -/
def State.stepReady (s : State) (c : Cmd) : Bool :=
  (s.mstate = mBOUND || s.mstate = mRUNNING) && s.holds = 0 && s.clustersIn [0, 4] && (!c.tclr || s.colls.isEmpty)

/-- BIND_STEP as SCH takes it: it waits behind an earlier one. -/
def bindStepBody (s : State) (c : Cmd) : CmdEnd :=
  if s.stepReady c && !(s.runs.any (·.op == 0x13)) then stepRows s c else .run s .bindWait

/-- A BIND_STEP that was taken and waits: it goes on when step 1 allows it and it is the first; a module that is READY or FENCED meanwhile
ends it with E_STATE. -/
def State.stepResume (s : State) (q : Nat) (c : Cmd) : State :=
  if s.mstate ≤ mREADY || s.mstate = mFENCED then s.endRun q eSTATE 0
  else if s.stepReady c && (s.runs.find? (·.op == 0x13)).map (·.q) == some q then ((stepRows s c).settle q 0x13).schReady
  else s

/-- BIND_STEP. -/
def execBindStep (q : Fin 64) (s : State) : Host.Outcome State Fault Refusal :=
  match s.runAt q, s.queue q with
  | some r, c :: _ =>
    if r.kind == .bindWait && s.schTakes && !s.orphanStop then done (s.stepResume q c) else .next s
  | _, _ => schRow q (·.op == 0x13) bindStepBody s

/-- TOUCH_CLEAR_DONE (R179, R323): the bitmap is clear, and the BIND_STEP that cleared it goes on. -/
def execTouchClearDone (s : State) : Host.Outcome State Fault Refusal :=
  if !s.flag klnTouchCtrl_BUSY then .next s
  else
    let s := s.touchCleared
    match s.runs.find? fun r => r.kind == .bindClear with
    | some r => (match s.queue r.q with
      | c :: _ => done ((stepBound s c).settle r.q r.op).schReady
      | [] => done s)
    | none => done s

end Sys2Proof.Machine
end

