-- ==== Sys2Proof/Machine/SchSec.lean ====
section
/-!
DEFINITION. Machine/SchSec.lean: the commands that SEC serves: firmware activation (R406, R407, R424), attestation and provenance (R349-R352,
R430), zeroisation (R434, R435), and fuse writes (R423).
-/
namespace Sys2Proof.Machine

/-! ## ACTIVATE_FW (R406, R407) -/

/-- PROC of an ACTIVATE_FW. -/
def Cmd.fwProc (c : Cmd) : Nat := bitsOf (c.word 1) 0 2

/-- SLOT of an ACTIVATE_FW. -/
def Cmd.fwSlot (c : Cmd) : Nat := bitsOf (c.word 1) 8 1

/-- The processors that an ACTIVATE_FW restarts. -/
def Cmd.fwTargets (c : Cmd) : List Proc :=
  match c.fwProc with
  | 0 => [.sec]
  | 1 => [.pwr]
  | 2 => [.sch]
  | _ => (c.mask 2).map fun n => .ccc (Fin.ofNat 128 n)

/-- The manifest copy under which a slot passes its verification (R424, R468). -/
def State.fwVerified (s : State) (c : Cmd) : Option Nat :=
  let m := s.pickManifest
  if m.1 = 0 && s.slotOk (s.manifest m.2) c.fwProc c.fwSlot then some m.2 else none

/-- Restarts a processor; its count of restarts is cleared (R386). -/
def State.restartProc (s : State) (p : Proc) : State := s.setProc p ⟨.restarting, []⟩

/-- The processors restart from the verified slot; the copy becomes the active one. -/
def State.fwRestart (s : State) (c : Cmd) (copy : Nat) : State :=
  c.fwTargets.foldl State.restartProc (s.put imgBoot_MCOPY copy)

/-- Holds an ACTIVATE_FW (R407): a held one of the same processor completes with E_FAULT. -/
def State.deferFw (s : State) (q : Nat) (c : Cmd) : State :=
  let s := match s.defers.find c.fwProc with
    | some (q', c') => s.completeCmd q' c' eFAULT 0
    | none => s
  { s with defers := s.defers.insert c.fwProc (q, c) }.put sysFwSlot_DEFER (s.get sysFwSlot_DEFER ||| 2 ^ c.fwProc)

/-- ACTIVATE_FW. -/
def activateBody (q : Nat) (s : State) (c : Cmd) : CmdEnd :=
  if !s.secServes then .fin s eFAULT 0
  else if s.flag sysState_EMERG && s.imgRunning then .fin (s.deferFw q c) eDEFERRED 0
  else match s.fwVerified c with
    | none => .fin s eAUTH 0
    | some copy =>
      if s.flag sysState_EMERG then .fin (s.deferFw q c) eDEFERRED 0
      else .run (s.fwRestart c copy) (.activating c.fwProc)

/-- Whether every processor of an activation runs. -/
def State.fwUp (s : State) (c : Cmd) : Bool := c.fwTargets.all s.procRuns

/-- An activation ends with OK: the slot is recorded (R406). -/
def State.fwRecord (s : State) (c : Cmd) : State :=
  if c.fwProc < 3 then s.setSlotOf c.fwProc 0 c.fwSlot
  else (c.mask 2).foldl (fun s n => s.setSlotOf 3 n c.fwSlot) s

/-- Completes the activations whose processors run; each may raise the counter (R423). -/
def State.fwSettle (s : State) : State :=
  let s := s.runs.foldl (fun s r => match r.kind, s.queue r.q with
    | .activating _, c :: _ => if s.fwUp c then ((s.fwRecord c).finishCmd r.q eOK 0).raiseSvn else s
    | _, _ => s) s
  s.deferRuns.foldl (fun s e =>
    if s.fwUp e.2.2 then
      (({ s with deferRuns := s.deferRuns.erase e.1 }.fwRecord e.2.2).completeCmd e.2.1 e.2.2 eOK 0).raiseSvn
    else s) s

/-- ACTIVATE_FW. An empty mask has nothing to restart and completes at once. -/
def execActivateFw (q : Fin 64) (s : State) : Host.Outcome State Fault Refusal :=
  schRow q (·.op == 0x10) (fun s c => match activateBody q s c with
    | .run t k _ => .run t k State.fwSettle
    | .fin t code res => .fin t code res) s

/-- ACTIVATE_FW_DEFERRED_RUN (R407): 1 s after EMERGENCY has cleared, a held activation executes and completes once more. -/
def execActivateFwDeferredRun (p : Fin 4) (s : State) : Host.Outcome State Fault Refusal :=
  match s.defers.find p.val with
  | some (q, c) =>
    if s.flag sysState_EMERG || s.now < s.emergClearAt.toNat + 1000000000 || s.imgRunning || !s.schTakes then .next s
    else
      let s := { s with defers := s.defers.erase p.val }.put sysFwSlot_DEFER (s.get sysFwSlot_DEFER &&& (15 - 2 ^ p.val))
      if !s.secServes then done (s.completeCmd q c eFAULT 0)
      else match s.fwVerified c with
        | none => done (s.completeCmd q c eAUTH 0)
        | some copy => done { s.fwRestart c copy with deferRuns := s.deferRuns.insert p.val (q, c) }.fwSettle
  | none => .next s

/-! ## ATTEST (R350-R352, R430, R435) -/

/-- Whether a command is ATTEST of a kind. -/
def isAttest (k : Nat) (c : Cmd) : Bool := c.op == 0x15 && bitsOf (c.word 1) 0 4 == k

/-- The frame of ATTEST: E_FAULT where SEC does not serve, or cannot certify any more. -/
def attestRow (k : Nat) (body : State → Cmd → CmdEnd) (q : Fin 64) (s : State) : Host.Outcome State Fault Refusal :=
  schRow q (isAttest k) (fun s c => if !s.secServes || s.sec.idkDead then .fin s eFAULT 0 else body s c) s

/-- Kinds 1 and 2 write their output at OUT: it must be aligned, lie in HBM and fit MAXLEN. -/
def attestOut (s : State) (req out : List Byte) : CmdEnd :=
  let at_ := tokField req 0 8
  if at_ % 64 ≠ 0 || !spanHbm at_ out.length || tokField req 8 8 < out.length then .fin s ePARAM 0
  else s.cmdWriteThen 0x120 at_ out fun s => .fin s eOK (BitVec.ofNat 64 out.length)

/-- ATTEST of kind CERTS. -/
def execAttestCerts (q : Fin 64) (s : State) : Host.Outcome State Fault Refusal :=
  attestRow 1 (fun s c => s.cmdReadThen 0x120 (c.addr 2) 128 fun s b => attestOut s b s.chain) q s

/-- All measurement blocks, each with its index (R429). -/
def State.allMeasurements (s : State) : List Byte :=
  (List.range 8).flatMap fun k => BitVec.ofNat 8 (k + 1) :: s.measurement (k + 1)

/-- The signed answer to GET_MEASUREMENTS: what it says, and the AK's signature over the transcript up to it (log entry 23). -/
def State.signedAnswer (s : State) (msg : Nat) (transcript content : List Byte) : List Byte × State :=
  let r := s.fresh 256
  let rsp := Config.stdBytes msg (content ++ bytesLE 32 r.1.toNat)
  let g := r.2.signAk (Config.spdmDigest (transcript ++ rsp)).toNat
  (rsp ++ g.1, g.2)

/-- ATTEST of kind MEASURE. -/
def execAttestMeasure (q : Fin 64) (s : State) : Host.Outcome State Fault Refusal :=
  attestRow 2 (fun s c => s.cmdReadThen 0x120 (c.addr 2) 128 fun s b =>
    let req := Config.stdBytes 6 ((b.drop 16).take 32)
    let a := s.signedAnswer 7 req s.allMeasurements
    attestOut a.2 b (req ++ a.1)) q s

/-- ATTEST of kind ENROLL; the fuses wait while an image operation runs (R471). -/
def enrolBody (s : State) (c : Cmd) : CmdEnd :=
  s.cmdReadThen 0x120 (c.addr 2) 128 fun s b =>
    let key := (b.drop 16).take 96
    if !ecValid (beField key 0 48) (beField key 48 48) then .fin s ePARAM 0
    else if s.sec.ownerHash ≠ 0 then .fin s eAUTH 0
    else if s.flag sysState_EMERG then .fin s eBUSY 0
    else if s.fusesFree then .fin (s.enrol (sha384 key)) eOK 0
    else .run (s.modSec fun x => { x with enrolPend := some (sha384 key) }) .enrolling

/-- ATTEST of kind ENROLL. -/
def execAttestEnroll (q : Fin 64) (s : State) : Host.Outcome State Fault Refusal := attestRow 3 enrolBody q s

/-! ## Provenance (R349-R352) -/

/-- The leaves of 1 MiB of a byte string; `n` at most. -/
def leavesOf (b : List Byte) : Nat → List (List Byte)
  | 0 => [b]
  | n + 1 => if b.length ≤ 0x100000 then [b] else b.take 0x100000 :: leavesOf (b.drop 0x100000) n

/-- SHA-384 as its 48 bytes. -/
def hash48 (b : List Byte) : List Byte := bytesBE 48 (sha384 b).toNat

/-- One round of pairing. -/
def pairNodes : List (List Byte) → List (List Byte)
  | a :: b :: t => hash48 (0x01 :: (a ++ b)) :: pairNodes t
  | l => l

/-- The root of a list of nodes; `n` rounds at most. -/
def treeRoot (l : List (List Byte)) : Nat → List Byte
  | 0 => l.headD []
  | n + 1 => match l with
    | [a] => a
    | l => treeRoot (pairNodes l) n

/-- The tree hash (R349). -/
def treeHash (b : List Byte) : List Byte :=
  treeRoot ((leavesOf b (b.length / 0x100000 + 1)).map fun l => hash48 (0x00 :: l)) 64

/-- A range of a provenance request. -/
def provRange (r : List Byte) (o : Nat) : Nat × Nat := (tokField r o 8, tokField r (o + 8) 8)

/-- The ranges of a request: the program, the weights and the inputs. -/
def provRanges (r : List Byte) : List (Nat × Nat) × List (Nat × Nat) × List (Nat × Nat) :=
  ([provRange r 32], (List.range (tokField r 24 1)).map fun k => provRange r (48 + 16 * k),
    (List.range (tokField r 25 1)).map fun k => provRange r (176 + 16 * k))

/-- Whether a range lies in HBM or in a cluster store. -/
def rangeOk (x : Nat × Nat) : Bool :=
  match decodeAddr x.1 with
  | .hbm a => spanHbm a x.2
  | .store _ o => decide (o + x.2 ≤ storeSize)
  | _ => false

/-- Whether a request is valid (R350). -/
def provOk (r : List Byte) : Bool :=
  let l := provRanges r
  decide (tokField r 24 1 ≤ 8) && decide (tokField r 25 1 ≤ 4) && (l.1 ++ l.2.1 ++ l.2.2).all rangeOk && tokField r 240 8 % 64 == 0
    && spanHbm (tokField r 240 8) 320

/-- ATTEST of kind PROVENANCE: the engine hashes; the command ends at PROVENANCE_DONE. -/
def provBody (s : State) (c : Cmd) : CmdEnd :=
  s.cmdReadThen 0x122 (c.addr 2) 256 fun s r =>
    if !provOk r then .fin s ePARAM 0
    else .run ((s.put digProv_BUSY 1).put digProv_BYTES 0) (.provenance r)

/-- ATTEST of kind PROVENANCE. -/
def execAttestProvenance (q : Fin 64) (s : State) : Host.Outcome State Fault Refusal := attestRow 0 provBody q s

/-- The engine reads ranges one after the other: the state, the status and the bytes. -/
def State.readRanges (s : State) (l : List (Nat × Nat)) : State × Nat × List Byte :=
  l.foldl (fun (x : State × Nat × List Byte) r =>
    if x.2.1 ≠ eOK then x
    else
      let m := x.1.memRead 0x130 r.1 r.2
      if m.2.1 = rOK then (m.1, eOK, x.2.2 ++ m.2.2.2) else (m.1.engineFault 0x130 m.2.2.1 m.2.1, statusOf m.2.1, [])) (s, eOK, [])

/-- Bytes 0-223 of a provenance record (R351). -/
def State.provHead (s : State) (r prog w i : List Byte) : List Byte :=
  bytesLE 4 0x564F5250 ++ bytesLE 2 1 ++ bytesLE 2 (s.get digDet_DETERMINISTIC + 2 * s.get secDbg_SEEN)
    ++ bytesLE 8 (s.rd sysSerial).toNat ++ bytesLE 2 s.coord ++ bytesLE 2 (s.get routeSlice_SLICE)
    ++ bytesLE 4 (tokField (slotEntry (s.manifest (s.get imgBoot_MCOPY)) 2 (s.activeSlot 2 0)) 4 4)
    ++ r.take 8 ++ bytesLE 8 s.now ++ (r.drop 8).take 16
    ++ bytesLE 8 prog.length ++ bytesLE 8 w.length ++ bytesLE 8 i.length ++ hash48 prog ++ treeHash w ++ treeHash i

/-- Hashing, signing and writing the record (R352): the state and the status. -/
def State.provWrite (s : State) (r : List Byte) : State × Nat :=
  let l := provRanges r
  let p := s.readRanges l.1
  let w := if p.2.1 = eOK then p.1.readRanges l.2.1 else (p.1, p.2.1, [])
  let i := if w.2.1 = eOK then w.1.readRanges l.2.2 else (w.1, w.2.1, [])
  let s := i.1.put digProv_BYTES (p.2.2.length + w.2.2.length + i.2.2.length)
  if i.2.1 ≠ eOK then (s, i.2.1)
  else if !s.secServes then (s, eFAULT)
  else
    let h := s.provHead r p.2.2 w.2.2 i.2.2
    let g := s.signAk (sha384 h).toNat
    let m := g.2.memWrite 0x130 (tokField r 240 8) (h ++ g.1)
    if m.2.1 = rOK then (m.1, eOK) else (m.1.engineFault 0x130 m.2.2 m.2.1, statusOf m.2.1)

/-- PROVENANCE_DONE (R352): the engine's accesses wait while HOLD is set (R377). -/
def execProvenanceDone (s : State) : Host.Outcome State Fault Refusal :=
  match s.runs.findSome? fun r => match r.kind with | .provenance b => some (r.q, b) | _ => none with
  | some (q, b) =>
    if s.accHeld 0x130 then .next s
    else
      let r := s.provWrite b
      done (((r.1.put digProv_BUSY 0).put digProv_STATUS r.2).endRun q r.2 0)
  | none => if s.flag digProv_BUSY then .next (s.put digProv_BUSY 0) else .next s

/-! ## ZEROISE (R434, R435, R437) -/

/-- What both scopes do. In the error state no new AK is made. -/
def State.zeroise (s : State) (scope : Nat) : State :=
  let s := (s.closeDebug.put secChalGen_VALID 0).modSec fun c =>
    { c with akPriv := 0, akPub := 0, akCert := [], akValid := false, spdmI3c := Spdm.reset, spdmFabric := Spdm.reset }
  let s := s.reseed
  let s := if s.flag secStatus_ERROR then s else s.makeAk
  s.logEv 0x0307 0x3FE scope 0 0

/-- ZEROISE, SCOPE 0. -/
def execZeroiseEphemeral (q : Fin 64) (s : State) : Host.Outcome State Fault Refusal :=
  schRow q (fun c => c.op == 0x16 && !(c.word 1).getLsbD 0) (fun s _ =>
    if !s.procRuns .sec then .fin s eFAULT 0 else .fin (s.zeroise 0) eOK 0) s

/-- ZEROISE, SCOPE 1: under a token; no fuse is blown during an emergency (R457), which gives E_BUSY. -/
def zeroiseBody (s : State) (c : Cmd) : CmdEnd :=
  if !s.secServes then .fin s eFAULT 0
  else if s.flag sysState_EMERG then .fin s eBUSY 0
  else s.cmdReadThen 0x120 (c.addr 2) 256 fun s b =>
    let r := s.checkToken b 2 0
    if r.1 then .fin (((r.2.modSec fun x => { x with idkDead := true }).put secFuses_IDK_DEAD 1).zeroise 1) eOK 0
    else .fin r.2 eAUTH 0

/-- ZEROISE, SCOPE 1. -/
def execZeroisePermanent (q : Fin 64) (s : State) : Host.Outcome State Fault Refusal :=
  schRow q (fun c => c.op == 0x16 && (c.word 1).getLsbD 0) zeroiseBody s

/-! ## Fuse writes that waited (R423, R471) -/

/-- FUSE_WRITE_RESUME (R423): SEC makes the fuse writes that waited; `readBack` is whether the blown steps read back. -/
def execFuseWriteResume (readBack : Bool) (s : State) : Host.Outcome State Fault Refusal :=
  if !s.fusesFree || !s.secServes then .next s
  else
    let s := if s.sec.svnPend then s.blowSvn readBack else s
    match s.sec.enrolPend, s.runs.find? (fun r => r.kind == .enrolling) with
    | some h, some r => done ((s.enrol h).endRun r.q eOK 0)
    | some h, none => done (s.enrol h)
    | none, _ => done s

end Sys2Proof.Machine
end

