-- ==== Sys2Proof/Machine/FwRows.lean ====
section
/-!
DEFINITION. Machine/FwRows.lean: watchdogs and restarts (R385-R388), the load window (R413), and SEC's timers and error state (R425, R431,
R437).
-/
namespace Sys2Proof.Machine

/-- The code of a processor in log records (R410). -/
def procCode : Proc → Nat
  | .sec => 0
  | .pwr => 1
  | .sch => 2
  | .ccc _ => 3

/-- The cluster index of a CCC; 0 for the others. -/
def procIndex : Proc → Nat
  | .ccc n => n.val
  | _ => 0

/-- The master ID of a processor (R27). -/
def procMid : Proc → Nat
  | .sec => 0x120
  | .pwr => 0x121
  | .sch => 0x122
  | .ccc n => 0x080 + n.val

/-- The FW_FAULT outcome (R385): the module is fenced, except for SEC. -/
def State.fwFenced (s : State) : Proc → State
  | .sec => s
  | .pwr => s.fenceModule 4 0x81 0
  | .sch => s.fenceModule 4 0x82 0
  | .ccc n => s.fenceModule 4 n.val 0

/-- SCH's watchdog expires under the commands in progress (R388): program copies and memory clearing run to their end; a SNAPSHOT or
RESTORE that an engine has goes on; the others complete with E_FAULT after the restart. -/
def State.schLost (s : State) : State :=
  let s := s.runs.foldl (fun s r => match r.kind, s.queue r.q with
    | .copying d, c :: _ => (s.copyProgram c d).1
    | .clearing _, _ => s.clearJobMemory
    | _, _ => s) s
  let kept := fun (k : RunKind) => match k with
    | .snapshot .. | .restoring => true
    | _ => false
  { s with runs := s.runs.map fun r => if kept r.kind then r else { r with kind := .lost } }

/-- A restart of SEC loses both SPDM connection states (R428). -/
def State.spdmLost (s : State) : State := s.modSec fun c => { c with spdmI3c := Spdm.reset, spdmFabric := Spdm.reset }

/-- WATCHDOG_EXPIRY (R385-R388). -/
def execWatchdogExpiry (p : Proc) (s : State) : Host.Outcome State Fault Refusal :=
  if !s.procRuns p then .next s
  else
    let l := s.now :: (s.proc p).restarts.filter fun t => s.now < t + 60000000000
    let s := s.bump ⟨sysWdt, 8 * procCode p, 8⟩
    let s := s.logEv (if 3 ≤ l.length then 0x0004 else 0x0003) (procMid p) (procCode p) (BitVec.ofNat 64 (procIndex p))
      (BitVec.ofNat 64 l.length)
    let s := match p with
      | .sch => s.schLost
      | .sec => s.spdmLost
      | _ => s
    if 3 ≤ l.length then done ((s.setProc p ⟨.fwFault, l⟩).fwFenced p)
    else
      let waits := p == .sec && s.mstate ≠ mREADY && s.mstate ≠ mFENCED
      done (s.setProc p ⟨if waits then .reset else .restarting, l⟩)

/-- The restarted SCH reports the commands that it lost (R388). -/
def State.reportLost (s : State) : State :=
  (s.runs.filter fun r => r.kind == .lost).foldl (fun s r => s.finishCmd r.q eFAULT 0) s

/-- FW_RESTART_DONE (R385, R406): the processor runs again; what waited for it goes on. -/
def execFwRestartDone (p : Proc) (s : State) : Host.Outcome State Fault Refusal :=
  if (s.proc p).st ≠ .restarting then .next s
  else
    let s := s.setProc p { s.proc p with st := .running }
    let s := match p with
      | .sch => s.reportLost
      | .ccc n => s.clRelease n.val
      | .pwr => s.emReplay
      | .sec => s
    done s.fwSettle.schReady

/-- FW_LOAD_WINDOW (R413): the busy times of the last 10 ms, and PWR's telemetry interval. -/
def execFwLoadWindow (sec pwr sch ccc : BitVec 8) (cccIdx : BitVec 7) (s : State) : Host.Outcome State Fault Refusal :=
  if s.mstate = mOFF then .next s
  else
    let v := fun (x : BitVec 8) => min x.toNat 100
    let s := (((s.put sysFwLoad_UTIL_SEC (v sec)).put sysFwLoad_UTIL_PWR (v pwr)).put sysFwLoad_UTIL_SCH (v sch)).put sysFwLoad_UTIL_CCC
      (v ccc)
    let s := s.put sysFwLoad_CCC_MAX cccIdx.toNat
    let k := s.get sysFwLoad_STRETCH
    .next (if 85 < v pwr then s.put sysFwLoad_STRETCH (min (k + 1) 3) else if v pwr < 60 then s.put sysFwLoad_STRETCH (k - 1) else s)

/-- CHALLENGE_EXPIRY (R425). -/
def execChallengeExpiry (s : State) : Host.Outcome State Fault Refusal :=
  if s.flag secChalGen_VALID && s.sec.challengeAt + 60000000000 ≤ s.now then .next (s.put secChalGen_VALID 0) else .next s

/-- DRBG_RESEED (R431). -/
def execDrbgReseed (s : State) : Host.Outcome State Fault Refusal :=
  if s.procRuns .sec && (65536 ≤ s.sec.drbgReqs || s.sec.drbgAt + 10000000000 ≤ s.now) then .next s.reseed else .next s

/-- ENTROPY_HEALTH_FAIL (R436, R437): test 7, or test 8 on a key pair; SEC enters the error state, which it leaves at reset. -/
def execEntropyHealthFail (pairwise : Bool) (s : State) : Host.Outcome State Fault Refusal :=
  if !s.secServes then .next s
  else
    let code := if pairwise then 8 else 7
    .next (((s.put secStatus_ERROR 1).put secStatus_ETEST code).logEv 0x030A 0x3FE code 0 0)

end Sys2Proof.Machine
end

