-- ==== Sys2Proof/Machine/MgmtRows.lean ====
section
/-!
DEFINITION. Machine/MgmtRows.lean: the management ports: SPDM (R428, R429), MCTP and PLDM (R414, R471), I3C (R491), and the debug port
(R438, R439, R488, R492), and MG_ALERT_N (R490). What SPDM, MCTP and PLDM encode is an opaque function of what they say (log entry 23).
-/
namespace Sys2Proof.Machine

/-! ## Answers -/

/-- Updates the ports' state. -/
def State.modMgmt (s : State) (f : Mgmt → Mgmt) : State := { s with mgmt := f s.mgmt }

/-- Sends bytes out of an outside port: 0 the I3C message, 1 the fabric, 2 an I3C common command, 3 the debug port's data
register. -/
def State.respond (s : State) (port : Nat) (b : List Byte) : State := s.modMgmt fun m => { m with resp := some ⟨port, b⟩ }

/-- Whether the module asserts MG_ALERT_N: the pin is asserted for as long as one of the causes of R490 holds. -/
def State.mgAlert (s : State) : Bool :=
  s.bootFailed || s.flag sysState_EMERG || s.mstate = mFENCED
    || (List.range 14).any fun i => s.lnk i = lkMISWIRED || (s.lnk i = lkBISQUE && s.flag (lnkStatus_INCOMPATIBLE i))

/-- An answer to a packet of MTYPE MCTP goes to its SRC, with TO_HOST as in R400 (log entry 23). -/
def State.mctpAck (s : State) (mid : Nat) (p : Pkt) (b : List Byte) : State :=
  let body := [0x04, if mid = 0x202 then 0x01 else 0x00] ++ List.replicate 14 (0 : Byte) ++ b
  (s.inject 129 ⟨mkPkt tMGMT p.cls.toNat p.src.toNat p.slice.toNat false (mkW1 p.coll p.chunk body.length 0 0)
    (BitVec.ofNat 64 (p.flow * 2 ^ 48)) body, true, false, none, none, false⟩).respond 1 b

/-- The frame of a management message: on I3C the target must be addressed, and a pending response may be announced by an in-band
interrupt; on the fabric it is the first MGMT packet of MTYPE MCTP at port 19. A message whose handler does not run is dropped without an
answer (R491). -/
def mgmtRow (tr : Transport) (ready : State → Bool) (f : State → List Byte × State) (s : State) : Host.Outcome State Fault Refusal :=
  match tr with
  | .i3c =>
    if s.mstate = mOFF || s.mgmt.i3cAddr.isNone || !ready s then .next s
    else
      let r := f s
      done ((r.2.respond 0 r.1).modMgmt fun m => { m with ibiPend := m.ibiEn })
  | .fabric =>
    match s.takeHead 19 (fun p => p.typ == tMGMT && p.mtype == 4 && !p.toHost) with
    | none => .next s
    | some (d, t) =>
      if !ready t then .next t
      else
        let r := f t
        done (r.2.mctpAck d.mid d.pkt r.1)

/-- MCTP control is answered once SEC has passed its self-tests. -/
def State.ctrlReady (s : State) : Bool := s.procRuns .sec

/-- Other messages are answered once SCH runs. -/
def State.msgReady (s : State) : Bool := s.procRuns .sch

/-- SPDM needs SEC as well. -/
def State.spdmReady (s : State) : Bool := s.procRuns .sch && s.procRuns .sec

/-- PLDM Firmware Update is answered by SEC alone in recovery, on I3C (R422). -/
def State.updateReady (s : State) (tr : Transport) : Bool := s.spdmReady || (tr == .i3c && s.sec.recovery && s.procRuns .sec)

/-! ## SPDM (R428, R429, R435, R437) -/

/-- The connection state of a transport. -/
def State.spdm (s : State) (tr : Transport) : Spdm := if tr = .i3c then s.sec.spdmI3c else s.sec.spdmFabric

/-- Sets a connection state. -/
def State.setSpdm (s : State) (tr : Transport) (c : Spdm) : State :=
  s.modSec fun x => if tr = .i3c then { x with spdmI3c := c } else { x with spdmFabric := c }

/-- An SPDM ERROR. -/
def spdmError (code : Byte) : List Byte := Config.stdBytes 8 [code]

/-- InvalidRequest. -/
def spInvalid : Byte := 0x01
/-- UnexpectedRequest. -/
def spUnexpected : Byte := 0x04
/-- Unspecified. -/
def spUnspecified : Byte := 0x05

/-- The frame of an SPDM request: ERROR Unspecified in the error state, and without an AK after permanent zeroisation (`key`);
UnexpectedRequest where the connection is not as far as `step`. What is answered joins the connection's transcript. -/
def spdmRow (tr : Transport) (key : Bool) (step : Spdm → Bool) (req : List Byte) (f : State → Spdm → List Byte × Spdm × State) (s : State) :
    Host.Outcome State Fault Refusal :=
  mgmtRow tr State.spdmReady (fun s =>
    let c := s.spdm tr
    if s.flag secStatus_ERROR || (key && (s.sec.idkDead || !s.sec.akValid)) then (spdmError spUnspecified, s)
    else if !step c then (spdmError spUnexpected, s)
    else
      let r := f s c
      (r.1, r.2.2.setSpdm tr { r.2.1 with transcript := r.2.1.transcript ++ req ++ r.1 })) s

/-- GET_VERSION: it resets the state of its own transport. -/
def execGetVersion (tr : Transport) (s : State) : Host.Outcome State Fault Refusal :=
  spdmRow tr false (fun _ => true) (Config.stdBytes 0 [])
    (fun s _ => (Config.stdBytes 9 [0x13], { Spdm.reset with version := true }, s)) s

/-- GET_CAPABILITIES: CERT_CAP, CHAL_CAP, MEAS_CAP with signature; CTExponent 17. -/
def execGetCapabilities (tr : Transport) (s : State) : Host.Outcome State Fault Refusal :=
  spdmRow tr false (·.version) (Config.stdBytes 1 []) (fun s c => (Config.stdBytes 10 [17], { c with caps := true }, s)) s

/-- NEGOTIATE_ALGORITHMS: ECDSA P-384 and SHA-384, where the requester offers both. -/
def execNegotiateAlgorithms (tr : Transport) (p384 sha384 : Bool) (s : State) : Host.Outcome State Fault Refusal :=
  spdmRow tr false (·.caps) (Config.stdBytes 2 [BitVec.ofNat 8 (p384.toNat + 2 * sha384.toNat)])
    (fun s c =>
      if p384 && sha384 then (Config.stdBytes 11 [3], { c with algs := true }, s) else (spdmError spInvalid, { c with algs := false }, s)) s

/-- GET_DIGESTS: the digest of the slot-0 chain. -/
def execGetDigests (tr : Transport) (s : State) : Host.Outcome State Fault Refusal :=
  spdmRow tr true (·.algs) (Config.stdBytes 3 []) (fun s c => (Config.stdBytes 12 (1 :: hash48 s.chain), c, s)) s

/-- GET_CERTIFICATE: a portion of the slot-0 chain and what remains after it. -/
def execGetCertificate (tr : Transport) (slot : BitVec 8) (offset length : BitVec 16) (s : State) : Host.Outcome State Fault Refusal :=
  spdmRow tr true (·.algs) (Config.stdBytes 4 ([slot] ++ bytesLE 2 offset.toNat ++ bytesLE 2 length.toNat))
    (fun s c =>
      let chain := s.chain
      if slot ≠ 0 || chain.length ≤ offset.toNat then (spdmError spInvalid, c, s)
      else
        let part := (chain.drop offset.toNat).take length.toNat
        (Config.stdBytes 13 (bytesLE 2 part.length ++ bytesLE 4 (chain.length - offset.toNat - part.length) ++ part), c, s)) s

/-- CHALLENGE: signed with the AK over the connection's transcript. -/
def execChallenge (tr : Transport) (slot : BitVec 8) (nonce : BitVec 256) (s : State) : Host.Outcome State Fault Refusal :=
  let req := Config.stdBytes 5 (slot :: bytesLE 32 nonce.toNat)
  spdmRow tr true (·.algs) req
    (fun s c =>
      if slot ≠ 0 then (spdmError spInvalid, c, s)
      else
        let a := s.signedAnswer 14 (c.transcript ++ req) (hash48 s.chain)
        (a.1, c, a.2)) s

/-- GET_MEASUREMENTS: the number of blocks, one block, or all; signed where a signature is requested. -/
def execGetMeasurements (tr : Transport) (index : BitVec 8) (sign : Bool) (slot : BitVec 8) (nonce : BitVec 256) (s : State) :
    Host.Outcome State Fault Refusal :=
  let req := Config.stdBytes 6 ([index, BitVec.ofNat 8 sign.toNat, slot] ++ bytesLE 32 nonce.toNat)
  spdmRow tr true (·.algs) req
    (fun s c =>
      let k := index.toNat
      if (8 < k && k ≠ 255) || (sign && slot ≠ 0) then (spdmError spInvalid, c, s)
      else
        let body := if k = 0 then [8] else if k = 255 then s.allMeasurements else index :: s.measurement k
        if sign then
          let a := s.signedAnswer 7 (c.transcript ++ req) body
          (a.1, c, a.2)
        else
          let r := s.fresh 256
          (Config.stdBytes 7 (body ++ bytesLE 32 r.1.toNat), c, r.2)) s

/-! ## MCTP and PLDM (R414) -/

/-- A message that is answered without any other effect. -/
def infoRow (tr : Transport) (ready : State → Bool) (msg : Nat) (f : State → List Byte) (s : State) : Host.Outcome State Fault Refusal :=
  mgmtRow tr ready (fun s => (Config.stdBytes msg (f s), s)) s

/-- Set Endpoint ID: 0, 1 to 7 and 255 are no endpoint's (log entry 24). -/
def execSetEndpointId (tr : Transport) (eid : BitVec 8) (s : State) : Host.Outcome State Fault Refusal :=
  mgmtRow tr State.ctrlReady (fun s =>
    let s := if eid.toNat < 8 || eid.toNat = 255 then s else s.modMgmt fun m => { m with eid := eid.toNat }
    (Config.stdBytes 16 [BitVec.ofNat 8 s.mgmt.eid], s)) s

/-- Get Endpoint ID. -/
def execGetEndpointId (tr : Transport) (s : State) : Host.Outcome State Fault Refusal :=
  infoRow tr State.ctrlReady 17 (fun s => [BitVec.ofNat 8 s.mgmt.eid]) s

/-- Get MCTP Version Support. -/
def execGetMctpVersionSupport (tr : Transport) (s : State) : Host.Outcome State Fault Refusal :=
  infoRow tr State.ctrlReady 18 (fun _ => []) s

/-- Get Message Type Support. -/
def execGetMessageTypeSupport (tr : Transport) (s : State) : Host.Outcome State Fault Refusal :=
  infoRow tr State.ctrlReady 19 (fun _ => []) s

/-- GetTID. -/
def execGetTid (tr : Transport) (s : State) : Host.Outcome State Fault Refusal :=
  infoRow tr State.msgReady 32 (fun s => [BitVec.ofNat 8 s.mgmt.tid]) s

/-- GetPLDMVersion. -/
def execGetPldmVersion (tr : Transport) (s : State) : Host.Outcome State Fault Refusal := infoRow tr State.msgReady 33 (fun _ => []) s

/-- GetPLDMTypes. -/
def execGetPldmTypes (tr : Transport) (s : State) : Host.Outcome State Fault Refusal := infoRow tr State.msgReady 34 (fun _ => []) s

/-- GetPLDMCommands. -/
def execGetPldmCommands (tr : Transport) (s : State) : Host.Outcome State Fault Refusal := infoRow tr State.msgReady 35 (fun _ => []) s

/-- What a sensor reads (R414, R463). -/
def State.sensor (s : State) : PldmSensor → Nat
  | .vin => s.get pwrIn_VIN
  | .iin => s.get pwrIn_IIN
  | .pin => s.get pwrIn_PIN
  | .tmax => s.get pwrTherm_TMAX
  | .hmax => s.get pwrTherm_HMAX
  | .inlet => s.get pwrCoolant_INLET
  | .outlet => s.get pwrCoolant_OUTLET
  | .flow => s.get pwrCoolant_FLOW
  | .stackTemp k => s.get (hbmStatus_TEMP k)
  | .moduleState => s.mstate

/-- PLDM_SENSOR_READ. -/
def execPldmSensorRead (tr : Transport) (sensor : PldmSensor) (s : State) : Host.Outcome State Fault Refusal :=
  infoRow tr State.msgReady 36 (fun s => bytesLE 4 (s.sensor sensor)) s

/-! ## PLDM Firmware Update (R414, R422, R471) -/

/-- REQUEST_UPDATE: the engine is claimed for one slot that no processor runs; ERROR_NOT_READY while it is busy. -/
def execRequestUpdate (tr : Transport) (proc : Fin 4) (slotB : Bool) (s : State) : Host.Outcome State Fault Refusal :=
  mgmtRow tr (State.updateReady · tr) (fun s =>
    let r := 8 + 2 * proc.val + slotB.toNat
    if s.img.isSome || s.mgmt.update.isSome then (Config.stdBytes 48 [1], s)
    else if !s.sec.recovery && s.slotRunning r then (Config.stdBytes 48 [2], s)
    else (Config.stdBytes 48 [0], s.modMgmt fun m => { m with update := some (r, 0) })) s

/-- The module resets itself at the SEC step of R458, as after a release of RST_N (R422, R461). -/
def State.secReset (s : State) : State :=
  (s.goOff.modPwr fun p => { p with phase := .ramp, slotId := s.power.slotId }).put sysState_STATE mBOOTING

/-- The data of an update: the slot is erased before its first byte. -/
def State.updateWrite (s : State) (r off : Nat) (b : List Byte) (last : Bool) : State :=
  let g := regionOf r
  let s := if off = 0 then
      { s with flash := Tab.eraseRange s.flash g.1 (g.1 + g.2) }.imgLog ⟨1, r, 0, g.2, 0, 0x120, false⟩ 0
    else s
  let s := { s with flash := writeBytes 0xFF s.flash (g.1 + off) b }
  if last then
    let s := (s.modMgmt fun m => { m with update := none }).imgLog ⟨2, r, 0, off + b.length, 0, 0x120, false⟩ 0
    if s.sec.recovery then s.secReset else s
  else s.modMgmt fun m => { m with update := some (r, off + b.length) }

/-- PLDM_FIRMWARE_TRANSFER: data beyond the slot is refused; while EMERGENCY is set no operation starts (R471). -/
def execPldmFirmwareTransfer (tr : Transport) (data : List (BitVec 8)) (last : Bool) (s : State) : Host.Outcome State Fault Refusal :=
  mgmtRow tr (State.updateReady · tr) (fun s =>
    match s.mgmt.update with
    | some (r, off) =>
      if (regionOf r).2 < off + data.length then (Config.stdBytes 49 [1], s)
      else if s.flag sysState_EMERG then (Config.stdBytes 49 [2], s)
      else (Config.stdBytes 49 [0], s.updateWrite r off data last)
    | none => (Config.stdBytes 49 [1], s)) s

/-! ## I3C (R491) -/

/-- A common command to the addressed target. -/
def cccRow (f : State → State) (s : State) : Host.Outcome State Fault Refusal :=
  if s.mstate = mOFF || s.mgmt.i3cAddr.isNone then .next s else .next (f s)

/-- ENTDAA: answered from 50 ms after RST_N is released, by a target without an address. -/
def execEntdaa (addr : BitVec 7) (s : State) : Host.Outcome State Fault Refusal :=
  if s.mstate = mOFF || s.mgmt.i3cAddr.isSome || s.now < 50000000 then .next s
  else .next (s.modMgmt fun m => { m with i3cAddr := some addr.toNat })

/-- RSTDAA. -/
def execRstdaa (s : State) : Host.Outcome State Fault Refusal := cccRow (fun s => s.modMgmt fun m => { m with i3cAddr := none }) s

/-- ENEC: bit 0 enables in-band interrupts (log entry 24). -/
def execEnec (events : BitVec 8) (s : State) : Host.Outcome State Fault Refusal :=
  cccRow (fun s => if events.getLsbD 0 then s.modMgmt fun m => { m with ibiEn := true } else s) s

/-- DISEC. -/
def execDisec (events : BitVec 8) (s : State) : Host.Outcome State Fault Refusal :=
  cccRow (fun s => if events.getLsbD 0 then s.modMgmt fun m => { m with ibiEn := false } else s) s

/-- The provisional ID: bit 32 set, bits [31:0] those of SYS.SERIAL. -/
def State.pid (s : State) : Nat := 2 ^ 32 + (s.rd sysSerial).toNat % 2 ^ 32

/-- GETPID. -/
def execGetpid (s : State) : Host.Outcome State Fault Refusal := cccRow (fun s => s.respond 2 (bytesBE 6 s.pid)) s

/-- GETBCR. -/
def execGetbcr (s : State) : Host.Outcome State Fault Refusal := cccRow (fun s => s.respond 2 [0x06]) s

/-- GETDCR. -/
def execGetdcr (s : State) : Host.Outcome State Fault Refusal := cccRow (fun s => s.respond 2 [0x00]) s

/-- GETSTATUS: the pending interrupt in bits [3:0] (log entry 24). -/
def execGetstatus (s : State) : Host.Outcome State Fault Refusal :=
  cccRow (fun s => s.respond 2 (bytesBE 2 s.mgmt.ibiPend.toNat)) s

/-- GETMWL. -/
def execGetmwl (s : State) : Host.Outcome State Fault Refusal := cccRow (fun s => s.respond 2 (bytesBE 2 s.mgmt.mwl)) s

/-- SETMWL: at most 256. -/
def execSetmwl (len : BitVec 16) (s : State) : Host.Outcome State Fault Refusal :=
  cccRow (fun s => s.modMgmt fun m => { m with mwl := min len.toNat 256 }) s

/-- GETMRL. -/
def execGetmrl (s : State) : Host.Outcome State Fault Refusal := cccRow (fun s => s.respond 2 (bytesBE 2 s.mgmt.mrl)) s

/-- SETMRL: at most 256. -/
def execSetmrl (len : BitVec 16) (s : State) : Host.Outcome State Fault Refusal :=
  cccRow (fun s => s.modMgmt fun m => { m with mrl := min len.toNat 256 }) s

/-! ## The debug port (R438, R439, R492) -/

/-- The frame of a debug instruction: it selects its data register. The management rail must be there (R487); TRST_N is high again. -/
def jtagRow (ir : Nat) (f : State → State) (s : State) : Host.Outcome State Fault Refusal :=
  if !s.power.inRange then .next s else done (f (s.modMgmt fun m => { m with ir := ir, trst := false }))

/-- BYPASS: one bit. -/
def execJtagBypass (tdi : Bool) (s : State) : Host.Outcome State Fault Refusal :=
  jtagRow 0xFF (fun s => s.respond 3 [BitVec.ofNat 8 tdi.toNat]) s

/-- IDCODE. -/
def execJtagIdcode (s : State) : Host.Outcome State Fault Refusal := jtagRow 0x01 (fun s => s.respond 3 (bytesLE 4 0xB4A07593)) s

/-- Boundary scan, only while RST_N is asserted; otherwise as BYPASS. What the cells capture is not stated: free values. -/
def scanRow (ir : Nat) (cells : List Bool) (s : State) : Host.Outcome State Fault Refusal :=
  if s.power.rstN then jtagRow 0xFF (fun s => s.respond 3 [BitVec.ofNat 8 (cells.headD false).toNat]) s
  else jtagRow ir (fun s =>
    let c := s.fresh cells.length
    (c.2.modMgmt fun m => { m with bscan := cells }).respond 3 (bytesLE ((cells.length + 7) / 8) c.1.toNat)) s

/-- EXTEST. -/
def execJtagExtest (cells : List Bool) (s : State) : Host.Outcome State Fault Refusal := scanRow 0x00 cells s

/-- SAMPLE/PRELOAD. -/
def execJtagSamplePreload (cells : List Bool) (s : State) : Host.Outcome State Fault Refusal := scanRow 0x02 cells s

/-- CHAL: the challenge, drawn where none is valid. -/
def execJtagChal (s : State) : Host.Outcome State Fault Refusal :=
  jtagRow 0x10 (fun s =>
    let s := if s.flag secChalGen_VALID || !s.secServes then s else s.drawChallenge
    s.respond 3 s.challengeBytes) s

/-- TOKEN: checked at Update-DR; a DEBUG token that passes opens a session. -/
def execJtagToken (token : BitVec 2048) (s : State) : Host.Outcome State Fault Refusal :=
  jtagRow 0x11 (fun s =>
    if !s.secServes then s
    else
      let t := bytesLE 256 token.toNat
      let r := s.checkToken t 3 0
      if r.1 then r.2.openDebug (tokField t 48 8 % 2) (tokField t 7 1) else r.2) s

/-- DSTATUS. -/
def execJtagDstatus (s : State) : Host.Outcome State Fault Refusal :=
  jtagRow 0x12 (fun s => s.respond 3 (bytesLE 4 (s.get secDbg_SESSION + 2 * s.get secChalGen_VALID + 4 * s.get secDbg_RESULT))) s

/-- DCLOSE. -/
def execJtagDclose (s : State) : Host.Outcome State Fault Refusal := jtagRow 0x13 State.closeDebug s

/-- The data register that the next Capture-DR of DMEM loads. -/
def State.dmemDr (s : State) : List Byte := bytesLE 16 (s.mgmt.dmemResp * 2 ^ 61 + s.mgmt.dmemData.toNat * 2 ^ 64)

/-- DMEM: the answer of the access before is captured; then one aligned 8-byte access as master 0x3FF, in a session. -/
def execJtagDmem (dr : BitVec 128) (s : State) : Host.Outcome State Fault Refusal :=
  jtagRow 0x20 (fun s =>
    let s := s.respond 3 s.dmemDr
    let a := dr.toNat % 2 ^ 48 / 8 * 8
    let set := fun (s : State) (r : Nat) (d : W64) => s.modMgmt fun m => { m with dmemResp := r, dmemData := d }
    if !s.flag secDbg_SESSION then set s rDENIED 0
    else if dr.getLsbD 48 then
      let r := s.busWrite 0x3FF a (bytesLE 8 (dr.toNat / 2 ^ 64))
      set r.1 r.2.1 0
    else
      let r := s.busRead 0x3FF a 8
      set r.1 r.2.1 (BitVec.ofNat 64 (natLE r.2.2.2))) s

/-- TRST_N_ASSERT (R488): the debug port is held in reset; its instruction register holds IDCODE (log entry 24). -/
def execTrstNAssert (s : State) : Host.Outcome State Fault Refusal :=
  .next (s.modMgmt fun m => { m with trst := true, ir := 0x01, dmemResp := 0, dmemData := 0, bscan := [] })

end Sys2Proof.Machine
end

