-- ==== Sys2Proof/Machine/PowerRows.lean ====
section
/-!
DEFINITION. Machine/PowerRows.lean: the loops, the limiter, the sensors and emergencies (R449-R457), the units' power states and optics sleep
(R444-R448).
-/
namespace Sys2Proof.Machine

/-- Whether PWR's loops run (R457). -/
def State.loopsRun (s : State) : Bool := s.mstate ≠ mOFF && s.procRuns .pwr

/-! ## Frequency and power (R449-R452) -/

/-- f_cap after one period of mean power `p` (R450). -/
def State.nextFcap (s : State) (p : Nat) : Nat :=
  let f := s.get pwrStatus_FCAP
  let c := s.capWatts
  if 105 * c < 100 * p then max (f - 200) 800
  else if c < p then max (f - 100) 800
  else if 100 * p < 95 * c then min (f + 50) 2000
  else f

/-- CAP_UNREACHED (R450): f_cap has been 0.8 GHz with the power above CAP for 10 ms; at most once per second. -/
def State.capReview (s : State) (p : Nat) : State :=
  if s.get pwrStatus_FCAP = 800 && s.capWatts < p then
    let since := s.power.capOver.getD s.now
    let s := s.modPwr fun q => { q with capOver := some since }
    let again := match s.power.capLogged with
      | some t => decide (t + 1000000000 ≤ s.now)
      | none => true
    if since + 10000000 ≤ s.now && again then
      (s.modPwr fun q => { q with capLogged := some s.now }).logEv 0x0209 0x3FE s.capWatts (BitVec.ofNat 64 p) 0
    else s
  else s.modPwr fun q => { q with capOver := none }

/-- CAPPING_LOOP (R450): a period of 100 µs has ended with these means. -/
def execCappingLoop (vin iin pin : BitVec 16) (s : State) : Host.Outcome State Fault Refusal :=
  if !s.loopsRun then .next s
  else
    let s := ((s.put pwrIn_VIN vin.toNat).put pwrIn_IIN iin.toNat).put pwrIn_PIN pin.toNat
    .next ((s.setFcap (s.nextFcap pin.toNat)).capReview pin.toNat)

/-- An entry to a limiter stage (R451): the clocks are stretched, the entry is counted and logged; stage 2 sets the overlay. -/
def State.limEnter (s : State) (stage pin iin : Nat) : State :=
  let s := s.put pwrStatus_LIMSTAGE stage
  let s := s.modPwr fun p =>
    { p with
      limAt := s.now
      limUnder := none
      arith := if stage = 2 then 250 else 500
      fabClk := if stage = 2 then 500 else 1000 }
  let s := (s.bump (if stage = 2 then pwrLim_STAGE2 else pwrLim_STAGE1)).logEv 0x0205 0x3FE stage (BitVec.ofNat 64 pin) (BitVec.ofNat 64 iin)
  if stage = 2 then s.emChange true .overcurrent else s

/-- A stage is released (R451): stage 2 leaves stage 1 in force, whose rules follow; stage 1 eases from here. -/
def State.limRelease (s : State) (stage : Nat) : State :=
  let s := s.put pwrStatus_LIMSTAGE (stage - 1)
  let s := s.modPwr fun p => { p with limAt := s.now, limUnder := none, arith := 500, fabClk := 1000 }
  if stage = 2 then s.emChange false .overcurrent else s

/-- Without a stage in force the stretch eases by 12.5 % of the clock per 10 µs. -/
def State.limEase (s : State) : State :=
  if s.power.arith < 1000 && s.get pwrStatus_LIMSTAGE = 0 then
    let k := (s.now - s.power.limAt) / 10000
    s.modPwr fun p => { p with arith := min 1000 (p.arith + 125 * k), limAt := p.limAt + 10000 * k }
  else s

/-- LIMITER_SAMPLE (R451): input power in W and current in units of 10 mA, every 100 ns. -/
def execLimiterSample (pin iin : BitVec 16) (s : State) : Host.Outcome State Fault Refusal :=
  if s.mstate = mOFF then .next s
  else
    let p := pin.toNat
    let stage := s.get pwrStatus_LIMSTAGE
    let s := s.modPwr fun q =>
      { q with
        limOver := if 2000 < p then some (q.limOver.getD s.now) else none
        limUnder := if p < 1900 then some (q.limUnder.getD s.now) else none }
    let under := match s.power.limUnder with
      | some t => decide (t + 10000 ≤ s.now)
      | none => false
    let above := match s.power.limOver with
      | some t => decide (t + 10000000 ≤ s.now)
      | none => false
    let long := decide (s.power.limAt + 10000000 ≤ s.now)
    if stage = 2 then
      if under then done (s.limRelease 2)
      else if long then .next s.dropRails
      else .next s
    else if 6250 < iin.toNat || (stage = 1 && long && !under) then done (s.limEnter 2 p iin.toNat)
    else if stage = 1 then .next (if under then s.limRelease 1 else s)
    else if 2400 < p || above then done (s.limEnter 1 p iin.toNat)
    else .next s.limEase

/-- VOLTAGE_SETTLED (R449): a raise of the frequency is made. -/
def execVoltageSettled (cl : Fin 128) (s : State) : Host.Outcome State Fault Refusal :=
  match Tab.find s.power.volt cl with
  | some f => .next ((s.put (pwrCl_FREQ cl) f).modPwr fun p => { p with volt := Tab.erase p.volt cl })
  | none => .next s

/-- PWR.NOTICE.INTERVAL in ns; 0 selects 100 ms (R463). -/
def State.noticeNs (s : State) : Nat := (if s.get pwrNotice_INTERVAL = 0 then 100 else s.get pwrNotice_INTERVAL) * 1000000

/-- PWR_THROTTLE (R452): its cause, the lowest f(n) and the number of throttled clusters. -/
def State.throttleNotice (s : State) : State :=
  let ns := s.power.thrAt.map (·.1)
  let thermal := ns.any fun n => s.get (pwrCl_FTHERM n) < s.fmax
  let cause := (decide (s.get pwrStatus_FCAP < s.fmax)).toNat + 2 * thermal.toNat
  let low := (List.range 128).foldl (fun m n => min m (s.get (pwrCl_FREQ n))) 4095
  let s := s.modPwr fun p => { p with thrOn := true, thrFrom := if p.thrOn then p.thrFrom else p.thrAt.foldl (fun m e => min m e.2) s.now }
  s.logNotice 0x0201 0x3FE cause (BitVec.ofNat 64 low) (BitVec.ofNat 64 ns.length)

/-- THROTTLE_NOTICE_INTERVAL (R452). -/
def execThrottleNoticeInterval (s : State) : Host.Outcome State Fault Refusal :=
  if !s.loopsRun then .next s
  else
    let p := s.power
    if p.thrAt.isEmpty then
      if p.thrOn && decide (p.thrLast + s.noticeNs ≤ s.now) then
        done ((s.modPwr fun q => { q with thrOn := false }).logNotice 0x0202 0x3FE 0 (BitVec.ofNat 64 ((p.thrLast - p.thrFrom) / 1000000)) 0)
      else .next s
    else if p.thrOn || p.thrAt.any (fun e => e.2 + s.noticeNs ≤ s.now) then done s.throttleNotice
    else .next s

/-! ## Sensors and coolant (R453-R455) -/

/-- A junction's temperature in hundredths of a degree: its reading and its offset (R453). -/
def State.junction (s : State) (i : Nat) : Int := s.power.temps.getD i 0 + s.power.offsets.getD i 0

/-- The hottest junction: the lower index of equals. -/
def State.hottest (s : State) : Nat :=
  (List.range 160).foldl (fun b i => if s.junction b < s.junction i then i else b) 0

/-- The latch of R454 lets go once RST_N is asserted with every sensor below 90 °C; the core rails may then come up. -/
def State.tripReview (s : State) : State :=
  if s.power.trip && !s.power.rstN && s.power.temps.length = 160 && s.power.temps.all (fun t => t < 9000) then s.modPwr fun p => { p with thermtripN := true } else s

/-- SENSOR_SAMPLE (R453, R455): the readings are held, and the registers show them while the module is not OFF. -/
def execSensorSample (temps : List Int) (inlet outlet flow : BitVec 16) (s : State) : Host.Outcome State Fault Refusal :=
  if temps.length ≠ 160 then .fault .illFormed
  else
    let s := (s.modPwr fun p => { p with temps := temps }).tripReview
    if s.mstate = mOFF then .next s
    else
      let h := s.hottest
      let s := (s.put pwrTherm_TMAX (min 255 (s.junction h / 100).toNat)).put pwrTherm_SENSOR h
      .next (((s.put pwrCoolant_INLET inlet.toNat).put pwrCoolant_OUTLET outlet.toNat).put pwrCoolant_FLOW flow.toNat)

/-- f_therm after one pass at temperature `t` (R453). -/
def nextFtherm (t : Int) (f : Nat) : Nat := if 10500 ≤ t then max (f - 100) 800 else if t < 10000 then min (f + 50) 2000 else f

/-- THERMAL_LOOP (R453): each cluster by its own sensor, the units of the fabric die by the hottest sensor there. -/
def execThermalLoop (s : State) : Host.Outcome State Fault Refusal :=
  if !s.loopsRun || s.power.temps.isEmpty then .next s
  else
    let s := (List.range 128).foldl (fun s n => s.put (pwrCl_FTHERM n) (nextFtherm (s.junction n) (s.get (pwrCl_FTHERM n)))) s
    let f := (List.range 16).foldl (fun m i => max m (s.junction (128 + i))) (s.junction 128)
    .next (s.modPwr fun p => { p with fthermF := nextFtherm f p.fthermF }).retune

/-- THERMTRIP (R454): THERMTRIP_N is asserted, the trip is latched and the core rails are removed. -/
def execThermtrip (sensor : Fin 160) (s : State) : Host.Outcome State Fault Refusal :=
  if !s.power.inRange then .next s
  else
    let s := s.modPwr fun p =>
      { p with
        trip := true
        thermtripN := false
        temps := p.temps.set sensor (max 11500 (p.temps.getD sensor 11500)) }
    .next s.dropRails

/-! ## Emergencies (R456) -/

/-- EMERG_SET (R456, R457): an input out of range removes the core rails; in OFF only the input counts. Overcurrent is stage 2 of the
limiter. -/
def execEmergSet (src : EmSrc) (s : State) : Host.Outcome State Fault Refusal :=
  if src = .outOfRange then
    .next ((if s.power.railsUp then s.dropRails else s.goOff).modPwr fun p => { p with inRange := false, pwrOk := false })
  else if s.mstate = mOFF then .next (if src = .undervoltage then s.modPwr fun p => { p with pwrOk := false } else s)
  else if src = .overcurrent && s.get pwrStatus_LIMSTAGE ≠ 2 then .next s
  else done (s.emChange true src)

/-- EMERG_CLEAR (R456). -/
def execEmergClear (src : EmSrc) (s : State) : Host.Outcome State Fault Refusal :=
  if s.mstate = mOFF || (src = .overcurrent && s.get pwrStatus_LIMSTAGE = 2) then .next s
  else done (s.emChange false src)

/-! ## Unit power states and optics sleep (R444-R448) -/

/-- UNIT_IDLE_DWELL (R444, R445): the unit enters the next deeper state that is enabled. A PAUSED cluster is never power-gated. -/
def execUnitIdleDwell (u : PUnit) (s : State) : Host.Outcome State Fault Refusal :=
  if !s.loopsRun then .next s
  else match u with
    | .cluster n =>
      let st := s.get (pwrCl_STATE n)
      let idle := (s.clSt n = clIDLE || s.clSt n = clHALTED) && !s.power.startWait.contains n.val
      if st = 0 && (idle || s.clSt n = clPAUSED) && s.allows 50 then .next (s.put (pwrCl_STATE n) 1)
      else if st = 1 && idle && s.allows 15000 then .next (s.put (pwrCl_STATE n) 2)
      else .next s
    | .stack k =>
      let st := s.get (hbmStatus_STATE k)
      if st = 1 && s.allows 500 then .next (s.put (hbmStatus_STATE k) 2)
      else if st = 2 && s.allows 10000 then .next (s.put (hbmStatus_STATE k) 3)
      else .next s
    | .link i =>
      if s.lnk i = lkGLOST && s.allows 100 && (s.outs.get OutPort.reset i).sending.isNone then .next (s.modLink i fun l => { l with idle := true })
      else .next s

/-- UNIT_WAKE_DONE (R446): the unit is active, and a START that waited for a cluster takes effect. -/
def execUnitWakeDone (u : PUnit) (s : State) : Host.Outcome State Fault Refusal :=
  match u with
  | .cluster n => done (s.clActive n).autoState
  | .stack k => .next (s.wakeStack k)
  | .link i => .next (s.modLink i fun l => { l with idle := false })

/-- LSLEEP_AT_DUE (R448): the mask takes effect at its count. -/
def execLsleepAtDue (s : State) : Host.Outcome State Fault Refusal := if s.mstate = mOFF then .next s else done s.sleepReview

/-- LSLEEP_DRAIN_TIMEOUT (R448): the link stays in GLOST. -/
def execLsleepDrainTimeout (link : Fin 14) (s : State) : Host.Outcome State Fault Refusal :=
  if (s.link link).sleepDrain && s.unack link ≠ 0 then .next ((s.modLink link fun l => { l with sleepDrain := false }).sleepRefused link)
  else .next s

end Sys2Proof.Machine
end

