-- ==== Sys2Proof/Machine/BootRows.lean ====
section
/-!
DEFINITION. Machine/BootRows.lean: the input, RST_N and PWR_OK (R389, R454, R458, R461, R488, R489), and the power-up sequence (R421, R422,
R458-R460).
-/
namespace Sys2Proof.Machine

/-! ## Input and reset -/

/-- The module leaves OFF (R391, R458) where PWR_OK is asserted, RST_N is released and no latch keeps the core rails off. -/
def State.startUp (s : State) : State :=
  let p := s.power
  if s.mstate = mOFF && p.inRange && p.pwrOk && p.rstN && p.thermtripN && !p.cycle then
    (s.modPwr fun p => { p with phase := .ramp }).put sysState_STATE mBOOTING
  else s

/-- INPUT_IN_RANGE (R458): the input has reached the operating range and the hold begins. -/
def execInputInRange (s : State) : Host.Outcome State Fault Refusal :=
  if s.power.inRange then .next s else .next (s.modPwr fun p => { p with inRange := true, phase := .hold })

/-- PWR_OK_ASSERT (R458, R488): the input has held; a release of RST_N that waited takes effect. -/
def execPwrOkAssert (s : State) : Host.Outcome State Fault Refusal :=
  if s.mstate = mOFF && s.power.inRange && s.power.thermtripN then
    .next (s.modPwr fun p => { p with pwrOk := true, phase := .waitReset }).startUp
  else .next s

/-- POWER_REMOVED (R389, R454): the trip latch is lost with the 48 V input. -/
def execPowerRemoved (s : State) : Host.Outcome State Fault Refusal :=
  .next (s.goOff.modPwr fun p =>
    { p with inRange := false, railsUp := false, pwrOk := false, trip := false, thermtripN := true, cycle := false })

/-- RST_N_ASSERT (R461): the module is OFF; the core rails stay up, and PWR_OK keeps its level (log entry 7). -/
def execRstNAssert (s : State) : Host.Outcome State Fault Refusal :=
  .next ((s.goOff.modPwr fun p => { p with rstN := false, cycle := false, phase := if p.pwrOk then .waitReset else .off }).tripReview)

/-- RST_N_RELEASE (R458, R488, R489): SLOT_ID is sampled; with PWR_OK deasserted the release takes effect later. -/
def execRstNRelease (slotPins : BitVec 6) (s : State) : Host.Outcome State Fault Refusal :=
  if s.power.rstN then .next s else .next (s.modPwr fun p => { p with rstN := true, slotId := slotPins }).startUp

/-! ## SEC's part (R421, R422, R436) -/

/-- RAILS_RAMPED (R421, R436): SEC starts and runs its power-up self-tests; the first that fails, 1 to 6, fails boot. -/
def execRailsRamped (failedTest : Fin 7) (s : State) : Host.Outcome State Fault Refusal :=
  if s.power.phase ≠ .ramp then .next s
  else
    let s := ((s.modPwr fun p => { p with railsUp := true, phase := .secBoot }).setProc .sec ⟨.running, []⟩).reseed
    if failedTest.val = 0 then .next s
    else
      let s := (s.put secStatus_ETEST failedTest).logEv 0x0301 0x3FE failedTest 0 0 failedTest
      .next (s.bootFail 1 0)

/-- SEC_BOOT_DONE (R421, R466, R468): the header, the manifest and the slots are verified; the processors are released, or boot fails. -/
def execSecBootDone (s : State) : Host.Outcome State Fault Refusal :=
  if s.power.phase ≠ .secBoot then .next s
  else if !s.headerOk then .next (s.bootFail 7 0)
  else
    let m := s.pickManifest
    if m.1 ≠ 0 then .next (s.bootFail m.1 0)
    else
      let other := decide (s.manifestResult (s.manifest (1 - m.2)) = 0)
      let r := ((s.put imgBoot_MCOPY m.2).setFlag imgBoot_OTHER other).bootSlots (s.manifest m.2) 4 0
      match r.2 with
      | some p => .next (r.1.bootFail 6 p)
      | none => done r.1.bootRelease

/-! ## Training, clearing and READY (R370, R458-R460) -/

/-- The channel that HBM_TRAIN_FALLBACK names: 0xFF where the record has no valid entry for the stack (R464). -/
def State.refusedChan (s : State) (k : Nat) (chan : Nat) : Nat := if s.calSection (0x20000 + k * 0x10000) 0x10000 then chan else 0xFF

/-- One stack's training has ended (R459): a refusal of the cache is logged; a failed stack fences the module. -/
def State.stackTrained (s : State) (refused failed : BitVec 8) (chan : BitVec 8) (k : Nat) : State :=
  let s := if refused.getLsbD k || !s.calSection (0x20000 + k * 0x10000) 0x10000 then
      s.logEv 0x0207 0x3FE k (BitVec.ofNat 64 (s.refusedChan k chan.toNat)) 0
    else s
  if failed.getLsbD k then (s.put (hbmStatus_STATE k) 4).fenceModule 4 (0x20 + k) 0 else s.put (hbmStatus_STATE k) 1

/-- HBM_TRAINING_DONE (R459): memory clearing and the self-tests begin (R458). -/
def execHbmTrainingDone (refused failed : BitVec 8) (chan : BitVec 8) (s : State) : Host.Outcome State Fault Refusal :=
  if s.power.phase ≠ .training then .next s
  else
    let s := (List.range 8).foldl (fun s k => s.stackTrained refused failed chan k) s
    done (s.modPwr fun p => { p with phase := .clearing, cleared := false, tested := false })

/-- CLUSTER_SELFTEST_DONE (R391, R458): a failure fences the module. -/
def execClusterSelftestDone (result : BootTest) (s : State) : Host.Outcome State Fault Refusal :=
  if s.power.phase ≠ .clearing || s.power.tested then .next s
  else
    let s := s.modPwr fun p => { p with tested := true }
    let s := match result with
      | .pass => s
      | .clusterFail n => s.fenceModule 1 n 0
      | .diePortFail p => s.fenceModule 0 p 0
    done s.bootCleared

/-- Whether every torus link whose peer's light has been present is in BISQUE or a later state (R460). -/
def State.torusUp (s : State) : Bool :=
  (List.range 12).all fun i => !(s.link i).lit || (lkBISQUE ≤ s.lnk i && s.lnk i ≤ lkMISWIRED)

/-- READY_ENTRY (R460): the power-up sequence ends; from BOOTING the module enters READY, and the SVN counter is raised (R423). -/
def execReadyEntry (s : State) : Host.Outcome State Fault Refusal :=
  if s.power.phase = .links && (s.torusUp || s.power.linksAt + 1000000000 ≤ s.now) then
    let s := s.modPwr fun p => { p with phase := .done }
    if s.mstate = mBOOTING then done ({ s with hbAt := s.cone }.setMstate mREADY).raiseSvn else done s
  else .next s

end Sys2Proof.Machine
end

