-- ==== Sys2Proof/Machine/VectorVx.lean ====
section
/-!
DEFINITION. Machine/VectorVx.lean: the vector class VX (R100-R102), but for VX.RED.AR.
-/
namespace Sys2Proof.Machine

/-! ## Shared operations -/

/-- The V registers that an opcode reads and writes, and its range of the own store (R88). -/
def vxUses (s : State) (n op : Nat) (i : Issue) : List Nat × List Nat × List (Nat × Nat × Bool) :=
  let d := i.dst.toNat
  let a := i.src1.toNat
  let b := i.src2.toNat
  let old := if i.pred = 0 then [] else [d]
  let lo := storeAddr n (s.offAddr n i 1024)
  match op with
  | 0x03 => ([a, b, i.aux.toNat] ++ old, [d], [])
  | 0x18 => ([a, b], [], [])
  | 0x30 => ([], [d], [(lo, lo + 1024, false)])
  | 0x31 => ([b], [], [(lo, lo + 1024, true)])
  | 0x32 => (old, [d], [])
  | 0x33 => ([], [], [])
  | 0x38 => ([a], [], [])
  | 0x3C => ([a] ++ old, [d], [])
  | _ => if (5 ≤ op && op ≤ 10) || op = 0x28 then ([a] ++ old, [d], []) else ([a, b] ++ old, [d], [])

/-- Runs a vector instruction; it is held at issue while a collective has one of its operands (R131). -/
def runVx (n op : Nat) (i : Issue) (ek : ExtKind) (legal whole : Bool) (body : State → Exe) (s : State) :
    Host.Outcome State Fault Refusal :=
  runInstr n 2 op i ek legal whole (fun s =>
    let u := vxUses s n op i
    unheld s n u.1 u.2.1 u.2.2 (body s)) s

/-- A V register index. -/
def vOk (r : BitVec 6) : Bool := r.toNat < 32
/-- An S register index. -/
def sOk (r : BitVec 6) : Bool := r.toNat < 32
/-- A P register index. -/
def pOk (r : BitVec 6) : Bool := r.toNat < 8
/-- A P register as a destination: not P0 (R75). -/
def pdOk (r : BitVec 6) : Bool := 1 ≤ r.toNat && r.toNat < 8
/-- An A register index. -/
def aOk (r : BitVec 6) : Bool := r.toNat < 8

/-- The element codes of a V register in a format. -/
def State.vElems (s : State) (n : Nat) (r : BitVec 6) (f cnt : Nat) : List Nat := vCodes (s.vReg n r.toNat) (fmtBits f) cnt

/-- Writes the element results of a vector instruction (R80, R82): where the predicate bit is 0 the element keeps its old
value and raises no flags; the register's remaining bits are zero. Flags and the locator follow. -/
def vecWrite (s : State) (n : Nat) (i : Issue) (fd cnt : Nat) (f : Nat → CRes) : Exe :=
  let p := s.pReg n i.pred.toNat
  let old := s.vElems n i.dst fd cnt
  let rs := (List.range cnt).map fun k => if p.getLsbD k then some (f k) else none
  let codes := (rs.zip old).map fun x => match x.1 with
    | some r => r.code
    | none => x.2
  let g := (rs.foldl (fun (a : Gather × Nat) x => (match x with
    | some r => a.1.res r 0 a.2 0
    | none => a.1, a.2 + 1)) (Gather.none, 0)).1
  .flags ((s.setV n i.dst.toNat (vPack (fmtBits fd) codes)).locate n i 1 g.ev) g.fl

/-- The RESCHK exception where the unit's residue check found a mismatch (R73); otherwise `e`. -/
def resChecked (s : State) (i : Issue) (e : Exe) : Exe := if i.upset then .raise s (Exc.plain xRESCHK) else e

/-- ADD 0, SUB 1, MUL 2, DIV 4 on exact values. -/
def binExact (op : Nat) (a b : ExNum) : ARes :=
  match op with
  | 0 => nAdd a b
  | 1 => nAdd a b.negate
  | 2 => nMul a b
  | _ => nDiv a b

/-- The result of ADD, SUB, MUL or DIV on two codes (R56, R101): integer operations when all formats are integer; a fast-mode
quotient lies within 1 ulp (log entry 14). -/
def binCode (op fa fb fd : Nat) (strict sat : Bool) (r : Rnd) (a b : Nat) : CRes :=
  if isInt fa && isInt fb && isInt fd then intOp op fd sat (toSigned (fmtBits fa) a) (toSigned (fmtBits fb) b)
  else
    let c := (binExact op (decodeNum fa a) (decodeNum fb b)).into fd r sat
    if op = 4 && !strict then nudge fd 1 (Config.ulpOff op fd (BitVec.ofNat 64 a) (BitVec.ofNat 64 b)) c else c

/-- The frame of a binary arithmetic instruction: formats A, B, D, with the residue check. -/
def vxBinary (op : Nat) (cl : Fin 128) (i : Issue) (s : State) : Host.Outcome State Fault Refusal :=
  let fa := i.fmta.toNat
  let fb := i.fmtb.toNat
  let fd := i.fmtd.toNat
  runVx cl op i .no (vOk i.dst && vOk i.src1 && vOk i.src2 && elemFmt fa && elemFmt fb && elemFmt fd) false (fun s =>
    let cnt := lanes [fa, fb, fd]
    let a := s.vElems cl i.src1 fa cnt
    let b := s.vElems cl i.src2 fb cnt
    resChecked s i (vecWrite s cl i fd cnt fun k =>
      binCode op fa fb fd (s.strictFor cl i) i.sat (s.rndFor cl i k) (a.getD k 0) (b.getD k 0))) s

/-- The bound in ulp of a unary operation in a format (R56, R100). -/
def unaryUlp (op fd : Nat) (strict : Bool) : Nat :=
  match op with
  | 5 => if strict then 0 else 1
  | 6 => if strict then 0 else 1
  | 7 => 1
  | 10 => if fd = 1 then 3 else 1
  | _ => 2

/-- The frame of SQRT, RCP and the transcendental operations (R56, R100): the result lies within the stated bound of the
correctly rounded one (log entry 14); transcendental operations take formats 1-3 only. -/
def vxUnary (op : Nat) (trans check : Bool) (cl : Fin 128) (i : Issue) (s : State) : Host.Outcome State Fault Refusal :=
  let fa := i.fmta.toNat
  let fd := i.fmtd.toNat
  let ok := fun f => if trans then decide (1 ≤ f) && decide (f ≤ 3) else elemFmt f
  runVx cl op i .no (vOk i.dst && vOk i.src1 && ok fa && ok fd) false (fun s =>
    let cnt := lanes [fa, fd]
    let a := s.vElems cl i.src1 fa cnt
    let e := vecWrite s cl i fd cnt fun k =>
      let c := a.getD k 0
      nudge fd (unaryUlp op fd (s.strictFor cl i)) (Config.ulpOff op fd (BitVec.ofNat 64 c) 0)
        ((nUnary op (decodeNum fa c)).into fd (s.rndFor cl i k) i.sat)
    if check then resChecked s i e else e) s

/-- The frame of MAX, MIN, MAXNUM and MINNUM (R48). -/
def vxMinMax (op : Nat) (mx num : Bool) (cl : Fin 128) (i : Issue) (s : State) : Host.Outcome State Fault Refusal :=
  let fa := i.fmta.toNat
  let fb := i.fmtb.toNat
  let fd := i.fmtd.toNat
  runVx cl op i .no (vOk i.dst && vOk i.src1 && vOk i.src2 && elemFmt fa && elemFmt fb && elemFmt fd) false (fun s =>
    let cnt := lanes [fa, fb, fd]
    let a := s.vElems cl i.src1 fa cnt
    let b := s.vElems cl i.src2 fb cnt
    vecWrite s cl i fd cnt fun k =>
      intoFmt (isInt fa && isInt fb) fd (s.rndFor cl i k) i.sat
        (nMinMax mx num (decodeNum fa (a.getD k 0)) (decodeNum fb (b.getD k 0)))) s

/-- AND 0x20, OR 0x21, XOR 0x22, SHL 0x23, SHR 0x24, SRA 0x25 on two codes (R100): operands are sign-extended from their
formats; a shift moves FMTA's width and is extended to FMTD's. -/
def bitCode (op fa fb fd a b : Nat) : Nat :=
  let wa := fmtBits fa
  let x := toSigned wa a
  let y := toSigned (fmtBits fb) b
  let k := ofSigned wa y % wa
  let wd := fmtBits fd
  match op with
  | 0x20 => ofSigned wd (BitVec.ofInt 64 x &&& BitVec.ofInt 64 y).toInt
  | 0x21 => ofSigned wd (BitVec.ofInt 64 x ||| BitVec.ofInt 64 y).toInt
  | 0x22 => ofSigned wd (BitVec.ofInt 64 x ^^^ BitVec.ofInt 64 y).toInt
  | 0x23 => a * 2 ^ k % 2 ^ wa % 2 ^ wd
  | 0x24 => a / 2 ^ k % 2 ^ wd
  | _ => ofSigned wd (x / (2 ^ k : Nat))

/-- The frame of the bitwise and shift instructions: integer formats only. -/
def vxBitwise (op : Nat) (cl : Fin 128) (i : Issue) (s : State) : Host.Outcome State Fault Refusal :=
  let fa := i.fmta.toNat
  let fb := i.fmtb.toNat
  let fd := i.fmtd.toNat
  runVx cl op i .no (vOk i.dst && vOk i.src1 && vOk i.src2 && isInt fa && isInt fb && isInt fd) false (fun s =>
    let cnt := lanes [fa, fb, fd]
    let a := s.vElems cl i.src1 fa cnt
    let b := s.vElems cl i.src2 fb cnt
    vecWrite s cl i fd cnt fun k => .ok (bitCode op fa fb fd (a.getD k 0) (b.getD k 0))) s

/-! ## The instructions -/

/-- VX.ADD (R100). -/
def execVxAdd (cl : Fin 128) (i : Issue) (s : State) : Host.Outcome State Fault Refusal := vxBinary 0 cl i s
/-- VX.SUB (R100). -/
def execVxSub (cl : Fin 128) (i : Issue) (s : State) : Host.Outcome State Fault Refusal := vxBinary 1 cl i s
/-- VX.MUL (R100). -/
def execVxMul (cl : Fin 128) (i : Issue) (s : State) : Host.Outcome State Fault Refusal := vxBinary 2 cl i s

/-- VX.FMA (R100): a * b + c with one rounding; c is read in FMTD. -/
def execVxFma (cl : Fin 128) (i : Issue) (s : State) : Host.Outcome State Fault Refusal :=
  let fa := i.fmta.toNat
  let fb := i.fmtb.toNat
  let fd := i.fmtd.toNat
  runVx cl 3 i .no (vOk i.dst && vOk i.src1 && vOk i.src2 && vOk i.aux && elemFmt fa && elemFmt fb && elemFmt fd) false
    (fun s =>
      let cnt := lanes [fa, fb, fd]
      let a := s.vElems cl i.src1 fa cnt
      let b := s.vElems cl i.src2 fb cnt
      let c := s.vElems cl i.aux fd cnt
      resChecked s i (vecWrite s cl i fd cnt fun k =>
        (nFma (decodeNum fa (a.getD k 0)) (decodeNum fb (b.getD k 0)) (decodeNum fd (c.getD k 0))).into fd (s.rndFor cl i k) i.sat)) s

/-- VX.DIV (R56, R100). -/
def execVxDiv (cl : Fin 128) (i : Issue) (s : State) : Host.Outcome State Fault Refusal := vxBinary 4 cl i s
/-- VX.SQRT (R56, R100). -/
def execVxSqrt (cl : Fin 128) (i : Issue) (s : State) : Host.Outcome State Fault Refusal := vxUnary 5 false true cl i s
/-- VX.RCP (R56, R100). -/
def execVxRcp (cl : Fin 128) (i : Issue) (s : State) : Host.Outcome State Fault Refusal := vxUnary 6 false true cl i s
/-- VX.RSQRT (R100). -/
def execVxRsqrt (cl : Fin 128) (i : Issue) (s : State) : Host.Outcome State Fault Refusal := vxUnary 7 true false cl i s
/-- VX.EXP2 (R100). -/
def execVxExp2 (cl : Fin 128) (i : Issue) (s : State) : Host.Outcome State Fault Refusal := vxUnary 8 true false cl i s
/-- VX.LOG2 (R100). -/
def execVxLog2 (cl : Fin 128) (i : Issue) (s : State) : Host.Outcome State Fault Refusal := vxUnary 9 true false cl i s
/-- VX.TANH (R100). -/
def execVxTanh (cl : Fin 128) (i : Issue) (s : State) : Host.Outcome State Fault Refusal := vxUnary 10 true false cl i s
/-- VX.MAX (R48, R100). -/
def execVxMax (cl : Fin 128) (i : Issue) (s : State) : Host.Outcome State Fault Refusal := vxMinMax 0x10 true false cl i s
/-- VX.MIN (R48, R100). -/
def execVxMin (cl : Fin 128) (i : Issue) (s : State) : Host.Outcome State Fault Refusal := vxMinMax 0x11 false false cl i s
/-- VX.MAXNUM (R48, R100). -/
def execVxMaxnum (cl : Fin 128) (i : Issue) (s : State) : Host.Outcome State Fault Refusal := vxMinMax 0x12 true true cl i s
/-- VX.MINNUM (R48, R100). -/
def execVxMinnum (cl : Fin 128) (i : Issue) (s : State) : Host.Outcome State Fault Refusal := vxMinMax 0x13 false true cl i s

/-- A predicate register with the bits of `f` at the governed elements below `cnt`; the others keep their value (R80). -/
def predWith (old gov : BitVec 512) (cnt : Nat) (f : Nat → Bool) : BitVec 512 :=
  (List.range cnt).foldl (fun (v : BitVec 512) k =>
    if gov.getLsbD k then (if f k then v ||| (1#512 <<< k) else v &&& ~~~(1#512 <<< k)) else v) old

/-- VX.CMP (R48, R100): conditions 6-255 are reserved. -/
def execVxCmp (cl : Fin 128) (i : Issue) (s : State) : Host.Outcome State Fault Refusal :=
  let fa := i.fmta.toNat
  let fb := i.fmtb.toNat
  runVx cl 0x18 i .no (pdOk i.dst && vOk i.src1 && vOk i.src2 && elemFmt fa && elemFmt fb && i.imm8.toNat ≤ 5) false (fun s =>
    let cnt := lanes [fa, fb]
    let a := s.vElems cl i.src1 fa cnt
    let b := s.vElems cl i.src2 fb cnt
    let gov := s.pReg cl i.pred.toNat
    let r := fun k => nCompare i.imm8.toNat (decodeNum fa (a.getD k 0)) (decodeNum fb (b.getD k 0))
    let g := (List.range cnt).foldl (fun (g : Gather) k =>
      if gov.getLsbD k then let x := r k; g.add x.2.1 (x.2.2.map fun kd => (0, k, 0, kd)) else g) Gather.none
    .flags ((s.setP cl i.dst.toNat (predWith (s.pReg cl i.dst.toNat) gov cnt fun k => (r k).1)).locate cl i 1 g.ev) g.fl) s

/-- VX.SEL (R100): d := a where Pc is set, else b; it raises no flags. An element whose format is FMTD is copied. -/
def execVxSel (cl : Fin 128) (i : Issue) (s : State) : Host.Outcome State Fault Refusal :=
  let fa := i.fmta.toNat
  let fb := i.fmtb.toNat
  let fd := i.fmtd.toNat
  runVx cl 0x19 i .no (vOk i.dst && vOk i.src1 && vOk i.src2 && pOk i.aux && elemFmt fa && elemFmt fb && elemFmt fd) false
    (fun s =>
      let cnt := lanes [fa, fb, fd]
      let a := s.vElems cl i.src1 fa cnt
      let b := s.vElems cl i.src2 fb cnt
      let c := s.pReg cl i.aux.toNat
      vecWrite s cl i fd cnt fun k =>
        let x := if c.getLsbD k then (fa, a.getD k 0) else (fb, b.getD k 0)
        if x.1 = fd then .ok x.2 else .ok (convertCode x.1 fd (s.rndFor cl i k) i.sat x.2).code) s

/-- VX.AND (R100). -/
def execVxAnd (cl : Fin 128) (i : Issue) (s : State) : Host.Outcome State Fault Refusal := vxBitwise 0x20 cl i s
/-- VX.OR (R100). -/
def execVxOr (cl : Fin 128) (i : Issue) (s : State) : Host.Outcome State Fault Refusal := vxBitwise 0x21 cl i s
/-- VX.XOR (R100). -/
def execVxXor (cl : Fin 128) (i : Issue) (s : State) : Host.Outcome State Fault Refusal := vxBitwise 0x22 cl i s
/-- VX.SHL (R100). -/
def execVxShl (cl : Fin 128) (i : Issue) (s : State) : Host.Outcome State Fault Refusal := vxBitwise 0x23 cl i s
/-- VX.SHR (R100). -/
def execVxShr (cl : Fin 128) (i : Issue) (s : State) : Host.Outcome State Fault Refusal := vxBitwise 0x24 cl i s
/-- VX.SRA (R100). -/
def execVxSra (cl : Fin 128) (i : Issue) (s : State) : Host.Outcome State Fault Refusal := vxBitwise 0x25 cl i s

/-- VX.CVT (R47, R59, R62): the one vector instruction that takes E8M0 (R41). -/
def execVxCvt (cl : Fin 128) (i : Issue) (s : State) : Host.Outcome State Fault Refusal :=
  let fa := i.fmta.toNat
  let fd := i.fmtd.toNat
  runVx cl 0x28 i .no (vOk i.dst && vOk i.src1 && elemOrScale fa && elemOrScale fd) false (fun s =>
    let cnt := lanes [fa, fd]
    let a := s.vElems cl i.src1 fa cnt
    vecWrite s cl i fd cnt fun k => convertCode fa fd (s.rndFor cl i k) i.sat (a.getD k 0)) s

/-- VX.LD (R100, R101): 1 KiB of the cluster's own store, at a 128-byte-aligned offset. -/
def execVxLd (cl : Fin 128) (i : Issue) (s : State) : Host.Outcome State Fault Refusal :=
  runVx cl 0x30 i .no (vOk i.dst && sOk i.src1) true (fun s =>
    let off := s.offAddr cl i 1024
    if off % 128 ≠ 0 then .raise s (Exc.plain xALIGN (storeBase + cl * 0x1000000 + off))
    else if storeSize < off + 1024 then .raise (s.accessErr cl (storeBase + cl * 0x1000000 + off) rDECERR)
      (Exc.plain xACCESS (storeBase + cl * 0x1000000 + off) rDECERR)
    else
      let r := s.rawRead cl (storeAddr cl off) 1024
      if r.2.1 = rOK then .ok (r.1.setV cl i.dst.toNat (vOfBytes r.2.2))
      else .raise (r.1.accessErr cl (storeAddr cl off) r.2.1) (Exc.plain xACCESS (storeAddr cl off) r.2.1)) s

/-- VX.ST (R100, R101). The element format of a DEN fold is not stated, so its slot takes free values (log entry 27). -/
def execVxSt (cl : Fin 128) (i : Issue) (s : State) : Host.Outcome State Fault Refusal :=
  runVx cl 0x31 i .opt (sOk i.src1 && vOk i.src2) true (fun s =>
    let off := s.offAddr cl i 1024
    if off % 128 ≠ 0 then .raise s (Exc.plain xALIGN (storeBase + cl * 0x1000000 + off))
    else if storeSize < off + 1024 then .raise (s.accessErr cl (storeBase + cl * 0x1000000 + off) rDECERR)
      (Exc.plain xACCESS (storeBase + cl * 0x1000000 + off) rDECERR)
    else
      let r := s.rawWrite cl (storeAddr cl off) (vBytes (s.vReg cl i.src2.toNat))
      if r.2 = rOK then
        if denOf i then
          let a := r.1.fresh 64
          let b := a.2.fresh 48
          let c := b.2.fresh 32
          .ok (c.2.modCl cl fun k => { k with digs := k.digs.set DigSlot.reset (bitsOf i.ext 51 6) ⟨a.1, b.1.toNat, c.1.toNat⟩ })
        else .ok r.1
      else .raise (r.1.accessErr cl (storeAddr cl off) r.2) (Exc.plain xACCESS (storeAddr cl off) r.2)) s

/-- VX.BCAST (R100): every element := the low bits of Ss1, read as FMTD. -/
def execVxBcast (cl : Fin 128) (i : Issue) (s : State) : Host.Outcome State Fault Refusal :=
  let fd := i.fmtd.toNat
  runVx cl 0x32 i .no (vOk i.dst && sOk i.src1 && elemFmt fd) false (fun s =>
    vecWrite s cl i fd (lanes [fd]) fun _ => .ok ((s.sReg cl i.src1.toNat).toNat % 2 ^ fmtBits fd)) s

/-- VX.PMASK (R100): bits below min(Ss1, 512) := 1; the rest := 0; predicated by element (R80). -/
def execVxPmask (cl : Fin 128) (i : Issue) (s : State) : Host.Outcome State Fault Refusal :=
  runVx cl 0x33 i .no (pdOk i.dst && sOk i.src1) false (fun s =>
    let m := min (s.sReg cl i.src1.toNat).toNat 512
    .ok (s.setP cl i.dst.toNat (predWith (s.pReg cl i.dst.toNat) (s.pReg cl i.pred.toNat) 512 fun k => k < m))) s

/-! ## VX.RED (R100, R101) -/

/-- A node of the reduction: its value if any element under it is predicated on, its lowest lane, and what was raised. -/
structure RedNode where
  val : Option ExNum
  lane : Nat
  deriving DecidableEq, Repr

/-- One node of the pairwise tree: the correctly rounded sum in FMTD, or the maximum or minimum (R48, R101). -/
def redJoin (op fd : Nat) (ip sat : Bool) (r : Rnd) (g : Gather) (x y : RedNode) : Gather × RedNode :=
  match x.val, y.val with
  | none, _ => (g, ⟨y.val, x.lane⟩)
  | _, none => (g, x)
  | some a, some b =>
    if op = 0 then
      let c := intoFmt ip fd r sat (nAdd a b)
      (g.res c 0 x.lane 0, ⟨some (decodeNum fd c.code), x.lane⟩)
    else
      let m := nMinMax (op == 1) false a b
      (g.add m.fl (m.kind.map fun k => (0, x.lane, 0, k)), ⟨some m.val, x.lane⟩)

/-- One level of the tree. -/
def redLevel (op fd : Nat) (ip sat : Bool) (r : Rnd) (g : Gather) : List RedNode → Gather × List RedNode
  | x :: y :: t =>
    let j := redJoin op fd ip sat r g x y
    let k := redLevel op fd ip sat r j.1 t
    (k.1, j.2 :: k.2)
  | l => (g, l)

/-- The tree over the elements, level by level. -/
def redTree (op fd : Nat) (ip sat : Bool) (r : Rnd) (g : Gather) (l : List RedNode) : Nat → Gather × List RedNode
  | 0 => (g, l)
  | k + 1 => let x := redLevel op fd ip sat r g l; redTree op fd ip sat r x.1 x.2 k

/-- The identity of an operator in FMTD (R101). -/
def redIdentity (op fd : Nat) : Nat :=
  match op with
  | 0 => 0
  | 1 => if fd = 10 then 0x80000000 else maxCode (fmtOf fd) + 1 + 2 ^ ((fmtOf fd).bits - 1)
  | _ => if fd = 10 then 0x7FFFFFFF else maxCode (fmtOf fd) + 1

/-- VX.RED (R100, R101): sum, max or min over the predicated elements into Sd in FMTD, which is FP64, FP32 or INT32. -/
def execVxRed (cl : Fin 128) (i : Issue) (s : State) : Host.Outcome State Fault Refusal :=
  let fa := i.fmta.toNat
  let fd := i.fmtd.toNat
  let op := i.imm8.toNat
  runVx cl 0x38 i .no (sOk i.dst && vOk i.src1 && elemFmt fa && (fd = 0 || fd = 1 || fd = 10) && op ≤ 2) false (fun s =>
    let cnt := lanes [fa, fd]
    let gov := s.pReg cl i.pred.toNat
    let a := s.vElems cl i.src1 fa cnt
    let r := s.rndFor cl i 0
    let ip := isInt fa && isInt fd
    let leaves := (List.range cnt).map fun k => (⟨if gov.getLsbD k then some (decodeNum fa (a.getD k 0)) else none, k⟩ : RedNode)
    let t := redTree op fd ip i.sat r Gather.none leaves 9
    match t.2 with
    | ⟨some x, lane⟩ :: _ =>
      let c := intoFmt ip fd r i.sat (if x.isSnan then ARes.invalid 2 else .ok x)
      let g := t.1.res c 0 lane 0
      .flags ((s.setS cl i.dst.toNat (BitVec.ofNat 64 c.code)).locate cl i 1 g.ev) g.fl
    | _ => .ok (s.setS cl i.dst.toNat (BitVec.ofNat 64 (redIdentity op fd)))) s

/-- VX.SCANBITS (R102): the indices of the set bits of Va at or above Ss2, ascending, at most 256, into the lanes of Vd as
INT32; their number into Sc; lanes beyond receive -1. -/
def execVxScanbits (cl : Fin 128) (i : Issue) (s : State) : Host.Outcome State Fault Refusal :=
  runVx cl 0x3C i .no (vOk i.dst && vOk i.src1 && sOk i.src2 && sOk i.aux) false (fun s =>
    let v := s.vReg cl i.src1.toNat
    let from' := (s.sReg cl i.src2.toNat).toNat
    let found := ((List.range 8192).filter fun k => from' ≤ k && v.getLsbD k).take 256
    let s' := s.setS cl i.aux.toNat (BitVec.ofNat 64 found.length)
    vecWrite s' cl i 10 256 fun k => .ok (found.getD k 0xFFFFFFFF)) s

end Sys2Proof.Machine
end

