-- ==== Sys2Proof/Machine/FabricFx.lean ====
section
/-!
DEFINITION. Machine/FabricFx.lean: the fused instructions (R116-R140), the class FX (R121-R123, R133-R136), and the answer to a
result REPAIR (R169).
-/
namespace Sys2Proof.Machine

/-! ## Issuing a collective (R129-R139, R162, R174) -/

/-- The plan register that the XF word names (R81). -/
def xfPlan (i : Issue) : Nat := bitsOf i.ext 58 6

/-- Watch entries of one pass over the phases from `ph` on (R174): `r` chunks in the first of them. -/
def Plan.watchNeed (p : Plan) : List Nat → Nat → Nat
  | [], _ => 0
  | ph :: rest, r => (r + 63) / 64 + 1 + p.watchNeed rest ((r + p.n ph - 1) / p.n ph)

/-- W of R174. -/
def Coll.watchNeed (c : Coll) (p : Plan) : Nat :=
  let ps := List.range (c.phases p)
  p.watchNeed ps c.nchunks + (if p.bfx then p.watchNeed ps (c.count 1) else 0)

/-- The watch part of CTXQ (R172). -/
def PlanAcct.watchPart (a : PlanAcct) : Nat := a.plan.ctxq - a.creditPart

/-- Rules of R118, R127, R165 and R174 that every fused instruction shares. -/
def Coll.legal (c : Coll) (a : PlanAcct) (s : State) : Bool :=
  let p := a.plan
  c.rnd != 2 && c.nchunks ≤ 16384 && c.watchNeed p ≤ a.watchPart
  && (!c.kind.reduces
    || ((p.op != 3 && p.op != 4 || c.isInt) && !(p.bfx && c.isInt)
      && (p.bfx || c.isInt || !(p.op == 0 || p.op == 5) || a.fix == s.flag digDet_DETERMINISTIC)))

/-- The passes of a collective. -/
def Coll.passes (c : Coll) (p : Plan) : List Nat := if p.bfx && c.kind.reduces then [0, 1] else [0]

/-- Allocates the watch entries of one phase and pass (R162): FWD and RES are 1 outside the phase's range, and FWD is 1 where this
member contributes nothing. -/
def State.watchPhase (s : State) (c : Coll) (p : Plan) (p1 ph : Nat) : State :=
  let r := c.range p p1 ph
  if r.2 = 0 then s
  else
    (List.range ((r.1 + r.2 - 1) / 64 - r.1 / 64 + 1)).foldl (fun s k =>
      let j0 := (r.1 / 64 + k) * 64
      let out := BitVec.ofNat 64 (maskOf ((List.range 64).filter fun b => j0 + b < r.1 || r.1 + r.2 ≤ j0 + b))
      match s.freeEntry with
      | some x => s.setWatch x ⟨c.id, chunkOf c.cl p1 ph j0, s.now + s.arr, 0,
          if c.kind.reduces then out else BitVec.allOnes 64, out⟩
      | none => s) s

/-- A context that opened before the issue learns its EMASK (R159). -/
def State.issueCtx (s : State) (c : Coll) (a : PlanAcct) (x : Nat) : State :=
  match s.accAt x with
  | some k =>
    let e := c.emask a k.chunk
    let got := k.parked.foldl (fun m y => m ||| y.1) k.rmask
    if e = 0 then (s.discardSum x).bump klnCntBadmask_COUNT
    else
      let s := s.setGeom x a c
      if outside got e then ((s.discardSum x).bump klnCntBadmask_COUNT).repairRound x a true
      else match s.accAt x with
        | some d => ((if d.fix then s.drain x (a.seqs d) 64 else s)).finalise x a
        | none => s
  | none => s

/-- Issues a collective (R134, R137, R139, R162): its watch entries, the contexts already open, and its contributions in the source
queue; `parts` are the chunks that this member sends in a gather. -/
def State.issueColl (s : State) (c : Coll) (parts : List Contrib) : State :=
  match s.plan c.cl c.plan with
  | some a =>
    let p := a.plan
    let s := { s with colls := s.colls ++ [c] }.modPlan c.cl c.plan fun a => { a with q := a.q + 1 }
    let s := (c.passes p).foldl (fun s p1 => (List.range (c.phases p)).foldl (fun s ph => s.watchPhase c p p1 ph) s) s
    let early := s.ctx.filterMap fun e => match e.2 with
      | .acc k => if k.coll = c.id && ckCl k.chunk = c.cl && !k.comp && !k.issued && k.st == .opened then some e.1 else none
      | .watch _ => none
    let s := early.foldl (fun s x => s.issueCtx c a x) s
    let mine := if !c.kind.reduces then parts
      else
        let p1 := if p.bfx then 1 else 0
        (List.range (c.count p1)).map fun j => ⟨c.id, chunkOf c.cl p1 0 j, false, c.words p p1 j⟩
    s.modPlan c.cl c.plan fun a => { a with queue := a.queue ++ mine }
  | none => s

/-- Whether a fused instruction of a plan must wait at issue (R135, R174): for room, and until the collective that has its ID, which is
then the oldest, has completed (log entry 123). -/
def State.collFull (s : State) (c : Coll) (a : PlanAcct) : Bool :=
  64 ≤ s.colls.countP (fun d => d.cl == c.cl && d.plan == c.plan) || (s.coll c.cl c.id).isSome || a.watchPart < s.watchCount c.cl c.plan + c.watchNeed a.plan

/-- A collective of an instruction at the PC, before its sizes and data are known. -/
def State.newColl (s : State) (n : Nat) (i : Issue) (kind : Fused) (a : PlanAcct) : Coll :=
  { cl := n, plan := xfPlan i, q := a.q, kind := kind, pc := s.pc n, seq := (s.cl n).seq, op := a.plan.op,
    issue := { i with strict := s.strictFor n i }, fmt := i.fmtd.toNat, rnd := s.rndMode n i, isInt := false, src := .none, dst := .none,
    root := 0, nchunks := 0, part := 0, n1 := 1, vals := [], exps := [], agreed := [], next := 0, landed := [], exc := 0,
    stall := .runs (s.now + a.plan.stallNs), fired := none, fail := none }

/-- A collective takes its elements (R65, R67, R127, R130). -/
def Coll.withVals (c : Coll) (p : Plan) (vals : List Nat) : Coll :=
  { c with vals := vals, exps := if p.bfx then (blocksOf vals (vals.length / 64 + 1)).map blockExp else [] }

/-- Chunks of `n` elements of a reduction. -/
def Plan.chunksOf (p : Plan) (n : Nat) : Nat := (n + p.epc - 1) / p.epc

/-- Issues a collective and completes the instruction with its handle in Sd. -/
def issueFused (s : State) (c : Coll) (sd : BitVec 6) (parts : List Contrib) (fl : Nat) : Exe :=
  .handle ((s.issueColl c parts).setS c.cl sd.toNat (BitVec.ofNat 64 c.id)) fl c.id

/-- The frame of a fused instruction (R129): the XF word names a valid plan. -/
def runFused (n cls op : Nat) (i : Issue) (legal : Bool) (body : PlanAcct → State → Exe) (s : State) :
    Host.Outcome State Fault Refusal :=
  settled (runInstr n cls op i .req legal true (fun s =>
    match s.plan n (xfPlan i) with
    | some a => body a s
    | none => .illegal s) s)

/-! ## The MX forms (R103, R104, R129, R130) -/

/-- The count tensor T(d + 1) of a sum-with-count has the shape of Td and holds INT32 (R128; log entry 29). -/
def State.countOk (s : State) (n d : Nat) (op : Nat) : Bool :=
  op != 5 || (d < 63 && s.tensorOk n (d + 1) 10 true && sameDims (TD.of (s.tReg n d)) (TD.of (s.tReg n (d + 1)))
    && !(TD.of (s.tReg n (d + 1))).bsc)

/-- The ranges that a tensor destination and its count tensor write. -/
def State.destHz (s : State) (n d op : Nat) : List (Nat × Nat × Bool) :=
  (TD.of (s.tReg n d)).hz true ++ (if op = 5 then (TD.of (s.tReg n (d + 1))).hz true else [])

/-- MX.MMA.RS and MX.MMA.AR. -/
def mxFused (kind : Fused) (op : Nat) (cl : Fin 128) (i : Issue) (s : State) : Host.Outcome State Fault Refusal :=
  runFused cl 3 op i (sIdx i.dst && mxFmt i.fmta.toNat && mxFmt i.fmtb.toNat && mxFmt i.fmtd.toNat) (fun ac s =>
    let p := ac.plan
    let a := s.mPair cl i.src1.toNat
    let b := s.mPair cl i.src2.toNat
    let d := i.aux.toNat
    let td := TD.of (s.tReg cl d)
    let m := a.1.dim1
    let w := b.1.dim0
    let nb := mxBlocks m w
    let a0 := i.imm8.toNat / 4 % 8
    let wacc := i.imm8.getLsbD 0
    let ip := intPath a.1 b.1
    let sets := (List.range (min nb 8)).map (a0 + ·)
    let c0 := s.newColl cl i kind ac
    let c := { c0 with
      isInt := ip
      src := .acc a0 nb
      dst := .tensor (s.tReg cl d) (s.tReg cl (d + 1))
      nchunks := p.chunksOf (m * w)
      part := m
      n1 := w }
    let fr := c.finalRange p
    let recv := if kind == .mmaRs then min (fr.2 * p.epc) (m * w - fr.1 * p.epc) else m * w
    mxFree s cl sets (pairHz a false ++ pairHz b false ++ s.destHz cl d p.op)
      (if !mmaLegal s cl i.src1.toNat i.src2.toNat i.fmta.toNat i.fmtb.toNat || !s.tensorOk cl d i.fmtd.toNat true || td.bsc
          || 8 < a0 + nb then .illegal s
      else if a.1.empty || b.1.empty then .ok s
      else if td.count ≠ recv || !s.countOk cl d p.op || !c.legal ac s then .illegal s
      else if s.collFull c ac then .stall s
      else if !inStore cl a then outsideStore s cl a.1
      else if !inStore cl b then outsideStore s cl b.1
      else
        let r := readPair cl s a b
        if r.2.1 ≠ rOK then .raise r.1 (Exc.plain xACCESS r.2.2.1 r.2.1)
        else if i.upset then .raise r.1 (Exc.plain xMXCHK)
        else
          let f := if ip then 10 else 1
          let es := (List.range (m * w)).map fun e =>
            let k := tileElem m w e
            let x := mxElem r.2.2.2.1 r.2.2.2.2 (s.strictFor cl i) wacc ip ExNum.zero k.1 k.2
            (k, x.kidx, intoFmt ip f .rne i.sat x.val)
          let g := es.foldl (fun (g : Gather) x => let t := tileOf w x.1.1 x.1.2; g.res x.2.2 t.1 t.2 x.2.1) Gather.none
          let tag := mmaTag ip wacc
          let sets : Tab (Tab ExNum) := es.foldl (fun t x =>
            let blk := x.1.1 / 128 * ((w + 127) / 128) + x.1.2 / 128
            Tab.insert t blk (((Tab.find t blk).getD []).set ExNum.zero (x.1.1 % 128 * 128 + x.1.2 % 128) (decodeNum f x.2.2.code))) []
          let u := (List.range nb).foldl (fun u k => u.setA cl (a0 + k) ⟨tag, (Tab.find sets k).getD [], true⟩) r.1
          issueFused (u.locate cl i 0 g.ev) (c.withVals p (es.map fun x => x.2.2.code)) i.dst [] g.fl)) s

/-- MX.MMA.RS (R126, R129). -/
def execMxMmaRs (cl : Fin 128) (i : Issue) (s : State) : Host.Outcome State Fault Refusal := mxFused .mmaRs 0x05 cl i s

/-- MX.MMA.AR (R126, R129). -/
def execMxMmaAr (cl : Fin 128) (i : Issue) (s : State) : Host.Outcome State Fault Refusal := mxFused .mmaAr 0x06 cl i s

/-! ## VX.RED.AR (R129, R130) -/

/-- VX.RED.AR. -/
def execVxRedAr (cl : Fin 128) (i : Issue) (s : State) : Host.Outcome State Fault Refusal :=
  let fa := i.fmta.toNat
  let fd := i.fmtd.toNat
  runFused cl 2 0x40 i (vOk i.dst && vOk i.src1 && sIdx i.aux && elemFmt fa && elemFmt fd) (fun ac s =>
    let p := ac.plan
    let d := i.dst.toNat
    let n := lanes [fa, fd]
    let c0 := s.newColl cl i .redAr ac
    let c := { c0 with
      isInt := isInt fa
      src := .vreg i.src1.toNat
      dst := .vreg d
      nchunks := p.chunksOf n }
    unheld s cl [i.src1.toNat] (if p.op = 5 then [d, d + 1] else [d]) []
      (if !c.legal ac s || (p.bfx && fa = 0) || (p.op = 5 && 30 < d) then .illegal s
      else if s.collFull c ac then .stall s
      else if i.upset then .raise s (Exc.plain xRESCHK)
      else
        let es := (s.vElems cl i.src1 fa n).map fun x =>
          if isInt fa then intoFmt true 10 .rne i.sat (.ok (decodeNum fa x)) else convertCode fa 1 .rne i.sat x
        let g := (es.foldl (fun (g : Gather × Nat) x => (g.1.res x 0 g.2 0, g.2 + 1)) (Gather.none, 0)).1
        issueFused (s.locate cl i 1 g.ev) (c.withVals p (es.map (·.code))) i.aux [] g.fl)) s

/-! ## Gather-only forms (R125, R126, R129, R130) -/

/-- Bytes of a tensor's packed row-major elements. -/
def TD.bytes (t : TD) : Nat := (t.count * fmtBits t.fmt + 7) / 8

/-- The packed row-major bytes of a tensor that was read. -/
def Data.packed (d : Data) : List Byte := packBits (fmtBits d.td.fmt) d.codes

/-- The contributions that parts of `len` bytes at `off` make: chunk `k` of a part is numbered `base + k`. -/
def partChunks (id cl ph base off len ck : Nat) (b : List Byte) : List Contrib :=
  (List.range ((len + ck - 1) / ck)).map fun k =>
    ⟨id, chunkOf cl 0 ph (base + k), true, (b.drop (off + k * ck)).take (min ck (len - k * ck))⟩

/-- The frame of TX.AG, FX.BCAST and FX.A2A: `size` gives the chunks of one source and of the collective and the bytes of Td,
`bad` what else is reserved, `sends` whether this member sends, and `cut` its contributions. -/
def gatherFused (kind : Fused) (cls op : Nat) (shape : Plan → Nat → Nat × Nat × Nat × Nat) (bad : Plan → Nat → Bool) (root : Nat)
    (sends : Plan → Bool) (cut : Plan → Coll → List Byte → List Contrib) (cl : Fin 128) (i : Issue) (s : State) :
    Host.Outcome State Fault Refusal :=
  let f := i.fmtd.toNat
  runFused cl cls op i (sIdx i.dst && i.fmta == i.fmtd && elemOrScale f) (fun ac s =>
    let p := ac.plan
    let td := TD.of (s.tReg cl i.src1.toNat)
    let ta := TD.of (s.tReg cl i.src2.toNat)
    let sh := shape p ta.bytes
    let c0 := s.newColl cl i kind ac
    let c := { c0 with
      src := if sends p then .tensor (s.tReg cl i.src2.toNat) else .none
      dst := if kind == .bcast && sends p then .none else .tensor (s.tReg cl i.src1.toNat) 0
      root := root
      part := sh.1
      n1 := sh.2.1
      nchunks := sh.2.2.1 }
    whileHeld s cl (unheld s cl [] [] (ta.hz false ++ td.hz true)
      (if !s.tensorOk cl i.src1.toNat f true || !s.tensorOk cl i.src2.toNat f false || td.bsc || bad p ta.bytes then .illegal s
      else if ta.empty || td.empty then (if ta.empty && td.empty then .ok s else .illegal s)
      else if td.bytes ≠ sh.2.2.2 || !c.legal ac s then .illegal s
      else if s.collFull c ac then .stall s
      else if !sends p then issueFused s c i.dst [] 0
      else
        let r := readTensor (busPort cl) s ta
        if r.2.1 ≠ rOK then .raise r.1 (Exc.plain xACCESS r.2.2.1 r.2.1)
        else issueFused r.1 c i.dst (cut p c r.2.2.2.packed) 0))) s

/-- Chunks of `n` bytes. -/
def Plan.byteChunks (p : Plan) (n : Nat) : Nat := (n + p.chunkBytes - 1) / p.chunkBytes

/-- TX.AG (R126, R129, R130). -/
def execTxAg (cl : Fin 128) (i : Issue) (s : State) : Host.Outcome State Fault Refusal :=
  gatherFused .ag 4 0x08 (fun p b => (b, p.byteChunks b, p.members * p.byteChunks b, b * p.members)) (fun _ _ => false) 0
    (fun _ => true) (fun p c b => partChunks c.id c.cl (p.nph - 1) (p.position * c.n1) 0 c.part p.chunkBytes b) cl i s

/-- FX.BCAST (R126, R129, R130): the root is IMM8[4:0]. -/
def execFxBcast (cl : Fin 128) (i : Issue) (s : State) : Host.Outcome State Fault Refusal :=
  let root := i.imm8.toNat % 32
  gatherFused .bcast 5 0x02 (fun p b => (b, p.byteChunks b, p.byteChunks b, b)) (fun p _ => (p.ph 0).nm < root) root
    (fun p => (p.ph 0).idx = root) (fun p c b => partChunks c.id c.cl 0 0 0 c.part p.chunkBytes b) cl i s

/-- FX.A2A (R126, R129, R130): part j of Ta goes to member j. -/
def execFxA2a (cl : Fin 128) (i : Issue) (s : State) : Host.Outcome State Fault Refusal :=
  gatherFused .a2a 5 0x03 (fun p b => (b / p.n 0, p.byteChunks (b / p.n 0), p.n 0 * p.byteChunks (b / p.n 0), b))
    (fun p b => b % p.n 0 ≠ 0) 0 (fun _ => true)
    (fun p c b => (List.range (p.n 0)).flatMap fun j => partChunks c.id c.cl 0 (j * c.n1) (j * c.part) c.part p.chunkBytes b) cl i s

/-! ## Plans (R119-R123) -/

/-- A phase field (R120). -/
def phaseOf (w : Nat) : Phase := ⟨w % 4, w / 4 % 32, w / 128 % 32, w / 4096 % 32, w / 2 ^ 17 % 32⟩

/-- A plan descriptor (R119); STALL 0 keeps the default. -/
def planOf (w0 w1 w2 : Nat) : Plan :=
  { alg := w0 / 4 % 4, op := w0 / 16 % 16, bfx := w0 / 256 % 2 == 1, chunk := w0 / 512 % 8, h := w0 / 4096 % 16,
    stall := w0 / 2 ^ 16 % 2 ^ 16, ctxq := w0 / 2 ^ 32 % 2 ^ 16, cellq := w0 / 2 ^ 48 % 2 ^ 16,
    phases := ([phaseOf w1, phaseOf (w1 / 2 ^ 32), phaseOf w2]).take (w0 % 4) }

/-- Whether a phase is one that this module can be in (R120, R121). -/
def State.phaseOk (s : State) (alg : Nat) (f : Phase) : Bool :=
  let e := s.extent f.axis
  f.axis ≠ 3 && f.step ≠ 0 && f.idx ≤ f.nm && f.nm * f.step < e && (f.base + f.idx * f.step) % e == axisOf s.coord f.axis
    && (alg != 1 || (f.nm + 1) * f.step == e)

/-- The checks of R121 on a plan, but for collectives in flight; `f` is that of R172. -/
def State.planOk (s : State) (p : Plan) (f : Nat) : Bool :=
  let least := p.cr f * f * p.sources * p.nph
  1 ≤ p.nph && p.alg ≠ 3 && p.op ≤ 5 && p.chunk ≤ 4 && p.h ≠ 15 && p.stall ≤ 50000 && p.ctxq ≠ 0 && p.cellq ≠ 0
    && p.phases.all (s.phaseOk p.alg) && ((p.phases.map (·.axis)).eraseDups.length == p.nph)
    && (!p.bfx || p.op == 0 || p.op == 5) && 2 * f * p.sources * p.nph ≤ p.ctxq && least ≤ p.cellq

/-- Whether a cluster has a collective of a plan register in flight. -/
def State.planBusy (s : State) (n p : Nat) : Bool := s.colls.any fun c => c.cl == n && c.plan == p

/-- Whether the contexts and cells of a plan can be reserved when the old plan of its register counts as released (R122). -/
def State.quotaOk (s : State) (n g : Nat) (p : Plan) : Bool :=
  let rest := s.plans.filter fun e => e.1 ≠ n * 64 + g
  rest.foldl (fun a e => a + e.2.plan.ctxq) p.ctxq ≤ s.get klnCtxAllow_ALLOW
    && rest.foldl (fun a e => a + e.2.plan.cellq) p.cellq ≤ s.planGroups

/-- A plan is loaded (R122, R123, R170, R173). -/
def State.loadPlan (s : State) (n g : Nat) (p : Plan) (fix : Bool) : State :=
  let s := s.releasePlan n g
  { s with
    plans := s.plans.insert (n * 64 + g) ⟨p, fix, s.now, 0, [], [], [], [], []⟩
    idDone := (List.range 64).foldl (fun t q => t.insert (n * 4096 + g * 64 + q) s.now) s.idDone }

/-- FX.PLAN (R121, R122). -/
def execFxPlan (cl : Fin 128) (i : Issue) (s : State) : Host.Outcome State Fault Refusal :=
  runInstr cl 5 0x00 i .no (sIdx i.src1) true (fun s =>
    let off := (s.sReg cl i.src1.toNat).toNat
    let at_ := storeAddr cl off
    let g := i.dst.toNat
    unheld s cl [] [] [(at_, at_ + 32, false)]
      (if off % 32 ≠ 0 then .raise s (Exc.plain xALIGN at_)
      else if storeSize < off + 32 then .raise (s.accessErr cl at_ rDECERR) (Exc.plain xACCESS at_ rDECERR)
      else
        let r := s.rawRead cl at_ 32
        if r.2.1 ≠ rOK then .raise (r.1.accessErr cl at_ r.2.1) (Exc.plain xACCESS at_ r.2.1)
        else
          let w := fun (k : Nat) => natLE ((r.2.2.drop (8 * k)).take 8)
          let p := planOf (w 0) (w 1) (w 2)
          let fix := s.flag digDet_DETERMINISTIC
          if !s.planOk p (if fix then 2 else 1) || s.planBusy cl g then .illegal r.1
          else if !s.quotaOk cl g p then .raise r.1 ⟨xCOLL, 0, 2 ^ 37, noHandle, s.pc cl⟩
          else .ok (r.1.loadPlan cl g p fix))) s

/-- FX.PFREE (R123, R133). -/
def execFxPfree (cl : Fin 128) (i : Issue) (s : State) : Host.Outcome State Fault Refusal :=
  runInstr cl 5 0x01 i .no true true (fun s =>
    if s.planBusy cl i.dst.toNat then .illegal s
    else if (s.plan cl i.dst.toNat).isSome then .ok (s.releasePlan cl i.dst.toNat) else .ok s) s

/-! ## Waits (R136, R145) -/

/-- FX.WAIT (R136, R145). -/
def execFxWait (cl : Fin 128) (i : Issue) (s : State) : Host.Outcome State Fault Refusal :=
  runInstr cl 5 0x04 i .no (sIdx i.src1) true (fun s => fxWaitExe cl (s.sReg cl i.src1.toNat).toNat s) s

/-- FX.TEST (R136, R145). -/
def execFxTest (cl : Fin 128) (i : Issue) (s : State) : Host.Outcome State Fault Refusal :=
  runInstr cl 5 0x05 i .no (sIdx i.dst && sIdx i.src1) true (fun s =>
    let h := (s.sReg cl i.src1.toNat).toNat
    match fxWaitExe cl h s with
    | .wait t _ => .ok (t.setS cl i.dst.toNat 0)
    | .done t _ _ _ _ => .ok (t.setS cl i.dst.toNat 1)
    | e => e) s

/-- FX.FENCE (R133, R145). -/
def execFxFence (cl : Fin 128) (i : Issue) (s : State) : Host.Outcome State Fault Refusal :=
  runInstr cl 5 0x06 i .no true true (fun s => fxFenceExe cl s) s

/-! ## The answer to a result REPAIR (R169) -/

/-- The bytes at [lo, hi) of a tensor's packed row-major elements: only the lines that hold them are read. -/
def State.heldBytes (s : State) (cl : Nat) (t : TD) (lo hi : Nat) : State × Nat × Nat × List Byte :=
  let w := fmtBits t.fmt
  let e0 := 8 * lo / w
  let e1 := min t.count ((8 * hi + w - 1) / w)
  let place := fun (l : Nat) => let i := t.index l; let p := t.place i.1 i.2.1; (t.lineAddr i.2.2 p.1, p.2)
  let ps := (List.range (e1 - e0)).map fun k => place (e0 + k)
  let as := (ps.map (·.1)).eraseDups
  let r := readLines (busPort cl) t.lineBytes s as
  let line := fun (a : Nat) => r.2.2.2.getD (as.idxOf a) 0
  let v := (ps.reverse.foldl (fun acc x => acc * 2 ^ w + line x.1 / 2 ^ (x.2 * w) % 2 ^ w) 0) / 2 ^ (8 * lo - e0 * w)
  (r.1, r.2.1, r.2.2.1, bytesLE (hi - lo) (v % 256 ^ (hi - lo)))

/-- Where in the held source of a gather-only collective the requested chunk lies, [lo, hi) in bytes; none where this member is not
its owner (R169). An all-to-all part is found by the line index of the member that asks. -/
def State.heldSpan (s : State) (c : Coll) (p : Plan) (chunk from_ : Nat) : Option (Nat × Nat) :=
  let j := ckJ chunk
  let ck := p.chunkBytes
  let span := fun (off k : Nat) => if k * ck < c.part then some (off + k * ck, off + min c.part ((k + 1) * ck)) else none
  if !c.hasChunk p chunk then none
  else match c.kind with
    | .bcast => if c.root = (p.ph 0).idx then span 0 j else none
    | .a2a =>
      if j / c.n1 = (p.ph 0).idx then
        (match s.memberOf (p.ph 0) from_ with
          | some k => span (k * c.part) (j % c.n1)
          | none => none)
      else none
    | .ag => if ckPh chunk + 1 = p.nph && j / c.n1 = p.position then span 0 (j % c.n1) else none
    | _ => none

/-- REPAIR_RESULT (R169): the owner answers point to point from its HELD context, or for the gather-only instructions from its held
source, with the AGE of the request. A source that cannot be read answers nothing and fails the collective (R137). -/
def execRepairResult (s : State) : Host.Outcome State Fault Refusal :=
  match s.takeHead 18 (fun p => p.typ == tREPAIR && p.cmask == 0) with
  | none => .next s
  | some (d, s) =>
    let q := d.pkt
    let cl := q.pair.1
    let s := s.release 0x131 d.cells
    match s.kilnPlan q with
    | none => done (s.bump klnCntStale_COUNT)
    | some a =>
      let p := a.plan
      let mask := 2 ^ p.n (ckPh q.chunk) - 1
      let held := match s.findAcc q.coll q.chunk with
        | some (_, c) => if c.st = .held && c.hres then some c else none
        | none => none
      match held with
      | some c =>
        let b := s.accData c
        let pk := collPkt (if b.isEmpty then tDONE else tREDRES) q.src.toNat q.coll q.chunk (if ckP1 q.chunk = 1 then 14 else c.fmt) p.op mask
          0x131 0 b
        let r := if b.isEmpty then (s, false) else s.addRef (groupCells c.group)
        done (r.1.kilnSend pk (if r.2 then some c.group else none) (some q.age.toNat))
      | none =>
        match s.coll cl q.coll with
        | none => done (s.bump klnCntRepairUnserved_COUNT)
        | some c =>
          match s.heldSpan c p q.chunk q.src.toNat, c.src with
          | some (lo, hi), .tensor ta =>
            let r := s.heldBytes cl (TD.of ta) lo hi
            if r.2.1 = rOK then
              done (r.1.fiSend cl (collPkt tREDRES q.src.toNat q.coll q.chunk c.fmt p.op mask (fiFlow cl q.pair.2) 0 r.2.2.2)
                (some q.age.toNat))
            else done (((r.1.bump klnCntRepairUnserved_COUNT).kilnFault 2 q.coll q.chunk).failColl cl q.coll (ckPh q.chunk))
          | _, _ => done (s.bump klnCntRepairUnserved_COUNT)

end Sys2Proof.Machine
end

