-- ==== Sys2Proof/Machine/MemRows.lean ====
section
/-!
DEFINITION. Machine/MemRows.lean: what the HBM controllers do by themselves (R357, R361, R366-R368).
-/
namespace Sys2Proof.Machine

/-- PATROL_READ (R366-R368): the next 64 B unit of a stack in service is read, and corrections are written back. -/
def execPatrolRead (stack : Fin 8) (rpt : StackReport) (s : State) : Host.Outcome State Fault Refusal :=
  if s.get (hbmStatus_STATE stack) = 1 && s.get (hbmScrub_PERIOD stack) ≠ 0 then
    let pos := s.get (hbmScrub_POS stack)
    let unit := hbmUnplace s.hbmKey stack (pos / 2 ^ 24) (pos % 2 ^ 24 * 64)
    .next ((s.hbmRead 0x3FD unit rpt true).1.put (hbmScrub_POS stack) (pos + 1))
  else .next s

/-- HBM_REFRESH (R357): a stack in service is refreshed, which changes no data. -/
def execHbmRefresh (stack : Fin 8) (s : State) : Host.Outcome State Fault Refusal :=
  if s.stackReady stack then .next { s with hbm := s.hbm.modify HbmSt.reset stack fun h => { h with refresh := h.refresh + 1 } }
  else .next s

/-- HBM_TEMP_POLL (R357, R463): PWR reads a stack's temperature; HMAX is that of the hottest stack. -/
def execHbmTempPoll (stack : Fin 8) (temp : BitVec 8) (s : State) : Host.Outcome State Fault Refusal :=
  if s.procRuns .pwr && s.stackReady stack then
    let s := s.put (hbmStatus_TEMP stack) temp.toNat
    .next (s.put pwrTherm_HMAX ((List.range 8).foldl (fun m k => max m (s.get (hbmStatus_TEMP k))) 0))
  else .next s

/-- IMB_TIME of a stack in windows of 1 ms (R361, R384). -/
def State.hbmImbTime (s : State) (k : Nat) : Nat := if s.get (hbmChanImbal_IMB_TIME k) = 0 then 10 else s.get (hbmChanImbal_IMB_TIME k)

/-- The busiest pseudo-channel of a window and its accesses; the lower one of equals. -/
def busiest (w : Tab Nat) : Nat × Nat := w.foldl (fun b e => if b.2 < e.2 then e else b) (0, 0)

/-- HBM_IMBALANCE_WINDOW (R361): a window of 1 ms ends. -/
def execHbmImbalanceWindow (stack : Fin 8) (s : State) : Host.Outcome State Fault Refusal :=
  let h := s.hbm.get HbmSt.reset stack
  let b := busiest h.win
  let total := h.win.foldl (fun a e => a + e.2) 0
  let s := s.put (hbmChanImbal_RATIO stack) (if total = 0 then 0 else min (b.2 * 1024 / total) 65535)
  let bad := if 4 * total < 64 * b.2 && 62500 ≤ b.2 then h.bad + 1 else 0
  let hit := decide (s.hbmImbTime stack ≤ bad)
  let s := { s with hbm := s.hbm.set HbmSt.reset stack { h with win := [], bad := if hit then 0 else bad } }
  if hit then
    done (((s.put (hbmChanImbal_LATCH stack) 1).put (hbmChanImbal_PC stack) b.1).logNotice (0x2003 + 0x100 * stack) 0x3FE 0 0
      (BitVec.ofNat 64 b.1))
  else .next s

end Sys2Proof.Machine
end

