-- ==== Sys2Proof/Machine/Dispatch.lean ====
section
/-!
DEFINITION. Machine/Dispatch.lean: the meaning of every command, one arm per constructor of Instr.
-/
namespace Sys2Proof.Machine

/-- The effect of one command on everything but the queue. -/
def exec (i : Instr) (s : State) : Host.Outcome State Fault Refusal :=
  match i with
  | .cxNop cl w => Sys2Proof.Machine.execCxNop cl w s
  | .cxJmp cl w => Sys2Proof.Machine.execCxJmp cl w s
  | .cxBz cl w => Sys2Proof.Machine.execCxBz cl w s
  | .cxBnz cl w => Sys2Proof.Machine.execCxBnz cl w s
  | .cxBlt cl w => Sys2Proof.Machine.execCxBlt cl w s
  | .cxLoop cl w => Sys2Proof.Machine.execCxLoop cl w s
  | .cxCall cl w => Sys2Proof.Machine.execCxCall cl w s
  | .cxRet cl w => Sys2Proof.Machine.execCxRet cl w s
  | .cxWaitcone cl w => Sys2Proof.Machine.execCxWaitcone cl w s
  | .waitconeDue cl => Sys2Proof.Machine.execWaitconeDue cl s
  | .cxFence cl w => Sys2Proof.Machine.execCxFence cl w s
  | .cxMode cl w => Sys2Proof.Machine.execCxMode cl w s
  | .cxRdmode cl w => Sys2Proof.Machine.execCxRdmode cl w s
  | .cxHalt cl w => Sys2Proof.Machine.execCxHalt cl w s
  | .cxBrk cl w => Sys2Proof.Machine.execCxBrk cl w s
  | .cxTrap cl w => Sys2Proof.Machine.execCxTrap cl w s
  | .sxAdd cl w => Sys2Proof.Machine.execSxAdd cl w s
  | .sxAddi cl w => Sys2Proof.Machine.execSxAddi cl w s
  | .sxSub cl w => Sys2Proof.Machine.execSxSub cl w s
  | .sxMul cl w => Sys2Proof.Machine.execSxMul cl w s
  | .sxMulh cl w => Sys2Proof.Machine.execSxMulh cl w s
  | .sxAnd cl w => Sys2Proof.Machine.execSxAnd cl w s
  | .sxOr cl w => Sys2Proof.Machine.execSxOr cl w s
  | .sxXor cl w => Sys2Proof.Machine.execSxXor cl w s
  | .sxShl cl w => Sys2Proof.Machine.execSxShl cl w s
  | .sxShr cl w => Sys2Proof.Machine.execSxShr cl w s
  | .sxSra cl w => Sys2Proof.Machine.execSxSra cl w s
  | .sxSlt cl w => Sys2Proof.Machine.execSxSlt cl w s
  | .sxLdi cl w => Sys2Proof.Machine.execSxLdi cl w s
  | .sxLd cl w => Sys2Proof.Machine.execSxLd cl w s
  | .sxSt cl w => Sys2Proof.Machine.execSxSt cl w s
  | .sxCone cl w => Sys2Proof.Machine.execSxCone cl w s
  | .sxJstep cl w => Sys2Proof.Machine.execSxJstep cl w s
  | .sxStepchk cl w => Sys2Proof.Machine.execSxStepchk cl w s
  | .vxAdd cl w => Sys2Proof.Machine.execVxAdd cl w s
  | .vxSub cl w => Sys2Proof.Machine.execVxSub cl w s
  | .vxMul cl w => Sys2Proof.Machine.execVxMul cl w s
  | .vxFma cl w => Sys2Proof.Machine.execVxFma cl w s
  | .vxDiv cl w => Sys2Proof.Machine.execVxDiv cl w s
  | .vxSqrt cl w => Sys2Proof.Machine.execVxSqrt cl w s
  | .vxRcp cl w => Sys2Proof.Machine.execVxRcp cl w s
  | .vxRsqrt cl w => Sys2Proof.Machine.execVxRsqrt cl w s
  | .vxExp2 cl w => Sys2Proof.Machine.execVxExp2 cl w s
  | .vxLog2 cl w => Sys2Proof.Machine.execVxLog2 cl w s
  | .vxTanh cl w => Sys2Proof.Machine.execVxTanh cl w s
  | .vxMax cl w => Sys2Proof.Machine.execVxMax cl w s
  | .vxMin cl w => Sys2Proof.Machine.execVxMin cl w s
  | .vxMaxnum cl w => Sys2Proof.Machine.execVxMaxnum cl w s
  | .vxMinnum cl w => Sys2Proof.Machine.execVxMinnum cl w s
  | .vxCmp cl w => Sys2Proof.Machine.execVxCmp cl w s
  | .vxSel cl w => Sys2Proof.Machine.execVxSel cl w s
  | .vxAnd cl w => Sys2Proof.Machine.execVxAnd cl w s
  | .vxOr cl w => Sys2Proof.Machine.execVxOr cl w s
  | .vxXor cl w => Sys2Proof.Machine.execVxXor cl w s
  | .vxShl cl w => Sys2Proof.Machine.execVxShl cl w s
  | .vxShr cl w => Sys2Proof.Machine.execVxShr cl w s
  | .vxSra cl w => Sys2Proof.Machine.execVxSra cl w s
  | .vxCvt cl w => Sys2Proof.Machine.execVxCvt cl w s
  | .vxLd cl w => Sys2Proof.Machine.execVxLd cl w s
  | .vxSt cl w => Sys2Proof.Machine.execVxSt cl w s
  | .vxBcast cl w => Sys2Proof.Machine.execVxBcast cl w s
  | .vxPmask cl w => Sys2Proof.Machine.execVxPmask cl w s
  | .vxRed cl w => Sys2Proof.Machine.execVxRed cl w s
  | .vxScanbits cl w => Sys2Proof.Machine.execVxScanbits cl w s
  | .vxRedAr cl w => Sys2Proof.Machine.execVxRedAr cl w s
  | .mxAzero cl w => Sys2Proof.Machine.execMxAzero cl w s
  | .mxAld cl w => Sys2Proof.Machine.execMxAld cl w s
  | .mxAmov cl w => Sys2Proof.Machine.execMxAmov cl w s
  | .mxMma cl w => Sys2Proof.Machine.execMxMma cl w s
  | .mxRmax cl w => Sys2Proof.Machine.execMxRmax cl w s
  | .mxMmaRs cl w => Sys2Proof.Machine.execMxMmaRs cl w s
  | .mxMmaAr cl w => Sys2Proof.Machine.execMxMmaAr cl w s
  | .txMov cl w => Sys2Proof.Machine.execTxMov cl w s
  | .txGather cl w => Sys2Proof.Machine.execTxGather cl w s
  | .txScatter cl w => Sys2Proof.Machine.execTxScatter cl w s
  | .txLdt cl w => Sys2Proof.Machine.execTxLdt cl w s
  | .txStt cl w => Sys2Proof.Machine.execTxStt cl w s
  | .txTset cl w => Sys2Proof.Machine.execTxTset cl w s
  | .txWait cl w => Sys2Proof.Machine.execTxWait cl w s
  | .txMirror cl w => Sys2Proof.Machine.execTxMirror cl w s
  | .txAg cl w => Sys2Proof.Machine.execTxAg cl w s
  | .dxDigest cl w => Sys2Proof.Machine.execDxDigest cl w s
  | .dxDrd cl w => Sys2Proof.Machine.execDxDrd cl w s
  | .dxDclr cl w => Sys2Proof.Machine.execDxDclr cl w s
  | .dxDpub cl w => Sys2Proof.Machine.execDxDpub cl w s
  | .dxHash cl w => Sys2Proof.Machine.execDxHash cl w s
  | .qxSend cl w => Sys2Proof.Machine.execQxSend cl w s
  | .qxPoll cl w => Sys2Proof.Machine.execQxPoll cl w s
  | .qxRecv cl w => Sys2Proof.Machine.execQxRecv cl w s
  | .qxSubmit cl w => Sys2Proof.Machine.execQxSubmit cl w s
  | .qxNotify cl w => Sys2Proof.Machine.execQxNotify cl w s
  | .fxPlan cl w => Sys2Proof.Machine.execFxPlan cl w s
  | .fxPfree cl w => Sys2Proof.Machine.execFxPfree cl w s
  | .fxBcast cl w => Sys2Proof.Machine.execFxBcast cl w s
  | .fxA2a cl w => Sys2Proof.Machine.execFxA2a cl w s
  | .fxWait cl w => Sys2Proof.Machine.execFxWait cl w s
  | .fxTest cl w => Sys2Proof.Machine.execFxTest cl w s
  | .fxFence cl w => Sys2Proof.Machine.execFxFence cl w s
  | .asyncOpFinish cl slot => Sys2Proof.Machine.execAsyncOpFinish cl slot s
  | .cccExceptionResponse cl => Sys2Proof.Machine.execCccExceptionResponse cl s
  | .unitSelftestDone cl pass => Sys2Proof.Machine.execUnitSelftestDone cl pass s
  | .clStart mid cl => Sys2Proof.Machine.execClStart mid cl s
  | .clResume mid cl => Sys2Proof.Machine.execClResume mid cl s
  | .clSkip mid cl => Sys2Proof.Machine.execClSkip mid cl s
  | .clStop mid cl => Sys2Proof.Machine.execClStop mid cl s
  | .clPause mid cl => Sys2Proof.Machine.execClPause mid cl s
  | .pauseAtDue cl => Sys2Proof.Machine.execPauseAtDue cl s
  | .contributionInject cl plan => Sys2Proof.Machine.execContributionInject cl plan s
  | .red chk => Sys2Proof.Machine.execRed chk s
  | .redPart chk => Sys2Proof.Machine.execRedPart chk s
  | .redRes => Sys2Proof.Machine.execRedRes s
  | .doneFinality => Sys2Proof.Machine.execDoneFinality s
  | .doneCredit => Sys2Proof.Machine.execDoneCredit s
  | .repairContribution => Sys2Proof.Machine.execRepairContribution s
  | .repairResult => Sys2Proof.Machine.execRepairResult s
  | .contextDeadline idx => Sys2Proof.Machine.execContextDeadline idx s
  | .watchDeadline idx => Sys2Proof.Machine.execWatchDeadline idx s
  | .resHoldExpiry idx => Sys2Proof.Machine.execResHoldExpiry idx s
  | .collStall cl plan seq => Sys2Proof.Machine.execCollStall cl plan seq s
  | .landingAck => Sys2Proof.Machine.execLandingAck s
  | .klnTouchClr mid => Sys2Proof.Machine.execKlnTouchClr mid s
  | .touchClearDone => Sys2Proof.Machine.execTouchClearDone s
  | .flitReceive link flit => Sys2Proof.Machine.execFlitReceive link flit s
  | .nak link => Sys2Proof.Machine.execNak link s
  | .replayTmoExpiry link => Sys2Proof.Machine.execReplayTmoExpiry link s
  | .ident link => Sys2Proof.Machine.execIdent link s
  | .rateReq link => Sys2Proof.Machine.execRateReq link s
  | .rateAck link => Sys2Proof.Machine.execRateAck link s
  | .rateRes link => Sys2Proof.Machine.execRateRes link s
  | .laneCheckDone link pass => Sys2Proof.Machine.execLaneCheckDone link pass s
  | .rateStepTimeout link => Sys2Proof.Machine.execRateStepTimeout link s
  | .feReq link => Sys2Proof.Machine.execFeReq link s
  | .feAck link => Sys2Proof.Machine.execFeAck link s
  | .feRefuseTimeout link => Sys2Proof.Machine.execFeRefuseTimeout link s
  | .downNote link => Sys2Proof.Machine.execDownNote link s
  | .lossOfSignal link => Sys2Proof.Machine.execLossOfSignal link s
  | .clockLockLoss link => Sys2Proof.Machine.execClockLockLoss link s
  | .downHoldExpiry link => Sys2Proof.Machine.execDownHoldExpiry link s
  | .lightPresent link => Sys2Proof.Machine.execLightPresent link s
  | .clockLocked link => Sys2Proof.Machine.execClockLocked link s
  | .framingFound link => Sys2Proof.Machine.execFramingFound link s
  | .signalTimeout link => Sys2Proof.Machine.execSignalTimeout link s
  | .wedgeTimeout link => Sys2Proof.Machine.execWedgeTimeout link s
  | .bisqueTimeout link => Sys2Proof.Machine.execBisqueTimeout link s
  | .lnkEnable mid link => Sys2Proof.Machine.execLnkEnable mid link s
  | .lnkDisable mid link => Sys2Proof.Machine.execLnkDisable mid link s
  | .lnkLoopSet mid link loop => Sys2Proof.Machine.execLnkLoopSet mid link loop s
  | .lnkRetrain mid link => Sys2Proof.Machine.execLnkRetrain mid link s
  | .retrainDrainTimeout link => Sys2Proof.Machine.execRetrainDrainTimeout link s
  | .lnkEyeStart mid link lane voff hoff => Sys2Proof.Machine.execLnkEyeStart mid link lane voff hoff s
  | .eyePointDone link errs => Sys2Proof.Machine.execEyePointDone link errs s
  | .servicePortIngress sv => Sys2Proof.Machine.execServicePortIngress sv s
  | .packetHeaderArrive port => Sys2Proof.Machine.execPacketHeaderArrive port s
  | .outputGrant port => Sys2Proof.Machine.execOutputGrant port s
  | .packetTxDone port => Sys2Proof.Machine.execPacketTxDone port s
  | .ageingSweep => Sys2Proof.Machine.execAgeingSweep s
  | .escWaitExpiry inp out cls vc => Sys2Proof.Machine.execEscWaitExpiry inp out cls vc s
  | .packetInject point => Sys2Proof.Machine.execPacketInject point s
  | .throttleWindow => Sys2Proof.Machine.execThrottleWindow s
  | .spreadWindow => Sys2Proof.Machine.execSpreadWindow s
  | .write port => Sys2Proof.Machine.execWrite port s
  | .readReq port => Sys2Proof.Machine.execReadReq port s
  | .readRsp port => Sys2Proof.Machine.execReadRsp port s
  | .done port => Sys2Proof.Machine.execDone port s
  | .msg port => Sys2Proof.Machine.execMsg port s
  | .mirror => Sys2Proof.Machine.execMirror s
  | .test => Sys2Proof.Machine.execTest s
  | .mgmtCmd => Sys2Proof.Machine.execMgmtCmd s
  | .mgmtToHost => Sys2Proof.Machine.execMgmtToHost s
  | .coneSync => Sys2Proof.Machine.execConeSync s
  | .coneSyncPeriod => Sys2Proof.Machine.execConeSyncPeriod s
  | .routeUpdLoad => Sys2Proof.Machine.execRouteUpdLoad s
  | .routeUpdKey => Sys2Proof.Machine.execRouteUpdKey s
  | .routeUpdCommit => Sys2Proof.Machine.execRouteUpdCommit s
  | .routeUpdCoord => Sys2Proof.Machine.execRouteUpdCoord s
  | .routeUpdTopo => Sys2Proof.Machine.execRouteUpdTopo s
  | .routeEntWrite mid value => Sys2Proof.Machine.execRouteEntWrite mid value s
  | .routeKeyWrite mid bank value => Sys2Proof.Machine.execRouteKeyWrite mid bank value s
  | .alarmFlip => Sys2Proof.Machine.execAlarmFlip s
  | .bankRetire => Sys2Proof.Machine.execBankRetire s
  | .faultNote => Sys2Proof.Machine.execFaultNote s
  | .probe => Sys2Proof.Machine.execProbe s
  | .probeAck => Sys2Proof.Machine.execProbeAck s
  | .probePeriod dir => Sys2Proof.Machine.execProbePeriod dir s
  | .lostTimeExpiry dir => Sys2Proof.Machine.execLostTimeExpiry dir s
  | .moduleLost => Sys2Proof.Machine.execModuleLost s
  | .requestRetransmit tag pseq => Sys2Proof.Machine.execRequestRetransmit tag pseq s
  | .generationClose => Sys2Proof.Machine.execGenerationClose s
  | .restoreReq => Sys2Proof.Machine.execRestoreReq s
  | .restoreEnd => Sys2Proof.Machine.execRestoreEnd s
  | .restoreTimeout => Sys2Proof.Machine.execRestoreTimeout s
  | .coneSet mid value => Sys2Proof.Machine.execConeSet mid value s
  | .coneAlarmEnable mid k action => Sys2Proof.Machine.execConeAlarmEnable mid k action s
  | .alarmInterrupt k => Sys2Proof.Machine.execAlarmInterrupt k s
  | .alarmStart k => Sys2Proof.Machine.execAlarmStart k s
  | .hbmAccess mid addr op rpt => Sys2Proof.Machine.execHbmAccess mid addr op rpt s
  | .patrolRead stack rpt => Sys2Proof.Machine.execPatrolRead stack rpt s
  | .hbmRefresh stack => Sys2Proof.Machine.execHbmRefresh stack s
  | .hbmTempPoll stack temp => Sys2Proof.Machine.execHbmTempPoll stack temp s
  | .hbmImbalanceWindow stack => Sys2Proof.Machine.execHbmImbalanceWindow stack s
  | .hbmInjectArm mid stack value => Sys2Proof.Machine.execHbmInjectArm mid stack value s
  | .accHoldSet => Sys2Proof.Machine.execAccHoldSet s
  | .accHoldClear => Sys2Proof.Machine.execAccHoldClear s
  | .accHoldTimeout => Sys2Proof.Machine.execAccHoldTimeout s
  | .memoryClearDone => Sys2Proof.Machine.execMemoryClearDone s
  | .commandSubmit mid q value => Sys2Proof.Machine.execCommandSubmit mid q value s
  | .bind q => Sys2Proof.Machine.execBind q s
  | .unbind q => Sys2Proof.Machine.execUnbind q s
  | .loadProgram q => Sys2Proof.Machine.execLoadProgram q s
  | .start q => Sys2Proof.Machine.execStart q s
  | .startAt q => Sys2Proof.Machine.execStartAt q s
  | .pause q => Sys2Proof.Machine.execPause q s
  | .resume q => Sys2Proof.Machine.execResume q s
  | .resumeClusters q => Sys2Proof.Machine.execResumeClusters q s
  | .skipClusters q => Sys2Proof.Machine.execSkipClusters q s
  | .stopClusters q => Sys2Proof.Machine.execStopClusters q s
  | .drain q => Sys2Proof.Machine.execDrain q s
  | .fence q => Sys2Proof.Machine.execFence q s
  | .unfence q => Sys2Proof.Machine.execUnfence q s
  | .snapshot q => Sys2Proof.Machine.execSnapshot q s
  | .restore q => Sys2Proof.Machine.execRestore q s
  | .setRoutesHbm q => Sys2Proof.Machine.execSetRoutesHbm q s
  | .setRoutesImage q => Sys2Proof.Machine.execSetRoutesImage q s
  | .setRoutesBox q => Sys2Proof.Machine.execSetRoutesBox q s
  | .flipEpoch q => Sys2Proof.Machine.execFlipEpoch q s
  | .acceptObserved q => Sys2Proof.Machine.execAcceptObserved q s
  | .activateFw q => Sys2Proof.Machine.execActivateFw q s
  | .activateFwDeferredRun proc => Sys2Proof.Machine.execActivateFwDeferredRun proc s
  | .setLatencyTol q => Sys2Proof.Machine.execSetLatencyTol q s
  | .setPolicy q => Sys2Proof.Machine.execSetPolicy q s
  | .bindStep q => Sys2Proof.Machine.execBindStep q s
  | .readLogCounters q => Sys2Proof.Machine.execReadLogCounters q s
  | .readLogRecords q => Sys2Proof.Machine.execReadLogRecords q s
  | .attestProvenance q => Sys2Proof.Machine.execAttestProvenance q s
  | .attestCerts q => Sys2Proof.Machine.execAttestCerts q s
  | .attestMeasure q => Sys2Proof.Machine.execAttestMeasure q s
  | .attestEnroll q => Sys2Proof.Machine.execAttestEnroll q s
  | .zeroiseEphemeral q => Sys2Proof.Machine.execZeroiseEphemeral q s
  | .zeroisePermanent q => Sys2Proof.Machine.execZeroisePermanent q s
  | .heartbeat q => Sys2Proof.Machine.execHeartbeat q s
  | .heartbeatTimeout => Sys2Proof.Machine.execHeartbeatTimeout s
  | .hringTailWrite mid value => Sys2Proof.Machine.execHringTailWrite mid value s
  | .watchdogExpiry p => Sys2Proof.Machine.execWatchdogExpiry p s
  | .fwRestartDone p => Sys2Proof.Machine.execFwRestartDone p s
  | .apcRunWrite mid run => Sys2Proof.Machine.execApcRunWrite mid run s
  | .registerWrite mid addr size value => Sys2Proof.Machine.execRegisterWrite mid addr size value s
  | .registerReadClear mid addr size => Sys2Proof.Machine.execRegisterReadClear mid addr size s
  | .secChalGen mid => Sys2Proof.Machine.execSecChalGen mid s
  | .secDbgClose mid => Sys2Proof.Machine.execSecDbgClose mid s
  | .challengeExpiry => Sys2Proof.Machine.execChallengeExpiry s
  | .drbgReseed => Sys2Proof.Machine.execDrbgReseed s
  | .entropyHealthFail pairwise => Sys2Proof.Machine.execEntropyHealthFail pairwise s
  | .fuseWriteResume readBack => Sys2Proof.Machine.execFuseWriteResume readBack s
  | .getVersion tr => Sys2Proof.Machine.execGetVersion tr s
  | .getCapabilities tr => Sys2Proof.Machine.execGetCapabilities tr s
  | .negotiateAlgorithms tr p384 sha384 => Sys2Proof.Machine.execNegotiateAlgorithms tr p384 sha384 s
  | .getDigests tr => Sys2Proof.Machine.execGetDigests tr s
  | .getCertificate tr slot offset length => Sys2Proof.Machine.execGetCertificate tr slot offset length s
  | .challenge tr slot nonce => Sys2Proof.Machine.execChallenge tr slot nonce s
  | .getMeasurements tr index sign slot nonce => Sys2Proof.Machine.execGetMeasurements tr index sign slot nonce s
  | .setEndpointId tr eid => Sys2Proof.Machine.execSetEndpointId tr eid s
  | .getEndpointId tr => Sys2Proof.Machine.execGetEndpointId tr s
  | .getMctpVersionSupport tr => Sys2Proof.Machine.execGetMctpVersionSupport tr s
  | .getMessageTypeSupport tr => Sys2Proof.Machine.execGetMessageTypeSupport tr s
  | .getTid tr => Sys2Proof.Machine.execGetTid tr s
  | .getPldmVersion tr => Sys2Proof.Machine.execGetPldmVersion tr s
  | .getPldmTypes tr => Sys2Proof.Machine.execGetPldmTypes tr s
  | .getPldmCommands tr => Sys2Proof.Machine.execGetPldmCommands tr s
  | .pldmSensorRead tr sensor => Sys2Proof.Machine.execPldmSensorRead tr sensor s
  | .requestUpdate tr proc slotB => Sys2Proof.Machine.execRequestUpdate tr proc slotB s
  | .pldmFirmwareTransfer tr data last => Sys2Proof.Machine.execPldmFirmwareTransfer tr data last s
  | .entdaa addr => Sys2Proof.Machine.execEntdaa addr s
  | .rstdaa => Sys2Proof.Machine.execRstdaa s
  | .enec events => Sys2Proof.Machine.execEnec events s
  | .disec events => Sys2Proof.Machine.execDisec events s
  | .getpid => Sys2Proof.Machine.execGetpid s
  | .getbcr => Sys2Proof.Machine.execGetbcr s
  | .getdcr => Sys2Proof.Machine.execGetdcr s
  | .getstatus => Sys2Proof.Machine.execGetstatus s
  | .getmwl => Sys2Proof.Machine.execGetmwl s
  | .setmwl len => Sys2Proof.Machine.execSetmwl len s
  | .getmrl => Sys2Proof.Machine.execGetmrl s
  | .setmrl len => Sys2Proof.Machine.execSetmrl len s
  | .jtagBypass tdi => Sys2Proof.Machine.execJtagBypass tdi s
  | .jtagIdcode => Sys2Proof.Machine.execJtagIdcode s
  | .jtagExtest cells => Sys2Proof.Machine.execJtagExtest cells s
  | .jtagSamplePreload cells => Sys2Proof.Machine.execJtagSamplePreload cells s
  | .jtagChal => Sys2Proof.Machine.execJtagChal s
  | .jtagToken token => Sys2Proof.Machine.execJtagToken token s
  | .jtagDstatus => Sys2Proof.Machine.execJtagDstatus s
  | .jtagDclose => Sys2Proof.Machine.execJtagDclose s
  | .jtagDmem dr => Sys2Proof.Machine.execJtagDmem dr s
  | .cappingLoop vin iin pin => Sys2Proof.Machine.execCappingLoop vin iin pin s
  | .sensorSample temps inlet outlet flow => Sys2Proof.Machine.execSensorSample temps inlet outlet flow s
  | .thermalLoop => Sys2Proof.Machine.execThermalLoop s
  | .limiterSample pin iin => Sys2Proof.Machine.execLimiterSample pin iin s
  | .voltageSettled cl => Sys2Proof.Machine.execVoltageSettled cl s
  | .throttleNoticeInterval => Sys2Proof.Machine.execThrottleNoticeInterval s
  | .thermtrip sensor => Sys2Proof.Machine.execThermtrip sensor s
  | .emergSet src => Sys2Proof.Machine.execEmergSet src s
  | .emergClear src => Sys2Proof.Machine.execEmergClear src s
  | .unitIdleDwell u => Sys2Proof.Machine.execUnitIdleDwell u s
  | .unitWakeDone u => Sys2Proof.Machine.execUnitWakeDone u s
  | .startAtWake k => Sys2Proof.Machine.execStartAtWake k s
  | .lsleepAtDue => Sys2Proof.Machine.execLsleepAtDue s
  | .lsleepDrainTimeout link => Sys2Proof.Machine.execLsleepDrainTimeout link s
  | .inputInRange => Sys2Proof.Machine.execInputInRange s
  | .pwrOkAssert => Sys2Proof.Machine.execPwrOkAssert s
  | .powerRemoved => Sys2Proof.Machine.execPowerRemoved s
  | .rstNAssert => Sys2Proof.Machine.execRstNAssert s
  | .rstNRelease slotPins => Sys2Proof.Machine.execRstNRelease slotPins s
  | .railsRamped failedTest => Sys2Proof.Machine.execRailsRamped failedTest s
  | .secBootDone => Sys2Proof.Machine.execSecBootDone s
  | .hbmTrainingDone refused failed chan => Sys2Proof.Machine.execHbmTrainingDone refused failed chan s
  | .clusterSelftestDone result => Sys2Proof.Machine.execClusterSelftestDone result s
  | .readyEntry => Sys2Proof.Machine.execReadyEntry s
  | .imgErase mid region off => Sys2Proof.Machine.execImgErase mid region off s
  | .imgProgram mid region off => Sys2Proof.Machine.execImgProgram mid region off s
  | .imgCalSave mid => Sys2Proof.Machine.execImgCalSave mid s
  | .imgHeldStart => Sys2Proof.Machine.execImgHeldStart s
  | .imgOpDone verified => Sys2Proof.Machine.execImgOpDone verified s
  | .checkerLock link => Sys2Proof.Machine.execCheckerLock link s
  | .fwLoadWindow sec pwr sch ccc cccIdx => Sys2Proof.Machine.execFwLoadWindow sec pwr sch ccc cccIdx s
  | .provenanceDone => Sys2Proof.Machine.execProvenanceDone s
  | .programCopyDone => Sys2Proof.Machine.execProgramCopyDone s
  | .trstNAssert => Sys2Proof.Machine.execTrstNAssert s

end Sys2Proof.Machine
end

