-- ==== Sys2Proof/Safety.lean ====
section
/-!
DEFINITION. Safety.lean: what counts as a safe run: from every state it reaches, the next step is a next state.
-/
namespace Sys2Proof

/-- A run of `n` steps from `s` stops nowhere. -/
def SafeRun (n : Nat) (s : Machine.State) : Prop := ∃ t, core.run n s = .next t

end Sys2Proof
end

