-- ==== Sys2Proof/Certificates/Slice0/Obligations.lean ====
section
/-!
DEFINITION. Certificates/Slice0/Obligations.lean: the statements about the model that the provers are given, and the few predicates
that they are written with.
-/
namespace Sys2Proof.Claims

open Sys2Proof.Machine

/-! ## The words of the statements -/

/-- What a command answers. -/
abbrev Answer := Host.Outcome State Fault Refusal

/-- A cluster's tables are in their canonical form: keys strictly rising, no entry equal to what an unlisted key reads as. -/
structure ClusterCanon (c : Cluster) : Prop where
  v : Tab.wf (fun _ => (0 : BitVec 8192)) c.v = true
  p : Tab.wf (fun _ => (0 : BitVec 512)) c.p = true
  t : Tab.wf (fun _ => (0 : BitVec 128)) c.t = true
  a : Tab.wf (fun _ => AccSet.reset) c.a = true
  slots : Tab.wf (fun _ => MoveSlot.reset) c.slots = true
  digs : Tab.wf (fun _ => DigSlot.reset) c.digs = true

/-- The tables of a state that the frame statements read are in their canonical form, those of every cluster included.
`Obligations.StepKeepsCanon` says that every step keeps it. -/
structure Canon (s : State) : Prop where
  regs : Tab.wf regReset s.regs = true
  cluster : ∀ n, ClusterCanon (s.cl n)
  clusters : Tab.wf (fun _ => Cluster.reset) s.clusters = true
  mem : Memory.wf 0 s.mem = true
  memErr : Tab.wf (fun _ => (0 : BitVec 72)) s.memErr = true
  poolMem : Memory.wf 0 s.poolMem = true
  flash : Memory.wf 0xFF s.flash = true

/-- The cluster issues the instruction `i` now: it is RUNNING and waits for nothing, no pause is due (R115), and the instruction's
words lie below the end of the store (R78). -/
structure Issues (s : State) (cl : Fin 128) (i : Issue) : Prop where
  running : s.clSt cl = clRUNNING
  free : (s.cl cl).wait = none
  noPause : s.pauseDue cl = false
  fetch : s.pc cl < storeSize
  fetchExt : i.x = true → s.pc cl + 8 < storeSize

/-- The predicate bit that governs an instruction as a whole is 1 (R80). -/
def On (s : State) (cl : Fin 128) (i : Issue) : Prop := (s.pReg cl i.pred.toNat).getLsbD 0 = true

/-- The answer is the next state in which the instruction has completed, its own effect having led to `t`: `t` with the completion
record, the next issue sequence number and the next PC (R78, R95, R96). -/
def Completes (o : Answer) (cl : Fin 128) (cls op : Nat) (i : Issue) (t : State) (exc : Nat := 0) (status : Nat := 0)
    (handle : Nat := noHandle) (jump : Option Nat := none) : Prop :=
  o = .next (t.retire cl cls op (t.cl cl).seq (t.pc cl) (instrLen i) exc status handle jump)

/-- As `Completes`, and what a register access or a collective has set going has settled. -/
def CompletesSettled (o : Answer) (cl : Fin 128) (cls op : Nat) (i : Issue) (t : State) (exc : Nat := 0)
    (handle : Nat := noHandle) : Prop :=
  o = .next (t.retire cl cls op (t.cl cl).seq (t.pc cl) (instrLen i) exc 0 handle none).pumpAll.settleFence

/-- A branch target that may be taken (R78). -/
def TargetOk (t : Nat) : Prop := t % 8 = 0 ∧ t < storeSize

/-- The store offset of the ring slot that the next completion record of a cluster takes (R96). -/
def recOff (s : State) (n : Nat) : Nat :=
  s.get (clCring_BASE n) * 4096 + s.get (clCring_HEAD n) % 2 ^ (s.get (clCring_SIZE n) + 8) * 16

/-- What a completed instruction of cluster `n` that stores nothing leaves unchanged: every register but CL.STATE, CL.XSTATUS,
CL.CRING and those of `keys`; every byte of memory and every error pattern but those of the record's 16 B ring slot; every other
cluster; of its own cluster everything but the issue sequence number, the wait that ended and the count of records kept; and the
rest of the machine, the free-value counter apart. -/
structure RetireFrame (s t : State) (n : Nat) (keys : List Nat) : Prop where
  regs : ∀ k, k ∉ clState n :: clXstatus n :: clCring n :: keys → t.rd k = s.rd k
  mem : ∀ a, a < storeAddr n (recOff s n) ∨ storeAddr n (recOff s n) + 16 ≤ a → Tab.get 0 t.mem a = Tab.get 0 s.mem a
  memErr : ∀ w, w ≠ storeAddr n (recOff s n) / 8 → w ≠ storeAddr n (recOff s n) / 8 + 1 →
    Tab.get 0 t.memErr w = Tab.get 0 s.memErr w
  others : ∀ m, m ≠ n → t.cl m = s.cl m
  own : { t.cl n with seq := (s.cl n).seq, wait := (s.cl n).wait, recs := (s.cl n).recs } = s.cl n
  rest : { t with regs := s.regs, mem := s.mem, memErr := s.memErr, clusters := s.clusters, free := s.free } = s

/-- What S register `r` reads as after `v` was written to it: S0 discards the write and reads as zero (R74). -/
def sAfter (r : BitVec 6) (v : W64) : W64 := if r.toNat = 0 then 0 else v

/-- A scalar instruction with result `v` has completed: it answers a next state in which Sd holds `v`, the PC has moved past the
instruction, CL.XSTATUS.EXC is as before, and nothing else has changed but what `RetireFrame` names. -/
def ScalarEnds (o : Answer) (s : State) (cl : Fin 128) (i : Issue) (v : W64) : Prop :=
  ∃ t, o = .next t ∧ t.sReg cl i.dst.toNat = sAfter i.dst v ∧ t.pc cl = (s.pc cl + instrLen i) % 2 ^ 23
    ∧ t.get (clXstatus_EXC cl) = s.get (clXstatus_EXC cl)
    ∧ RetireFrame s t cl (if i.dst.toNat = 0 then [] else [clS cl i.dst.toNat])

/-- A vector instruction of opcode `op` with the element results `f` over `cnt` lanes of format `fd` has completed: it answers a
next state; element `k` of Vd is `f k` where the predicate bit is 1 and its old value where it is 0; the bits above the lanes are
zero; the flags recorded are those of the governed elements; and Vd and the locator are all that its own effect changes (R80, R82). -/
def VecEnds (o : Answer) (s : State) (cl : Fin 128) (op : Nat) (i : Issue) (fd cnt : Nat) (f : Nat → CRes) : Prop :=
  ∃ t fl, Completes o cl 2 op i t fl
    ∧ (∀ k, k < cnt → (t.vElems cl i.dst fd cnt).getD k 0 =
        (if (s.pReg cl i.pred.toNat).getLsbD k then (f k).code % 2 ^ fmtBits fd else (s.vElems cl i.dst fd cnt).getD k 0))
    ∧ (t.vReg cl i.dst.toNat).toNat < 2 ^ (cnt * fmtBits fd)
    ∧ (∀ b, fl.testBit b = (List.range cnt).any fun k => (s.pReg cl i.pred.toNat).getLsbD k && (f k).fl.testBit b)
    ∧ { t with regs := s.regs, clusters := s.clusters } = s
    ∧ (∀ k, k ≠ clLoc0 cl → k ≠ clLoc1 cl → t.rd k = s.rd k)
    ∧ (∀ m, m ≠ cl.val → t.cl m = s.cl m)
    ∧ { t.cl cl with v := (s.cl cl).v } = s.cl cl
    ∧ (∀ r, r ≠ i.dst.toNat → t.vReg cl r = s.vReg cl r)

end Sys2Proof.Claims

open Sys2Proof Sys2Proof.Machine Sys2Proof.Claims

/-! ## The block as a whole -/

/-- A step runs the command at the front of the queue on the state with the queue's rest; with no command waiting it is one nanosecond of
the cone count, in which it never runs back (the model's choice: log entry 3). -/
def Obligations.StepRunsFrontCommand : Prop :=
  (∀ (c : Instr) (s : State), step { s with pending := c :: s.pending } = exec c s)
  ∧ ∀ (s : State), s.pending = [] → step s = .next (coneTick s) ∧
      (s.coneFrac < 256 → (coneTick s).coneFrac < 256 ∧
        ∃ d, d ≤ 2 ∧ (coneTick s).cone = s.cone + BitVec.ofNat 64 d)

/-- Every step keeps the canonical form of the registers, the clusters and the memories. -/
def Obligations.StepKeepsCanon : Prop := ∀ s t : State, Canon s → step s = .next t → Canon t

/-- The state after reset is canonical: no command waits, every register reads its reset value, every cluster is IDLE, the module is not
yet READY, and a byte of memory that nothing has written reads as zero (the model's choice: log entry 9). -/
def Obligations.ResetCanon : Prop :=
  Canon State.reset ∧ State.reset.pending = [] ∧ (∀ k, State.reset.rd k = regReset k) ∧ (∀ n, n < 128 → State.reset.clSt n = clIDLE)
    ∧ State.reset.mstate < mREADY ∧ (∀ a, Tab.get 0 State.reset.mem a = 0) ∧ ∀ k, k < 8 → State.reset.get (hbmStatus_STATE k) = 0

/-- The vendor root hash and the debug hash, which the part's fuses hold, never change (R419), whatever the command. -/
def Obligations.StepKeepsFusedHashes : Prop :=
  ∀ s t : State, step s = .next t → t.sec.vrootHash = s.sec.vrootHash ∧ t.sec.vdbgHash = s.sec.vdbgHash

/-- A command's effect leaves the queue of waiting commands alone. -/
def Obligations.ExecKeepsQueue : Prop := ∀ (c : Instr) (s t : State), exec c s = .next t → t.pending = s.pending

/-! ## The control class CX -/

/-- CX.NOP, JMP, BZ, BNZ, BLT, LOOP, CALL and RET complete: the PC moves to the target where the branch is taken and past the
instruction where it is not; LOOP counts its register down, CALL stores the offset of the next instruction (R97, R78) (how an instruction
reaches a cluster is the model's choice: log entries 1 and 2). -/
def Obligations.CxFlowCompletes : Prop :=
  ∀ (s : State) (cl : Fin 128) (i : Issue), Issues s cl i → On s cl i →
    let a := s.sReg cl i.src1.toNat
    let b := s.sReg cl i.src2.toNat
    let t := s.target cl i
    let n := sAfter i.dst (s.sReg cl i.dst.toNat - 1)
    (i.x = false → Completes (exec (.cxNop cl i) s) cl 0 0x00 i s)
    ∧ (TargetOk t → Completes (exec (.cxJmp cl i) s) cl 0 0x01 i s (jump := some t))
    ∧ (i.src1.toNat < 32 → (a = 0 → TargetOk t) →
        Completes (exec (.cxBz cl i) s) cl 0 0x02 i s (jump := if a = 0 then some t else none))
    ∧ (i.src1.toNat < 32 → (a ≠ 0 → TargetOk t) →
        Completes (exec (.cxBnz cl i) s) cl 0 0x03 i s (jump := if a = 0 then none else some t))
    ∧ (i.src1.toNat < 32 → i.src2.toNat < 32 → (a.toInt < b.toInt → TargetOk t) →
        Completes (exec (.cxBlt cl i) s) cl 0 0x04 i s (jump := if a.toInt < b.toInt then some t else none))
    ∧ (i.dst.toNat < 32 → Canon s → (n ≠ 0 → TargetOk t) →
        Completes (exec (.cxLoop cl i) s) cl 0 0x05 i (s.setS cl i.dst.toNat (s.sReg cl i.dst.toNat - 1))
          (jump := if n = 0 then none else some t))
    ∧ (i.dst.toNat < 32 → TargetOk t →
        Completes (exec (.cxCall cl i) s) cl 0 0x06 i (s.setS cl i.dst.toNat (BitVec.ofNat 64 (s.pc cl + instrLen i)))
          (jump := some t))
    ∧ (i.x = false → i.src1.toNat < 32 → TargetOk (a.toNat % 2 ^ 23) →
        Completes (exec (.cxRet cl i) s) cl 0 0x07 i s (jump := some (a.toNat % 2 ^ 23)))

/-- A taken branch of CX.JMP, BZ, BNZ, BLT, LOOP, CALL or RET to a target that is misaligned or at or above the store's end raises
FETCH at the branch and leaves its registers (R78, R92). -/
def Sys2Proof.Claims.CxBranchFaults : Prop :=
  ∀ (s : State) (cl : Fin 128) (i : Issue), Issues s cl i → On s cl i →
    let a := s.sReg cl i.src1.toNat
    let t := s.target cl i
    let bad := fun (o : Answer) (op tgt : Nat) =>
      o = .next (s.takeExc cl (Exc.plain xFETCH tgt) 0 op (s.pc cl) (instrLen i))
    (¬ TargetOk t → bad (exec (.cxJmp cl i) s) 0x01 t)
    ∧ (i.src1.toNat < 32 → a = 0 → ¬ TargetOk t → bad (exec (.cxBz cl i) s) 0x02 t)
    ∧ (i.src1.toNat < 32 → a ≠ 0 → ¬ TargetOk t → bad (exec (.cxBnz cl i) s) 0x03 t)
    ∧ (i.src1.toNat < 32 → i.src2.toNat < 32 → a.toInt < (s.sReg cl i.src2.toNat).toInt → ¬ TargetOk t →
        bad (exec (.cxBlt cl i) s) 0x04 t)
    ∧ (i.dst.toNat < 32 → Canon s → sAfter i.dst (s.sReg cl i.dst.toNat - 1) ≠ 0 → ¬ TargetOk t → bad (exec (.cxLoop cl i) s) 0x05 t)
    ∧ (i.dst.toNat < 32 → ¬ TargetOk t → bad (exec (.cxCall cl i) s) 0x06 t)
    ∧ (i.x = false → i.src1.toNat < 32 → ¬ TargetOk (a.toNat % 2 ^ 23) →
        bad (exec (.cxRet cl i) s) 0x07 (a.toNat % 2 ^ 23))

/-- CX.WAITCONE completes with OK_LATE where the cone count is at or past CONE, and otherwise waits, which WAITCONE_DUE ends with
OK once the count has reached CONE (R98); CX.FENCE, MODE, RDMODE and HALT complete (R97). -/
def Sys2Proof.Claims.CxWaitsAndModes : Prop :=
  ∀ (s : State) (cl : Fin 128) (i : Issue),
    (Issues s cl i → On s cl i →
      (i.x = true → i.ext.toNat ≤ s.now → Completes (exec (.cxWaitcone cl i) s) cl 0 0x08 i s (status := 1))
      ∧ (i.x = true → s.now < i.ext.toNat →
          exec (.cxWaitcone cl i) s = .next ((s.modCl cl fun c =>
            { c with wait := some ⟨.cone i.ext, i, 0, 0x08, s.pc cl, instrLen i, (s.cl cl).seq⟩ }).put (clState_WINDOW cl) 1))
      ∧ (i.x = false → s.asyncRunning cl = false → s.asyncFailed cl = none → Completes (exec (.cxFence cl i) s) cl 0 0x09 i s)
      ∧ (i.x = false → i.src1.toNat < 32 → i.src2.toNat < 32 →
          ¬ (i.imm8.getLsbD 0 = true ∧ bitsOf (s.sReg cl i.src1.toNat) 4 2 = 3) →
          ¬ (i.imm8.getLsbD 2 = true ∧ s.get digDet_DETERMINISTIC ≠ 0) →
          let t0 := if i.imm8.getLsbD 0 then s.put (clMode_RND cl) (bitsOf (s.sReg cl i.src1.toNat) 4 2) else s
          let t1 := if i.imm8.getLsbD 1 then t0.put (clMode_STRICT cl) (bitsOf (s.sReg cl i.src1.toNat) 6 1) else t0
          Completes (exec (.cxMode cl i) s) cl 0 0x0A i
            (if i.imm8.getLsbD 2 then t1.wr (clSeed cl) (s.sReg cl i.src2.toNat) else t1))
      ∧ (i.x = false → i.dst.toNat < 32 → Completes (exec (.cxRdmode cl i) s) cl 0 0x0B i (s.setS cl i.dst.toNat (s.clModeVal cl)))
      ∧ (i.x = false → Canon s → (∀ c ∈ s.colls, c.cl ≠ cl.val) →
          exec (.cxHalt cl i) s =
            .next ((s.retire cl 0 0x0C (s.cl cl).seq (s.pc cl) 8 0 0 noHandle none).put (clState_STATE cl) clHALTED).autoState))
    ∧ (∀ w c, (s.cl cl).wait = some w → w.kind = .cone c → c.toNat ≤ s.now →
        exec (.waitconeDue cl) s = .next (s.retire cl w.cls w.op w.seq w.pc w.len 0 0 noHandle none))

/-- CX.BRK and CX.TRAP take the exceptions BREAK and SERVICE (R97): taking an exception records cause, response, unit, PC, address and
origin, sets CL.DONE, and puts the cluster into EXCEPTION with its PC at the instruction (R92) (in-order completion is the model's choice:
log entry 2). -/
def Obligations.ExceptionEntry : Prop :=
  ∀ (s : State) (cl : Fin 128), Canon s →
    (∀ (i : Issue), Issues s cl i → On s cl i → i.x = false →
      exec (.cxBrk cl i) s = .next (s.takeExc cl (Exc.plain 7) 0 0x0D (s.pc cl) 8)
      ∧ exec (.cxTrap cl i) s = .next (s.takeExc cl (Exc.plain 8) 0 0x0E (s.pc cl) 8))
    ∧ ∀ (x : Exc) (cls op pc len : Nat), x.cause < 256 → pc < 2 ^ 23 →
        let t := s.takeExc cl x cls op pc len
        t.get (clExc_CAUSE cl) = x.cause ∧ t.get (clExc_RESP cl) = x.resp % 4 ∧ t.get (clExc_UNIT cl) = unitOf cls
        ∧ t.get (clExc_PC cl) = pc
        ∧ t.rd (clExcAddr cl) = BitVec.ofNat 64 (x.addr % 2 ^ 48)
        ∧ t.get (clExcOrig_HANDLE cl) = x.handle % 2 ^ 13 ∧ t.rd (clDone cl) = 0
        ∧ t.clSt cl = clEXCEPTION ∧ t.pc cl = pc ∧ t.get (clState_WINDOW cl) = 1
        ∧ (t.cl cl).wait = none
        ∧ (∀ m, m ≠ cl.val → t.cl m = s.cl m)
        ∧ (∀ k, k ∉ [clState cl, clXstatus cl, clCring cl, clExc cl, clExcAddr cl, clExcOrig cl, clDone cl] → t.rd k = s.rd k)
        ∧ (∀ a, a < storeAddr cl (recOff s cl) ∨ storeAddr cl (recOff s cl) + 16 ≤ a → Tab.get 0 t.mem a = Tab.get 0 s.mem a)
        ∧ { t with regs := s.regs, mem := s.mem, memErr := s.memErr, clusters := s.clusters, free := s.free } = s

/-- What completing an instruction does beyond its own effect (R78, R95, R96): the flags are ORed into CL.XSTATUS.EXC, the PC moves to
the branch target or past the instruction, the issue sequence number advances modulo 2^16, the window closes; and the frame (in-order
completion is the model's choice: log entry 2). -/
def Sys2Proof.Claims.RetireLeavesRest : Prop :=
  ∀ (s : State) (cl : Fin 128) (cls op seq pc len exc status handle : Nat) (jump : Option Nat), Canon s →
    let t := s.retire cl cls op seq pc len exc status handle jump
    t.pc cl = jump.getD (pc + len) % 2 ^ 23 ∧ t.get (clState_WINDOW cl) = 0 ∧ t.clSt cl = s.clSt cl
    ∧ t.get (clXstatus_EXC cl) = (s.get (clXstatus_EXC cl) ||| exc) % 2 ^ 8
    ∧ (t.cl cl).seq = (seq + 1) % 65536 ∧ (t.cl cl).wait = none
    ∧ RetireFrame s t cl []

/-- Where a completion record is kept (CREC, or anything to report), its 16 bytes go to the slot at HEAD, HEAD advances modulo the
ring's size, and LOST counts where the ring was full (R95, R96) (where the sequence number starts and what CYCLES holds are the model's
choice: log entries 12 and 13). -/
def Sys2Proof.Claims.CompletionRecord : Prop :=
  ∀ (s : State) (cl : Fin 128) (cls op seq pc len exc status handle : Nat) (jump : Option Nat), Canon s →
    (s.get (clCtrl_CREC cl) = 1 ∨ exc ≠ 0 ∨ status ≠ 0 ∨ handle ≠ noHandle) → recOff s cl + 16 ≤ storeSize →
    let t := s.retire cl cls op seq pc len exc status handle jump
    let size := 2 ^ (s.get (clCring_SIZE cl) + 8)
    let w0 := natLE (readBytes 0 t.mem (storeAddr cl (recOff s cl)) 8)
    let w1 := natLE (readBytes 0 t.mem (storeAddr cl (recOff s cl) + 8) 8)
    w0 / 2 ^ 56 = exc % 256 ∧ w0 / 2 ^ 52 % 16 = status % 16 ∧ w0 / 2 ^ 48 % 16 = cls % 16 ∧ w0 / 2 ^ 40 % 256 = op % 256
    ∧ w0 / 2 ^ 24 % 2 ^ 16 = seq % 2 ^ 16 ∧ w0 % 2 ^ 23 = pc % 2 ^ 23 ∧ w1 / 2 ^ 51 = handle % 2 ^ 13
    ∧ t.get (clCring_HEAD cl) = (s.get (clCring_HEAD cl) + 1) % size % 2 ^ 16
    ∧ t.get (clCring_LOST cl) = (if (s.cl cl).recs < size then s.get (clCring_LOST cl) else min (s.get (clCring_LOST cl) + 1) 65535)
    ∧ (t.cl cl).recs = (if (s.cl cl).recs < size then (s.cl cl).recs + 1 else (s.cl cl).recs)

/-! ## The scalar class SX -/

/-- Every scalar instruction Sd := value completes: ADD, ADDI, SUB, MUL, MULH, AND, OR, XOR, SHL, SHR, SRA, SLT, LDI, CONE and JSTEP
write what the table of R99 says, modulo 2^64, set no flag, and change nothing else (R74, R99). -/
def Obligations.SxResults : Prop :=
  ∀ (s : State) (cl : Fin 128) (i : Issue), Canon s → Issues s cl i → On s cl i → i.dst.toNat < 32 →
    let a := s.sReg cl i.src1.toNat
    let b := s.sReg cl i.src2.toNat
    let imm : W64 := if i.x then i.ext else i.imm8.signExtend 64
    (i.src1.toNat < 32 → ScalarEnds (exec (.sxAddi cl i) s) s cl i (a + imm))
    ∧ ScalarEnds (exec (.sxLdi cl i) s) s cl i imm
    ∧ (i.x = false → ScalarEnds (exec (.sxCone cl i) s) s cl i s.cone)
    ∧ (i.x = false → ScalarEnds (exec (.sxJstep cl i) s) s cl i (s.rd (clJstep cl)))
    ∧ (i.x = false → i.src1.toNat < 32 → i.src2.toNat < 32 →
        ScalarEnds (exec (.sxAdd cl i) s) s cl i (BitVec.ofNat 64 (a.toNat + b.toNat))
        ∧ ScalarEnds (exec (.sxSub cl i) s) s cl i (BitVec.ofInt 64 ((a.toNat : Int) - b.toNat))
        ∧ ScalarEnds (exec (.sxMul cl i) s) s cl i (BitVec.ofNat 64 (a.toNat * b.toNat))
        ∧ ScalarEnds (exec (.sxMulh cl i) s) s cl i (BitVec.ofInt 64 (a.toInt * b.toInt / 2 ^ 64))
        ∧ ScalarEnds (exec (.sxAnd cl i) s) s cl i (a &&& b)
        ∧ ScalarEnds (exec (.sxOr cl i) s) s cl i (a ||| b)
        ∧ ScalarEnds (exec (.sxXor cl i) s) s cl i (a ^^^ b)
        ∧ ScalarEnds (exec (.sxShl cl i) s) s cl i (BitVec.ofNat 64 (a.toNat * 2 ^ (b.toNat % 64)))
        ∧ ScalarEnds (exec (.sxShr cl i) s) s cl i (BitVec.ofNat 64 (a.toNat / 2 ^ (b.toNat % 64)))
        ∧ ScalarEnds (exec (.sxSra cl i) s) s cl i (BitVec.ofInt 64 (a.toInt / 2 ^ (b.toNat % 64)))
        ∧ ScalarEnds (exec (.sxSlt cl i) s) s cl i (if a.toInt < b.toInt then 1 else 0))

/-- SX.LD loads the little-endian 8 bytes that its checked read of the aligned address answers, SX.ST stores Ss2 so; both complete where
the access is answered OK, and raise ALIGN where the address is no multiple of 8 (R33, R99). SX.STEPCHK completes where Ss1 equals
CL.JSTEP and raises STEP_SKEW where it does not (R99, R325). -/
def Obligations.SxMemoryAndStep : Prop :=
  ∀ (s : State) (cl : Fin 128) (i : Issue), Issues s cl i → On s cl i → i.x = false → i.src1.toNat < 32 →
    let a := (s.sReg cl i.src1.toNat + i.imm8.signExtend 64 * 8).toNat
    let ld := s.busRead cl a 8
    let st := s.busWrite cl a (bytesLE 8 (s.sReg cl i.src2.toNat).toNat)
    (i.dst.toNat < 32 → s.accHeld cl = false → s.hazard cl [] [] [(a, a + 8, false)] = false →
      (a % 8 = 0 → a < 2 ^ 48 → ld.2.1 = rOK →
        Completes (exec (.sxLd cl i) s) cl 1 0x10 i (ld.1.setS cl i.dst.toNat (BitVec.ofNat 64 (natLE ld.2.2.2))))
      ∧ (a % 8 ≠ 0 → exec (.sxLd cl i) s = .next (s.takeExc cl (Exc.plain xALIGN a) 1 0x10 (s.pc cl) 8)))
    ∧ (i.src2.toNat < 32 → s.accHeld cl = false → s.hazard cl [] [] [(a, a + 8, true)] = false →
      (a % 8 = 0 → a < 2 ^ 48 → st.2.1 = rOK →
        CompletesSettled (exec (.sxSt cl i) s) cl 1 0x11 i st.1.releaseHeld)
      ∧ (a % 8 ≠ 0 →
        exec (.sxSt cl i) s = .next (s.takeExc cl (Exc.plain xALIGN a) 1 0x11 (s.pc cl) 8).pumpAll.settleFence))
    ∧ (s.sReg cl i.src1.toNat = s.rd (clJstep cl) → Completes (exec (.sxStepchk cl i) s) cl 1 0x1A i s)
    ∧ (s.sReg cl i.src1.toNat ≠ s.rd (clJstep cl) →
        exec (.sxStepchk cl i) s = .next (s.takeExc cl (Exc.plain xSTEPSKEW) 1 0x1A (s.pc cl) 8))

/-! ## The vector class VX -/

/-- A vector instruction is not held by a collective of its cluster (R131). -/
def VxFree (s : State) (cl : Fin 128) (op : Nat) (i : Issue) : Prop :=
  s.hazard cl (vxUses s cl op i).1 (vxUses s cl op i).2.1 (vxUses s cl op i).2.2 = false

/-- ADD, SUB, MUL, FMA, DIV, SQRT and RCP complete where the residue check finds nothing (R73), element by element: the exact result
of the elements rounded once into FMTD (R56, R100), a fast DIV, SQRT or RCP within its stated bound; RSQRT, EXP2, LOG2 and TANH
complete within theirs (the value inside the bound is free: log entry 14). -/
def Obligations.VxArithmetic : Prop :=
  ∀ (s : State) (cl : Fin 128) (i : Issue), Canon s → Issues s cl i → i.x = false → i.dst.toNat < 32 → i.src1.toNat < 32 →
    let fa := i.fmta.toNat
    let fb := i.fmtb.toNat
    let fd := i.fmtd.toNat
    let n3 := lanes [fa, fb, fd]
    let n2 := lanes [fa, fd]
    let a := fun (n k : Nat) => (s.vElems cl i.src1 fa n).getD k 0
    let b := fun (k : Nat) => (s.vElems cl i.src2 fb n3).getD k 0
    let c := fun (k : Nat) => (s.vElems cl i.aux fd n3).getD k 0
    let bin := fun (op k : Nat) => binCode op fa fb fd (s.strictFor cl i) i.sat (s.rndFor cl i k) (a n3 k) (b k)
    let una := fun (op bound k : Nat) => nudge fd bound (Config.ulpOff op fd (BitVec.ofNat 64 (a n2 k)) 0)
      ((nUnary op (decodeNum fa (a n2 k))).into fd (s.rndFor cl i k) i.sat)
    (elemFmt fa → elemFmt fd →
      (elemFmt fb → i.src2.toNat < 32 → i.upset = false →
        (VxFree s cl 0x00 i → VecEnds (exec (.vxAdd cl i) s) s cl 0x00 i fd n3 (bin 0))
        ∧ (VxFree s cl 0x01 i → VecEnds (exec (.vxSub cl i) s) s cl 0x01 i fd n3 (bin 1))
        ∧ (VxFree s cl 0x02 i → VecEnds (exec (.vxMul cl i) s) s cl 0x02 i fd n3 (bin 2))
        ∧ (VxFree s cl 0x04 i → VecEnds (exec (.vxDiv cl i) s) s cl 0x04 i fd n3 (bin 4))
        ∧ (VxFree s cl 0x03 i → i.aux.toNat < 32 → VecEnds (exec (.vxFma cl i) s) s cl 0x03 i fd n3 fun k =>
            (nFma (decodeNum fa (a n3 k)) (decodeNum fb (b k)) (decodeNum fd (c k))).into fd (s.rndFor cl i k) i.sat))
      ∧ (i.upset = false →
        (VxFree s cl 0x05 i → VecEnds (exec (.vxSqrt cl i) s) s cl 0x05 i fd n2 (una 5 (if s.strictFor cl i then 0 else 1)))
        ∧ (VxFree s cl 0x06 i → VecEnds (exec (.vxRcp cl i) s) s cl 0x06 i fd n2 (una 6 (if s.strictFor cl i then 0 else 1)))))
    ∧ (1 ≤ fa → fa ≤ 3 → 1 ≤ fd → fd ≤ 3 →
        (VxFree s cl 0x07 i → VecEnds (exec (.vxRsqrt cl i) s) s cl 0x07 i fd n2 (una 7 1))
        ∧ (VxFree s cl 0x08 i → VecEnds (exec (.vxExp2 cl i) s) s cl 0x08 i fd n2 (una 8 2))
        ∧ (VxFree s cl 0x09 i → VecEnds (exec (.vxLog2 cl i) s) s cl 0x09 i fd n2 (una 9 2))
        ∧ (VxFree s cl 0x0A i → VecEnds (exec (.vxTanh cl i) s) s cl 0x0A i fd n2 (una 10 (if fd = 1 then 3 else 1))))

/-- MAX, MIN, MAXNUM, MINNUM, SEL, the bitwise and shift instructions, CVT, BCAST and SCANBITS complete, element by element (R48, R59,
R62, R100, R102). -/
def Obligations.VxElementwise : Prop :=
  ∀ (s : State) (cl : Fin 128) (i : Issue), Canon s → Issues s cl i → i.x = false → i.dst.toNat < 32 → i.src1.toNat < 32 →
    let fa := i.fmta.toNat
    let fb := i.fmtb.toNat
    let fd := i.fmtd.toNat
    let n3 := lanes [fa, fb, fd]
    let n2 := lanes [fa, fd]
    let a := fun (n k : Nat) => (s.vElems cl i.src1 fa n).getD k 0
    let b := fun (k : Nat) => (s.vElems cl i.src2 fb n3).getD k 0
    let mm := fun (mx num : Bool) (k : Nat) => intoFmt (isInt fa && isInt fb) fd (s.rndFor cl i k) i.sat
      (nMinMax mx num (decodeNum fa (a n3 k)) (decodeNum fb (b k)))
    let bit := fun (op k : Nat) => CRes.ok (bitCode op fa fb fd (a n3 k) (b k))
    (i.src2.toNat < 32 → elemFmt fa → elemFmt fb → elemFmt fd →
      (VxFree s cl 0x10 i → VecEnds (exec (.vxMax cl i) s) s cl 0x10 i fd n3 (mm true false))
      ∧ (VxFree s cl 0x11 i → VecEnds (exec (.vxMin cl i) s) s cl 0x11 i fd n3 (mm false false))
      ∧ (VxFree s cl 0x12 i → VecEnds (exec (.vxMaxnum cl i) s) s cl 0x12 i fd n3 (mm true true))
      ∧ (VxFree s cl 0x13 i → VecEnds (exec (.vxMinnum cl i) s) s cl 0x13 i fd n3 (mm false true))
      ∧ (VxFree s cl 0x19 i → i.aux.toNat < 8 → VecEnds (exec (.vxSel cl i) s) s cl 0x19 i fd n3 fun k =>
          let x := if (s.pReg cl i.aux.toNat).getLsbD k then (fa, a n3 k) else (fb, b k)
          .ok (if x.1 = fd then x.2 else (convertCode x.1 fd (s.rndFor cl i k) i.sat x.2).code)))
    ∧ (i.src2.toNat < 32 → isInt fa → isInt fb → isInt fd →
      (VxFree s cl 0x20 i → VecEnds (exec (.vxAnd cl i) s) s cl 0x20 i fd n3 (bit 0x20))
      ∧ (VxFree s cl 0x21 i → VecEnds (exec (.vxOr cl i) s) s cl 0x21 i fd n3 (bit 0x21))
      ∧ (VxFree s cl 0x22 i → VecEnds (exec (.vxXor cl i) s) s cl 0x22 i fd n3 (bit 0x22))
      ∧ (VxFree s cl 0x23 i → VecEnds (exec (.vxShl cl i) s) s cl 0x23 i fd n3 (bit 0x23))
      ∧ (VxFree s cl 0x24 i → VecEnds (exec (.vxShr cl i) s) s cl 0x24 i fd n3 (bit 0x24))
      ∧ (VxFree s cl 0x25 i → VecEnds (exec (.vxSra cl i) s) s cl 0x25 i fd n3 (bit 0x25)))
    ∧ (elemOrScale fa → elemOrScale fd → VxFree s cl 0x28 i →
        VecEnds (exec (.vxCvt cl i) s) s cl 0x28 i fd n2 fun k => convertCode fa fd (s.rndFor cl i k) i.sat (a n2 k))
    ∧ (elemFmt fd → VxFree s cl 0x32 i →
        VecEnds (exec (.vxBcast cl i) s) s cl 0x32 i fd (lanes [fd]) fun _ =>
          .ok ((s.sReg cl i.src1.toNat).toNat % 2 ^ fmtBits fd))
    ∧ (i.src2.toNat < 32 → i.aux.toNat < 32 → VxFree s cl 0x3C i →
        let found := ((List.range 8192).filter fun k =>
          decide ((s.sReg cl i.src2.toNat).toNat ≤ k) && (s.vReg cl i.src1.toNat).getLsbD k).take 256
        ∃ t, Completes (exec (.vxScanbits cl i) s) cl 2 0x3C i t
          ∧ (∀ k, k < 256 → (t.vElems cl i.dst 10 256).getD k 0 =
              (if (s.pReg cl i.pred.toNat).getLsbD k then found.getD k 0xFFFFFFFF else (s.vElems cl i.dst 10 256).getD k 0))
          ∧ t.sReg cl i.aux.toNat = sAfter i.aux (BitVec.ofNat 64 found.length)
          ∧ (∀ k, k ≠ clS cl i.aux.toNat → t.rd k = s.rd k) ∧ { t with regs := s.regs, clusters := s.clusters } = s)

/-- CMP and PMASK write the bits of Pd at the governed elements and leave its other bits (R48, R80, R100). -/
def Sys2Proof.Claims.VxPredicates : Prop :=
  ∀ (s : State) (cl : Fin 128) (i : Issue), Canon s → Issues s cl i → i.x = false → 1 ≤ i.dst.toNat → i.dst.toNat < 8 →
    i.src1.toNat < 32 →
    let fa := i.fmta.toNat
    let fb := i.fmtb.toNat
    let n := lanes [fa, fb]
    let cmp := fun (k : Nat) => nCompare i.imm8.toNat (decodeNum fa ((s.vElems cl i.src1 fa n).getD k 0))
      (decodeNum fb ((s.vElems cl i.src2 fb n).getD k 0))
    (i.src2.toNat < 32 → elemFmt fa → elemFmt fb → i.imm8.toNat ≤ 5 → VxFree s cl 0x18 i →
      ∃ t fl, Completes (exec (.vxCmp cl i) s) cl 2 0x18 i t fl
        ∧ (∀ k, k < 512 → (t.pReg cl i.dst.toNat).getLsbD k =
            (if k < n ∧ (s.pReg cl i.pred.toNat).getLsbD k then (cmp k).1 else (s.pReg cl i.dst.toNat).getLsbD k))
        ∧ (∀ k, k ≠ clLoc0 cl → k ≠ clLoc1 cl → t.rd k = s.rd k)
        ∧ { t with regs := s.regs, clusters := s.clusters } = s)
    ∧ (VxFree s cl 0x33 i →
      ∃ t, Completes (exec (.vxPmask cl i) s) cl 2 0x33 i t
        ∧ (∀ k, k < 512 → (t.pReg cl i.dst.toNat).getLsbD k =
            (if (s.pReg cl i.pred.toNat).getLsbD k then decide (k < (s.sReg cl i.src1.toNat).toNat)
             else (s.pReg cl i.dst.toNat).getLsbD k))
        ∧ { t with clusters := s.clusters } = s)

/-- LD loads and ST stores 1 KiB at the 128-byte-aligned offset Ss1 + sext(IMM8) * 1024 of the cluster's own store and complete where the
store answers OK; ALIGN where the offset is misaligned (R100, R101). RED completes with the tree's rounded value of the governed
elements in Sd, or with the identity of the operator where none is governed (R101). -/
def Sys2Proof.Claims.VxStoreAndReduce : Prop :=
  ∀ (s : State) (cl : Fin 128) (i : Issue), Issues s cl i → i.src1.toNat < 32 →
    let off := (s.sReg cl i.src1.toNat + i.imm8.signExtend 64 * 1024).toNat
    let at_ := storeAddr cl off
    let ld := s.rawRead cl at_ 1024
    let st := s.rawWrite cl at_ (bytesLE 1024 (s.vReg cl i.src2.toNat).toNat)
    let fa := i.fmta.toNat
    let fd := i.fmtd.toNat
    let n := lanes [fa, fd]
    let tree := redTree i.imm8.toNat fd (isInt fa && isInt fd) i.sat (s.rndFor cl i 0) Gather.none
      ((List.range n).map fun k => (⟨if (s.pReg cl i.pred.toNat).getLsbD k then
        some (decodeNum fa ((s.vElems cl i.src1 fa n).getD k 0)) else none, k⟩ : RedNode)) 9
    (On s cl i → i.x = false → i.dst.toNat < 32 → VxFree s cl 0x30 i →
      (off % 128 = 0 → off + 1024 ≤ storeSize → ld.2.1 = rOK →
        Completes (exec (.vxLd cl i) s) cl 2 0x30 i (ld.1.setV cl i.dst.toNat (BitVec.ofNat 8192 (natLE ld.2.2))))
      ∧ (off % 128 ≠ 0 → exec (.vxLd cl i) s = .next (s.takeExc cl (Exc.plain xALIGN at_) 2 0x30 (s.pc cl) 8)))
    ∧ (On s cl i → i.src2.toNat < 32 → VxFree s cl 0x31 i →
      (off % 128 = 0 → off + 1024 ≤ storeSize → st.2 = rOK → denOf i = false → Completes (exec (.vxSt cl i) s) cl 2 0x31 i st.1)
      ∧ (off % 128 = 0 → off + 1024 ≤ storeSize → st.2 = rOK → denOf i = true →
          ∃ (f : Nat) (d : DigSlot), Completes (exec (.vxSt cl i) s) cl 2 0x31 i
            ({ st.1 with free := f }.modCl cl fun c => { c with digs := c.digs.set DigSlot.reset (bitsOf i.ext 51 6) d }))
      ∧ (off % 128 ≠ 0 → exec (.vxSt cl i) s = .next (s.takeExc cl (Exc.plain xALIGN at_) 2 0x31 (s.pc cl) (instrLen i))))
    ∧ (i.x = false → i.dst.toNat < 32 → elemFmt fa → (fd = 0 ∨ fd = 1 ∨ fd = 10) → i.imm8.toNat ≤ 2 → VxFree s cl 0x38 i →
      (∀ x lane rest, tree.2 = ⟨some x, lane⟩ :: rest →
        let c := intoFmt (isInt fa && isInt fd) fd (s.rndFor cl i 0) i.sat (if x.isSnan then ARes.invalid 2 else .ok x)
        let g := tree.1.res c 0 lane 0
        Completes (exec (.vxRed cl i) s) cl 2 0x38 i
          ((s.setS cl i.dst.toNat (BitVec.ofNat 64 c.code)).locate cl i 1 g.ev) g.fl)
      ∧ ((∀ k, k < n → (s.pReg cl i.pred.toNat).getLsbD k = false) →
        Completes (exec (.vxRed cl i) s) cl 2 0x38 i (s.setS cl i.dst.toNat (BitVec.ofNat 64 (redIdentity i.imm8.toNat fd)))))

/-! ## The matrix class MX -/

/-- No collective of the cluster holds one of the accumulator sets or ranges that a matrix instruction uses (R88, R131). -/
def MxFree (s : State) (cl : Fin 128) (sets : List Nat) (rng : List (Nat × Nat × Bool)) : Prop :=
  (∀ a ∈ sets, (s.aSet cl a).held = false) ∧ s.hazard cl [] [] rng = false

/-- A matrix instruction that stores the results `r` in the tensor `t` completes where its writes are answered OK. -/
def Stores (o : Answer) (s : State) (cl : Fin 128) (op : Nat) (i : Issue) (t : TD × TD) (r : Results) (g : Gather) : Prop :=
  let w := writeResults (ownPort cl) s t.1 t.2 r
  w.2.1 = rOK → Completes o cl 3 op i ((w.1.denFold cl i t.1.fmt r.codes).locate cl i 0 g.ev) g.fl

/-- AZERO empties a set. ALD loads one: its tag is that of IMM8[1:0] and its element (r, c) is the tensor's, rounded into the set's
type. AMOV stores a set, rounded into FMTD, and RMAX the row maxima (R48, R86, R103). On an empty tensor nothing is done (R84). -/
def Obligations.MxMoves : Prop :=
  ∀ (s : State) (cl : Fin 128) (i : Issue), Canon s → Issues s cl i → On s cl i →
    let fa := i.fmta.toNat
    let fd := i.fmtd.toNat
    let a := s.mPair cl i.src1.toNat
    let t := s.mPair cl i.dst.toNat
    let src := readScaled (ownPort cl) s a.1 a.2
    (i.x = false → i.dst.toNat < 8 → MxFree s cl [i.dst.toNat] [] →
      Completes (exec (.mxAzero cl i) s) cl 3 0x00 i (s.setA cl i.dst.toNat AccSet.reset))
    ∧ (i.x = false → i.dst.toNat < 8 → mxFmt fa → i.imm8.toNat % 4 ≠ 3 → MxFree s cl [i.dst.toNat] (pairHz a false) →
        s.tensorOk cl i.src1.toNat fa false → a.1.dim1 ≤ 128 → a.1.dim0 ≤ 128 →
        (a.1.empty → Completes (exec (.mxAld cl i) s) cl 3 0x01 i s)
        ∧ (a.1.empty = false → inStore cl a → src.2.1 = rOK →
          let tag : AccTag := if i.imm8.toNat % 4 = 0 then .f32 else if i.imm8.toNat % 4 = 1 then .f32w else .i32
          ∃ t fl, Completes (exec (.mxAld cl i) s) cl 3 0x01 i t fl
            ∧ (t.aSet cl i.dst.toNat).tag = tag ∧ (t.aSet cl i.dst.toNat).held = false
            ∧ (∀ r c, r < a.1.dim1 → c < a.1.dim0 →
                (t.aSet cl i.dst.toNat).elems.get ExNum.zero (r * 128 + c) =
                  (intoAcc tag (s.rndFor cl i (r * 128 + c)) i.sat (isInt a.1.fmt && !a.1.bsc) (src.2.2.2.ares (c + a.1.dim0 * r))).1)
            ∧ (∀ k, k ≠ i.dst.toNat → t.aSet cl k = src.1.aSet cl k)
            ∧ { t with regs := src.1.regs, clusters := src.1.clusters, free := src.1.free } = src.1))
    ∧ (i.src1.toNat < 8 → mxFmt fd → (fa = 1 ∨ fa = 10) → MxFree s cl [i.src1.toNat] (pairHz t true) →
        s.tensorOk cl i.dst.toNat fd true → t.1.dim1 ≤ 128 → t.1.dim0 ≤ 128 →
        let st := s.aSet cl i.src1.toNat
        (st.tag = .empty ∨ (st.tag = .i32 ∧ fa = 10) ∨ ((st.tag = .f32 ∨ st.tag = .f32w) ∧ fa = 1)) →
        (t.1.empty → Completes (exec (.mxAmov cl i) s) cl 3 0x02 i s)
        ∧ (t.1.empty = false → inStore cl t →
          let r := resultsFor t.1 t.2 (st.tag = .i32) i.sat (fun j => s.rndFor cl i j) fun j =>
            ARes.ok (if (t.1.index j).2.2 = 0 then st.elems.get ExNum.zero ((t.1.index j).2.1 * 128 + (t.1.index j).1) else ExNum.zero)
          Stores (exec (.mxAmov cl i) s) s cl 0x02 i t r (mxGather t.1.dim0 r fun _ => 0)))
    ∧ (i.x = false → mxFmt fa → mxFmt fd → MxFree s cl [] (pairHz a false ++ pairHz t true) →
        s.tensorOk cl i.src1.toNat fa false → s.tensorOk cl i.dst.toNat fd true → t.1.dim1 = a.1.dim1 → t.1.dim0 = 1 →
        ((a.1.empty ∨ t.1.empty) → Completes (exec (.mxRmax cl i) s) cl 3 0x04 i s)
        ∧ (a.1.empty = false → t.1.empty = false → inStore cl a → inStore cl t → src.2.1 = rOK →
          let row := fun (k : Nat) => (List.range a.1.dim0).map fun c => src.2.2.2.num c k 0
          let best := fun (l : List ExNum) => l.tail.foldl (fun (x : ARes) y =>
            ⟨(nMinMax true false x.val y).val, x.fl ||| (nMinMax true false x.val y).fl, x.kind.or (nMinMax true false x.val y).kind⟩)
            (if (l.headD ExNum.zero).isSnan then ARes.invalid 2 else .ok (l.headD ExNum.zero))
          let r := resultsFor t.1 t.2 (isInt a.1.fmt && !a.1.bsc) i.sat (fun j => s.rndFor cl i j) fun j => best (row (j % t.1.dim1))
          Stores (exec (.mxRmax cl i) s) src.1 cl 0x04 i t r
            (mxGather 1 r fun j => ((row (j % t.1.dim1)).zipIdx.filterMap fun y => if y.1.isSnan then some y.2 else none).headD 0)))

/-- MX.MMA completes in both its forms where its operands are legal, lie in the own store and read OK, and the checksum holds (R103,
R104): the accumulator form leaves in Ad the tag and, at (r, c), the dot product of row r and column c plus the old element, rounded
once (R51-R55, R86); the tensor form stores the rounded dot products in Td and leaves its staging sets EMPTY (readings of the matrix
class: log entry 28). -/
def Obligations.MxMma : Prop :=
  ∀ (s : State) (cl : Fin 128) (i : Issue), Canon s → Issues s cl i → On s cl i → i.upset = false →
    mxFmt i.fmta.toNat → mxFmt i.fmtb.toNat → mxFmt i.fmtd.toNat →
    let a := s.mPair cl i.src1.toNat
    let b := s.mPair cl i.src2.toNat
    let t := s.mPair cl i.dst.toNat
    let m := a.1.dim1
    let w := b.1.dim0
    let wacc := i.imm8.getLsbD 0
    let acc := i.imm8.getLsbD 1
    let ip := intPath a.1 b.1
    let tag := mmaTag ip wacc
    let d := s.aSet cl i.dst.toNat
    let r := readPair cl s a b
    let strict := s.strictFor cl i
    mmaLegal s cl i.src1.toNat i.src2.toNat i.fmta.toNat i.fmtb.toNat →
    (i.imm8.getLsbD 2 = false → i.x = false → i.dst.toNat < 8 → MxFree s cl [i.dst.toNat] (pairHz a false ++ pairHz b false) →
      m ≤ 128 → w ≤ 128 → i.fmtd.toNat = (if ip then 10 else 1) → (d.tag = .empty ∨ (d.tag = tag ∧ ¬ (ip = true ∧ wacc = true))) →
      ((a.1.empty ∨ b.1.empty) → Completes (exec (.mxMma cl i) s) cl 3 0x03 i s)
      ∧ (a.1.empty = false → b.1.empty = false → inStore cl a → inStore cl b → r.2.1 = rOK →
        Tab.wf (fun _ => ExNum.zero) d.elems = true →
        ∃ t fl, Completes (exec (.mxMma cl i) s) cl 3 0x03 i t fl
          ∧ (t.aSet cl i.dst.toNat).tag = tag
          ∧ (∀ p q, p < m → q < w → (t.aSet cl i.dst.toNat).elems.get ExNum.zero (p * 128 + q) =
              (intoAcc tag (s.rndFor cl i (p * 128 + q)) i.sat ip
                (mxElem r.2.2.2.1 r.2.2.2.2 strict wacc ip (d.elems.get ExNum.zero (p * 128 + q)) p q).val).1)
          ∧ (∀ p q, q < 128 → (m ≤ p ∨ w ≤ q) → (t.aSet cl i.dst.toNat).elems.get ExNum.zero (p * 128 + q) =
              d.elems.get ExNum.zero (p * 128 + q))
          ∧ (∀ k, k ≠ i.dst.toNat → t.aSet cl k = r.1.aSet cl k)
          ∧ { t with regs := r.1.regs, clusters := r.1.clusters } = r.1))
    ∧ (i.imm8.getLsbD 2 = true →
      MxFree s cl (List.range (min (mxBlocks m w) 8)) (pairHz a false ++ pairHz b false ++ pairHz t true) →
      s.tensorOk cl i.dst.toNat i.fmtd.toNat true → t.1.dim1 = m → t.1.dim0 = w → mxBlocks m w ≤ 8 →
      ((a.1.empty ∨ b.1.empty ∨ t.1.empty) → Completes (exec (.mxMma cl i) s) cl 3 0x03 i s)
      ∧ (a.1.empty = false → b.1.empty = false → t.1.empty = false → inStore cl a → inStore cl b → inStore cl t →
        let o := if acc then readScaled (ownPort cl) r.1 t.1 t.2 else (r.1, rOK, 0, ⟨⟨t.1, []⟩, none⟩)
        r.2.1 = rOK → o.2.1 = rOK →
        let elem := fun (j : Nat) => mxElem r.2.2.2.1 r.2.2.2.2 strict wacc ip
          (if acc then o.2.2.2.num (j % w) (j / w) 0 else ExNum.zero) (j / w) (j % w)
        let es := (List.range (m * w)).map elem
        let x := resultsFor t.1 t.2 ip i.sat (fun j => s.rndFor cl i j) fun j =>
          let e := (es.getD j ⟨.ok ExNum.zero, 0⟩).val
          if ip && !isInt i.fmtd.toNat then
            (⟨decodeNum 10 (intoInt 10 i.sat (e.val.scaled 0)).code, e.fl ||| (intoInt 10 i.sat (e.val.scaled 0)).fl, e.kind⟩ : ARes)
          else e
        Stores (exec (.mxMma cl i) s) ((List.range (mxBlocks m w)).foldl (fun u k => u.setA cl k AccSet.reset) o.1) cl 0x03 i t x
          (mxGather w x fun j => (es.getD j ⟨.ok ExNum.zero, 0⟩).kidx)))

/-! ## The tensor moves TX, and the asynchronous operations -/

/-- An asynchronous instruction is accepted (R90): the lowest free move slot takes the operation, the handle 0x1000 + generation * 64 +
slot goes to Sd and into the completion record, and `f` is what the operation has started. -/
def Accepts (o : Answer) (s : State) (cl : Fin 128) (cls op : Nat) (i : Issue) (w : AsyncOp) (f : Nat → State → State) : Prop :=
  ∀ k, s.freeSlotOf cl = some k →
    let h := 0x1000 + (s.slot cl k).gen * 64 + k
    Completes o cl cls op i
      ((f k (s.setSlot cl k { s.slot cl k with op := some w })).setS cl i.dst.toNat (BitVec.ofNat 64 h)) 0 0 h

/-- TX.MOV, GATHER, SCATTER, MIRROR, DX.HASH and QX.SEND complete by being accepted into a move slot where one is free and their
operands are legal (R79, R85, R90, R105-R108); a MIRROR or SEND queues its packets (readings of moves and of an empty tensor: log entries
38, 51 and 52). -/
def Obligations.AsyncAccepted : Prop :=
  ∀ (s : State) (cl : Fin 128) (i : Issue), Issues s cl i → On s cl i → i.dst.toNat < 32 →
    let fa := i.fmta.toNat
    let fd := i.fmtd.toNat
    let d := s.tPair cl i.src1.toNat
    let a := s.tPair cl i.src2.toNat
    let x := TD.of (s.tReg cl i.aux.toNat)
    let free := fun (r : List (Nat × Nat × Bool)) => s.hazard cl [] [] r = false
    let start := fun (kind : AsyncKind) (td ta tidx : Nat) => s.asyncOp cl i kind td ta tidx
    (movFmts fa fd → s.tensorOk cl i.src1.toNat fd true → s.tensorOk cl i.src2.toNat fa false → spansMeet d a = false →
      (sameDims d.1 a.1 → free (pairHz a false ++ pairHz d true) →
        Accepts (exec (.txMov cl i) s) s cl 4 0x00 i (start .mov i.src1.toNat i.src2.toNat 0) fun _ t => t)
      ∧ (s.tensorOk cl i.aux.toNat 10 false → free (pairHz a false ++ pairHz d true ++ x.hz false) →
        Accepts (exec (.txGather cl i) s) s cl 4 0x01 i (start .gather i.src1.toNat i.src2.toNat i.aux.toNat) (fun _ t => t)
        ∧ (i.x = false →
          Accepts (exec (.txScatter cl i) s) s cl 4 0x02 i (start .scatter i.src1.toNat i.src2.toNat i.aux.toNat) fun _ t => t)))
    ∧ (i.x = false → i.src1.toNat < 32 → s.accHeld cl = false → s.tensorOk cl i.src2.toNat fa false → free (a.1.hz false) →
      Accepts (exec (.txMirror cl i) s) s cl 4 0x07 i (start .mirror i.src2.toNat i.src2.toNat 0)
        (fun k t => t.mirrorStart cl k (start .mirror i.src2.toNat i.src2.toNat 0))
      ∧ (elemOrScale fa → a.1.totalBytes ≤ 4096 →
        Accepts (exec (.qxSend cl i) s) s cl 7 0x00 i (start .send i.src2.toNat i.src2.toNat 0)
          fun k t => t.sendStart cl k (start .send i.src2.toNat i.src2.toNat 0)))
    ∧ (i.x = false → elemOrScale fa → s.tensorOk cl i.src1.toNat fa false → free (d.1.hz false) →
      Accepts (exec (.dxHash cl i) s) s cl 6 0x04 i (start .hash i.src1.toNat i.src1.toNat 0) fun _ t => t)

/-- LDT and STT move a descriptor between a T register and 16 aligned bytes of the own store; TSET writes one field of a descriptor in
its unit; WAIT completes where its move handle is not in use or its operation has completed (R83, R90, R105, R106). -/
def Obligations.TxDescriptors : Prop :=
  ∀ (s : State) (cl : Fin 128) (i : Issue), Issues s cl i → On s cl i → i.x = false → i.src1.toNat < 32 →
    let off := (s.sReg cl i.src1.toNat + i.imm8.signExtend 64 * 16).toNat
    let at_ := storeAddr cl off
    let v := (s.sReg cl i.src1.toNat).toNat
    (off % 16 = 0 → off + 16 ≤ storeSize →
      (s.hazard cl [] [] [(at_, at_ + 16, false)] = false → (s.rawRead cl at_ 16).2.1 = rOK →
        Completes (exec (.txLdt cl i) s) cl 4 0x03 i
          ((s.rawRead cl at_ 16).1.setT cl i.dst.toNat (BitVec.ofNat 128 (natLE (s.rawRead cl at_ 16).2.2))))
      ∧ (s.hazard cl [] [] [(at_, at_ + 16, true)] = false →
        (s.rawWrite cl at_ (bytesLE 16 (s.tReg cl i.src2.toNat).toNat)).2 = rOK →
        Completes (exec (.txStt cl i) s) cl 4 0x04 i (s.rawWrite cl at_ (bytesLE 16 (s.tReg cl i.src2.toNat).toNat)).1))
    ∧ (i.imm8.toNat ≤ 8 →
      let f := tsetField i.imm8.toNat
      (v % f.2.2 = 0 → v / f.2.2 < 2 ^ f.2.1 →
        ∃ d : BitVec 128, Completes (exec (.txTset cl i) s) cl 4 0x05 i (s.setT cl i.dst.toNat d)
          ∧ d.toNat / 2 ^ f.1 % 2 ^ f.2.1 = v / f.2.2
          ∧ ∀ b, b < f.1 ∨ f.1 + f.2.1 ≤ b → d.getLsbD b = (s.tReg cl i.dst.toNat).getLsbD b)
      ∧ (v % f.2.2 ≠ 0 ∨ 2 ^ f.2.1 ≤ v / f.2.2 →
        exec (.txTset cl i) s = .next (s.takeExc cl (Exc.plain xALIGN v) 4 0x05 (s.pc cl) 8)))
    ∧ (0x1000 ≤ v → v < 0x1200 → (s.slot cl (v % 64)).gen ≠ v / 64 % 8 ∨ (s.slot cl (v % 64)).op = none →
      Completes (exec (.txWait cl i) s) cl 4 0x06 i s)
    ∧ (v < 0x1000 ∨ 0x1200 ≤ v → exec (.txWait cl i) s = .next (s.takeExc cl (Exc.plain xHANDLE) 4 0x06 (s.pc cl) 8))

/-- ASYNC_OP_FINISH ends a running operation (R90, R93, R95): a move or hash does its work, a mirror or send ends once its packets are
answered; the second completion record is written, the slot is freed with the next generation on success, and keeps the failure until
it is reported. On a slot without a running operation nothing happens (when the bytes move is the model's choice: log entry 19). -/
def Obligations.AsyncFinish : Prop :=
  ∀ (s : State) (cl : Fin 128) (slot : Fin 64),
    ((∀ o, (s.slot cl slot).op = some o → o.st ≠ .running) → exec (.asyncOpFinish cl slot) s = .next s)
    ∧ ∀ o, (s.slot cl slot).op = some o → o.st = .running → s.accHeld cl = false →
      let ends := fun (e : MoveEnd) =>
        exec (.asyncOpFinish cl slot) s = .next ((s.asyncEnd cl slot o e).mirrorAdvance).pumpAll.settleFence
      (o.kind = .mov → ends (moveMov cl o s)) ∧ (o.kind = .gather → ends (moveGather cl o s))
      ∧ (o.kind = .scatter → ends (moveScatter cl o s))
      ∧ (o.kind = .hash → s.hashBefore cl o = false → ends (moveHash cl o s))
      ∧ (o.kind = .mirror ∨ o.kind = .send → o.waiting = 0 → ends ⟨s, 0, none, o.answer, o.addr⟩)

/-! ## The digest class DX and the queue class QX -/

/-- DIGEST folds the elements of a tensor into a digest slot, each with its index; DRD reads a part of a slot, DCLR clears it, DPUB
publishes it to the layer's entry under the cluster's JSTEP (R107, R345, R346). -/
def Sys2Proof.Claims.DxCompletes : Prop :=
  ∀ (s : State) (cl : Fin 128) (i : Issue), Issues s cl i → On s cl i → i.x = false →
    let f := i.fmta.toNat
    let t := TD.of (s.tReg cl i.src2.toNat)
    let r := readTensor (busPort cl) s t
    let d := (s.cl cl).digs.get DigSlot.reset (i.imm8.toNat % 64)
    (i.src1.toNat < 32 → elemOrScale f → s.accHeld cl = false → s.hazard cl [] [] (t.hz false) = false →
      s.tensorOk cl i.src2.toNat f false →
      (t.empty → Completes (exec (.dxDigest cl i) s) cl 6 0x00 i s)
      ∧ (t.empty = false → r.2.1 = rOK →
        Completes (exec (.dxDigest cl i) s) cl 6 0x00 i
          (r.1.modCl cl fun c => { c with
            digs := c.digs.modify DigSlot.reset (i.imm8.toNat % 64) fun d =>
              (r.2.2.2.codes.zipIdx (s.sReg cl i.src1.toNat).toNat).foldl (fun d x => d.fold (r.1.rd digSeed) x.2 x.1 f) d })))
    ∧ (i.dst.toNat < 32 → i.imm8.toNat / 64 ≠ 3 →
        Completes (exec (.dxDrd cl i) s) cl 6 0x01 i (s.setS cl i.dst.toNat
          (if i.imm8.toNat / 64 = 0 then d.sum else BitVec.ofNat 64 (if i.imm8.toNat / 64 = 1 then d.count else d.nans))))
    ∧ Completes (exec (.dxDclr cl i) s) cl 6 0x02 i
        (s.modCl cl fun c => { c with digs := c.digs.set DigSlot.reset (i.imm8.toNat % 64) ⟨0, 0, 0⟩ })
    ∧ (i.src1.toNat < 32 →
        Completes (exec (.dxDpub cl i) s) cl 6 0x03 i (s.publish (s.rd (clJstep cl)) (bitsOf (s.sReg cl i.src1.toNat) 0 16) d))

/-- One fold of the digest (R345): SUM gains mix64(index xor SEED, code), COUNT 1 and NANS 1 for a NaN, in their widths; and the order of
folding does not matter. -/
def Sys2Proof.Claims.DigestFold : Prop :=
  (∀ (d : DigSlot) (seed : W64) (j code f : Nat),
    let e := d.fold seed j code f
    e.sum = d.sum + mix64 (BitVec.ofNat 64 j ^^^ seed) (BitVec.ofNat 64 code) ∧ e.count = (d.count + 1) % 2 ^ 48
    ∧ e.nans = (d.nans + if isNanCode f code then 1 else 0) % 2 ^ 32)
  ∧ ∀ (d : DigSlot) (seed : W64) (f : Nat) (l m : List (Nat × Nat)), l.Perm m →
    l.foldl (fun d x => d.fold seed x.2 x.1 f) d = m.foldl (fun d x => d.fold seed x.2 x.1 f) d

/-- mix64 (R344): its two functions, modulo 2^64, are those of the rule; f is a bijection, so mix64 is one in its second argument for every
first one, and in its first for every second. -/
def Obligations.Mix64Bijective : Prop :=
  (∀ z : W64, mixF z =
    (let y := (z ^^^ (z >>> 30)) * 0xBF58476D1CE4E5B9
     let x := (y ^^^ (y >>> 27)) * 0x94D049BB133111EB
     x ^^^ (x >>> 31)))
  ∧ (∀ a b : W64, mix64 a b = mixF (mixF (a + 0x9E3779B97F4A7C15) ^^^ b))
  ∧ (∀ y z : W64, mixF y = mixF z → y = z) ∧ (∀ z : W64, ∃ y, mixF y = z)
  ∧ (∀ a b c : W64, mix64 a b = mix64 a c → b = c) ∧ (∀ a b c : W64, mix64 a c = mix64 b c → a = b)
  ∧ (∀ a z : W64, ∃ b, mix64 a b = z) ∧ ∀ b z : W64, ∃ a, mix64 a b = z

/-- QX.POLL counts the ready slots of a queue; RECV copies the oldest into its tensor, writes its length to Sd and releases it, and
waits where none is ready; SUBMIT hands 64 B of the store to a command queue as the cluster, and is denied without the XQ right; NOTIFY posts
32 B of the store to the host ring (R108, R109, R393, R402) (readings: log entries 53, 82 and 85). -/
def Obligations.QxCompletes : Prop :=
  ∀ (s : State) (cl : Fin 128) (i : Issue), Issues s cl i → On s cl i → i.x = false →
    let q := i.imm8.toNat % 8
    let t := TD.of (s.tReg cl i.src1.toNat)
    let off := (s.sReg cl i.src1.toNat).toNat
    let at_ := storeAddr cl off
    let take := fun (n : Nat) => s.rawRead cl at_ n
    let freeAt := fun (n : Nat) => s.hazard cl [] [] [(at_, at_ + n, false)] = false
    (i.dst.toNat < 32 →
      Completes (exec (.qxPoll cl i) s) cl 7 0x01 i (s.setS cl i.dst.toNat
        (BitVec.ofNat 64 ((s.cl cl).qready.countP fun e => e.1 = q)))
      ∧ (elemOrScale i.fmtd.toNat → s.accHeld cl = false → s.hazard cl [] [] (t.hz true) = false →
        s.tensorOk cl i.src1.toNat i.fmtd.toNat true →
        (t.empty → Completes (exec (.qxRecv cl i) s) cl 7 0x02 i s)
        ∧ (t.empty = false → ∀ e, (s.cl cl).qready.find? (fun e => e.1 = q) = some e →
          let r := s.rawRead cl (storeAddr cl (s.get (clQ_BASE cl q) * 4096 + e.2.1 * 4096)) e.2.2
          let w := writePieces (busPort cl) r.1 (t.bytePieces r.2.2)
          r.2.1 = rOK → w.2.1 = rOK →
          Completes (exec (.qxRecv cl i) s) cl 7 0x02 i
            ((w.1.modCl cl fun c => { c with qready := c.qready.erase e }).setS cl i.dst.toNat (BitVec.ofNat 64 e.2.2)))
        ∧ (t.empty = false → (∀ e ∈ (s.cl cl).qready, e.1 ≠ q) →
          exec (.qxRecv cl i) s = .next ((s.modCl cl fun c =>
            { c with wait := some ⟨.recv, i, 7, 0x02, s.pc cl, 8, (s.cl cl).seq⟩ }).put (clState_WINDOW cl) 1))))
    ∧ (i.src1.toNat < 32 → s.accHeld cl = false → freeAt 64 → off + 64 ≤ storeSize → (take 64).2.1 = rOK →
      ((take 64).1.granted 0x004 cl aXQ = true →
        CompletesSettled (exec (.qxSubmit cl i) s) cl 7 0x03 i
          ((take 64).1.submit (i.imm8.toNat % 64) ⟨words64 (take 64).2.2, ⟨cl, none⟩⟩))
      ∧ ((take 64).1.granted 0x004 cl aXQ = false →
        exec (.qxSubmit cl i) s = .next ((((take 64).1.deny cl (regBase + 0x400000) 0x004 aXQ).takeExc cl
          (Exc.plain xACCESS (regBase + 0x400000) rDENIED) 7 0x03
          (((take 64).1.deny cl (regBase + 0x400000) 0x004 aXQ).pc cl) 8).pumpAll.settleFence)))
    ∧ (i.src1.toNat < 32 → freeAt 32 → off + 32 ≤ storeSize → (take 32).2.1 = rOK →
        Completes (exec (.qxNotify cl i) s) cl 7 0x04 i ((take 32).1.post 2 cl (take 32).2.2))

/-! ## The class FX and the fused instructions -/

/-- PLAN loads a legal plan whose contexts and cells can be reserved from 32 B of the store, and raises COLL where they cannot; PFREE
releases a plan with nothing in flight; WAIT and FENCE complete, and TEST answers 1, where the collective or every collective has
completed; where it is in flight WAIT and FENCE wait and TEST answers 0 (R121-R123, R133, R136, R172) (reading of what FENCE waits for:
log entry 63). -/
def Obligations.FxPlansAndWaits : Prop :=
  ∀ (s : State) (cl : Fin 128) (i : Issue), Issues s cl i → On s cl i → i.x = false →
    let h := (s.sReg cl i.src1.toNat).toNat
    let at_ := storeAddr cl h
    let r := s.rawRead cl at_ 32
    let word := fun (k : Nat) => natLE ((r.2.2.drop (8 * k)).take 8)
    let p := planOf (word 0) (word 1) (word 2)
    let det := s.get digDet_DETERMINISTIC ≠ 0
    let waits := fun (kind : WaitKind) (op : Nat) => Host.Outcome.next (φ := Fault) (ρ := Refusal)
      ((s.modCl cl fun c => { c with wait := some ⟨kind, i, 5, op, s.pc cl, 8, (s.cl cl).seq⟩ }).put (clState_WINDOW cl) 1)
    (i.src1.toNat < 32 → s.hazard cl [] [] [(at_, at_ + 32, false)] = false → h % 32 = 0 → h + 32 ≤ storeSize → r.2.1 = rOK →
      s.planOk p (if det then 2 else 1) → s.planBusy cl i.dst.toNat = false →
      (s.quotaOk cl i.dst.toNat p →
        Completes (exec (.fxPlan cl i) s) cl 5 0x00 i (r.1.loadPlan cl i.dst.toNat p (decide det)))
      ∧ (s.quotaOk cl i.dst.toNat p = false →
        exec (.fxPlan cl i) s = .next (r.1.takeExc cl ⟨xCOLL, 0, 2 ^ 37, noHandle, s.pc cl⟩ 5 0x00 (r.1.pc cl) 8)))
    ∧ (s.planBusy cl i.dst.toNat = false →
        Completes (exec (.fxPfree cl i) s) cl 5 0x01 i
          (if (s.plan cl i.dst.toNat).isSome then s.releasePlan cl i.dst.toNat else s))
    ∧ (i.src1.toNat < 32 → h ≤ 0xFFF → (s.plan cl (h / 64)).isSome →
        (s.coll cl h = none →
          Completes (exec (.fxWait cl i) s) cl 5 0x04 i s
          ∧ (i.dst.toNat < 32 → Completes (exec (.fxTest cl i) s) cl 5 0x05 i (s.setS cl i.dst.toNat 1)))
        ∧ (∀ c, s.coll cl h = some c → c.fail = none → c.fired = none →
          exec (.fxWait cl i) s = waits (.fxWait h) 0x04
          ∧ (i.dst.toNat < 32 → Completes (exec (.fxTest cl i) s) cl 5 0x05 i (s.setS cl i.dst.toNat 0))))
    ∧ ((∀ c ∈ s.colls, c.cl ≠ cl.val) → Completes (exec (.fxFence cl i) s) cl 5 0x06 i s)
    ∧ ((∃ c ∈ s.colls, c.cl = cl.val) → (∀ c ∈ s.colls, c.cl = cl.val → c.fail = none ∧ c.fired = none) →
        exec (.fxFence cl i) s = waits .fxFence 0x06)

/-- A fused instruction has issued its collective `c` (R134, R137): the collective is in flight with its handle in Sd and in the
completion record; `u` is the state that the instruction's own computation leaves, and `parts` its gather contributions. -/
def IssuesColl (o : Answer) (cl : Fin 128) (cls op : Nat) (i : Issue) (sd : BitVec 6) (u : State) (c : Coll) (parts : List Contrib)
    (fl : Nat) : Prop :=
  CompletesSettled o cl cls op i ((u.issueColl c parts).setS cl sd.toNat (BitVec.ofNat 64 (c.plan * 64 + c.q % 64))) fl
    (c.plan * 64 + c.q % 64)

/-- MX.MMA.RS, MX.MMA.AR and VX.RED.AR complete by issuing a collective (R126-R134) where their plan is valid, their operands are legal
and read OK, the checks of R73 find nothing and neither the register's 64 collectives nor the plan's watch entries are used up: the
collective's elements are the rounded results in collective order, and the MX forms hold their accumulator sets (readings: log entries 29
and 86). -/
def Sys2Proof.Claims.FusedReductionsIssue : Prop :=
  ∀ (s : State) (cl : Fin 128) (i : Issue) (ac : PlanAcct), Issues s cl i → On s cl i → i.x = true → i.upset = false →
    s.plan cl (xfPlan i) = some ac →
    (∀ ar : Bool,
      let kind : Fused := if ar then .mmaAr else .mmaRs
      let o := if ar then exec (.mxMmaAr cl i) s else exec (.mxMmaRs cl i) s
      let a := s.mPair cl i.src1.toNat
      let b := s.mPair cl i.src2.toNat
      let m := a.1.dim1
      let w := b.1.dim0
      let ip := intPath a.1 b.1
      let a0 := i.imm8.toNat / 4 % 8
      let nb := mxBlocks m w
      let td := TD.of (s.tReg cl i.aux.toNat)
      let c := { s.newColl cl i kind ac with
        isInt := ip
        src := .acc a0 nb
        dst := .tensor (s.tReg cl i.aux.toNat) (s.tReg cl (i.aux.toNat + 1))
        nchunks := ac.plan.chunksOf (m * w)
        part := m
        n1 := w }
      let fr := c.finalRange ac.plan
      let r := readPair cl s a b
      i.dst.toNat < 32 → mxFmt i.fmta.toNat → mxFmt i.fmtb.toNat → mxFmt i.fmtd.toNat →
      MxFree s cl ((List.range (min nb 8)).map (a0 + ·)) (pairHz a false ++ pairHz b false ++ s.destHz cl i.aux.toNat ac.plan.op) →
      mmaLegal s cl i.src1.toNat i.src2.toNat i.fmta.toNat i.fmtb.toNat → s.tensorOk cl i.aux.toNat i.fmtd.toNat true →
      td.bsc = false → a0 + nb ≤ 8 →
      ((a.1.empty ∨ b.1.empty) → CompletesSettled o cl 3 (if ar then 0x06 else 0x05) i s)
      ∧ (a.1.empty = false → b.1.empty = false →
      td.count = (if ar then m * w else min (fr.2 * ac.plan.epc) (m * w - fr.1 * ac.plan.epc)) →
      s.countOk cl i.aux.toNat ac.plan.op → c.legal ac s → s.collFull c ac = false → inStore cl a → inStore cl b → r.2.1 = rOK →
      let f := if ip then 10 else 1
      let vals := (List.range (m * w)).map fun e =>
        let k := tileElem m w e
        (intoFmt ip f .rne i.sat (mxElem r.2.2.2.1 r.2.2.2.2 (s.strictFor cl i) (i.imm8.getLsbD 0) ip ExNum.zero k.1 k.2).val).code
      ∃ u fl, IssuesColl o cl 3 (if ar then 0x06 else 0x05) i i.dst u (c.withVals ac.plan vals) [] fl
        ∧ { u with regs := r.1.regs, clusters := r.1.clusters } = r.1
        ∧ (Canon s → ∀ k, k < nb → (u.aSet cl (a0 + k)).held = true ∧ (u.aSet cl (a0 + k)).tag = mmaTag ip (i.imm8.getLsbD 0))))
    ∧ (let fa := i.fmta.toNat
       let fd := i.fmtd.toNat
       let n := lanes [fa, fd]
       let d := i.dst.toNat
       let c := { s.newColl cl i .redAr ac with
         isInt := isInt fa
         src := .vreg i.src1.toNat
         dst := .vreg d
         nchunks := ac.plan.chunksOf n }
       d < 32 → i.src1.toNat < 32 → i.aux.toNat < 32 → elemFmt fa → elemFmt fd →
       s.hazard cl [i.src1.toNat] (if ac.plan.op = 5 then [d, d + 1] else [d]) [] = false →
       c.legal ac s → ¬ (ac.plan.bfx = true ∧ fa = 0) → ¬ (ac.plan.op = 5 ∧ 30 < d) → s.collFull c ac = false →
       let vals := (s.vElems cl i.src1 fa n).map fun x =>
         (if isInt fa then intoFmt true 10 .rne i.sat (.ok (decodeNum fa x)) else convertCode fa 1 .rne i.sat x).code
       ∃ u fl, IssuesColl (exec (.vxRedAr cl i) s) cl 2 0x40 i i.aux u (c.withVals ac.plan vals) [] fl
         ∧ { u with regs := s.regs } = s ∧ ∀ k, k ≠ clLoc0 cl → k ≠ clLoc1 cl → Canon s → u.rd k = s.rd k)

/-- TX.AG, FX.BCAST and FX.A2A complete by issuing a collective (R126, R129, R130): a sender's packed tensor is cut into chunks, each
member's own part for AG, the whole for the root of a BCAST, one part for each member for A2A; a receiver of a BCAST sends nothing
(readings: log entries 55 and 61). -/
def Sys2Proof.Claims.FusedGathersIssue : Prop :=
  ∀ (s : State) (cl : Fin 128) (i : Issue) (ac : PlanAcct), Issues s cl i → On s cl i → i.x = true →
    s.plan cl (xfPlan i) = some ac → i.dst.toNat < 32 → i.fmta = i.fmtd → elemOrScale i.fmtd.toNat → s.accHeld cl = false →
    let p := ac.plan
    let td := TD.of (s.tReg cl i.src1.toNat)
    let ta := TD.of (s.tReg cl i.src2.toNat)
    let r := readTensor (busPort cl) s ta
    let sent := r.2.2.2.packed
    let b := ta.bytes
    let coll := fun (kind : Fused) (src : HeldSrc) (dst : LandDst) (root part n1 chunks : Nat) =>
      { s.newColl cl i kind ac with src := src, dst := dst, root := root, part := part, n1 := n1, nchunks := chunks }
    let srcT := HeldSrc.tensor (s.tReg cl i.src2.toNat)
    let dstT := LandDst.tensor (s.tReg cl i.src1.toNat) 0
    let issuable := fun (c : Coll) => c.legal ac s = true ∧ s.collFull c ac = false
    s.hazard cl [] [] (ta.hz false ++ td.hz true) = false → s.tensorOk cl i.src1.toNat i.fmtd.toNat true →
    s.tensorOk cl i.src2.toNat i.fmtd.toNat false → td.bsc = false →
    (ta.empty → td.empty →
      CompletesSettled (exec (.txAg cl i) s) cl 4 0x08 i s
      ∧ (i.imm8.toNat % 32 ≤ (p.ph 0).nm → CompletesSettled (exec (.fxBcast cl i) s) cl 5 0x02 i s)
      ∧ CompletesSettled (exec (.fxA2a cl i) s) cl 5 0x03 i s)
    ∧ (ta.empty = false → td.empty = false →
    (let c := coll .ag srcT dstT 0 b (p.byteChunks b) (p.members * p.byteChunks b)
     td.bytes = b * p.members → issuable c → r.2.1 = rOK →
     IssuesColl (exec (.txAg cl i) s) cl 4 0x08 i i.dst r.1 c
       (partChunks c.id cl (p.nph - 1) (p.position * c.n1) 0 b p.chunkBytes sent) 0)
    ∧ (let root := i.imm8.toNat % 32
       let here := (p.ph 0).idx = root
       let c := coll .bcast (if here then srcT else .none) (if here then .none else dstT) root b (p.byteChunks b) (p.byteChunks b)
       root ≤ (p.ph 0).nm → td.bytes = b → issuable c →
       (here → r.2.1 = rOK →
         IssuesColl (exec (.fxBcast cl i) s) cl 5 0x02 i i.dst r.1 c (partChunks c.id cl 0 0 0 b p.chunkBytes sent) 0)
       ∧ (¬ here → IssuesColl (exec (.fxBcast cl i) s) cl 5 0x02 i i.dst s c [] 0))
    ∧ (let part := b / p.n 0
       let c := coll .a2a srcT dstT 0 part (p.byteChunks part) (p.n 0 * p.byteChunks part)
       b % p.n 0 = 0 → td.bytes = b → issuable c → r.2.1 = rOK →
       IssuesColl (exec (.fxA2a cl i) s) cl 5 0x03 i i.dst r.1 c
         ((List.range (p.n 0)).flatMap fun j => partChunks c.id cl 0 (j * c.n1) (j * part) part p.chunkBytes sent) 0))

/-! ## Register accesses and the commands that are register writes -/

/-- A register write has been carried out and answered OK, its effect having led to `t`: accesses that waited are released and what it
has set going has settled. -/
def WriteDone (o : Answer) (t : State) : Prop := o = .next ({ t with bus := (rOK, []) }.releaseHeld.pumpAll.settleFence)

/-- The state in which the write of register `k` by a master acts: what the master held of the register's high half is dropped (R34). -/
def writing (s : State) (mid : BitVec 10) (k : Nat) : State := { s with held32 := Tab.erase s.held32 (heldKey mid.toNat k) }

/-- The write of a register of block `b` by a master reaches the register: the master's accesses exist, do not wait for a table load, are
those of no engine, and the block's table grants the right (R34, R375, R377). -/
structure MayWrite (s : State) (mid : BitVec 10) (b : Nat) (right : Nat := aCFG) : Prop where
  on : s.masterOn mid.toNat = true
  notHeld : s.accHeld mid.toNat = false
  noEngine : ¬ (0x130 ≤ mid.toNat ∧ mid.toNat ≤ 0x132)
  granted : s.granted b mid.toNat right = true

/-- REGISTER_WRITE and REGISTER_READ_CLEAR of a whole register (R34): an access of a master without the right is DENIED and recorded and
changes nothing else of the block; a permitted read answers the register's view and clears its RC fields; a permitted write answers OK and
does what its block's rules say, or is ignored and logged. While HOLD is set, an access of a master that is not fixed waits (R377). -/
def Obligations.RegisterAccess : Prop :=
  ∀ (s : State) (mid : BitVec 10) (b off : Nat) (d : RegDesc) (bk : Blk) (n : Nat) (v : BitVec 64),
    b < 0x180 → off % 8 = 0 → off < 0x100000 → blkOf b = some (bk, n) → regDesc bk off = some d →
    ¬ (b = 4 ∧ 0x1000 ≤ off ∧ off < 0x2000) → ¬ (bk = .cl ∧ 0x100 ≤ off ∧ s.clSt n = clRUNNING) →
    ¬ (0x130 ≤ mid.toNat ∧ mid.toNat ≤ 0x132) → s.masterOn mid.toNat = true →
    let k := b * 0x100000 + off
    let addr := BitVec.ofNat 48 (regBase + k)
    let wr := exec (.registerWrite mid addr 8 v) s
    let rd := exec (.registerReadClear mid addr 8) s
    (s.accHeld mid.toNat = true →
      wr = .next { s with accWait := s.accWait ++ [.write mid.toNat (regBase + k) 8 v.toNat] }
      ∧ rd = .next { s with accWait := s.accWait ++ [.read mid.toNat (regBase + k) 8] })
    ∧ (s.accHeld mid.toNat = false →
      let u := { s.clWake b off with held32 := Tab.erase (s.clWake b off).held32 (heldKey mid.toNat k) }
      let denied := s.deny mid.toNat (regBase + k) b aCFG
      (s.granted b mid.toNat aCFG = false →
        wr = .next ({ denied with bus := (rDENIED, []) }.releaseHeld.pumpAll.settleFence)
        ∧ rd = .next ({ denied with bus := (rDENIED, []) }.releaseHeld.pumpAll.settleFence))
      ∧ (s.granted b mid.toNat aCFG = true →
        (∀ t, u.regHook mid.toNat k d v = some t → WriteDone wr t)
        ∧ (u.regHook mid.toNat k d v = none → WriteDone wr (u.ignored mid.toNat (regBase + k) v))
        ∧ rd = .next ({ u.regClear k d with bus := (rOK, bytesLE 8 ((s.clWake b off).regView k d).toNat) }.releaseHeld.pumpAll.settleFence)))

/-- HBM_ACCESS of 64 B in a stack in service by a permitted master completes (R357, R358, R364): a read answers OK with the unit's bytes,
or DATAERR where a word is uncorrectable; a write answers OK unless a partly covered word is uncorrectable; an OR reads, ORs and writes one
word (R369) (error patterns outside R362's classes are free: log entry 17). -/
def Obligations.HbmAccess : Prop :=
  ∀ (s : State) (mid : BitVec 10) (addr : BitVec 48) (op : HbmOp) (rpt : StackReport), s.masterOn mid.toNat = true →
    s.accHeld mid.toNat = false → addr.toNat < 0x8000000000 → s.hbmUp (addr.toNat / 64 * 64) 64 = true →
    let unit := addr.toNat / 64 * 64
    let ends := fun (r : State × Nat × List Byte) =>
      exec (.hbmAccess mid addr op rpt) s = .next ({ r.1 with bus := (r.2.1, r.2.2) }.releaseHeld.pumpAll.settleFence)
    (op = .read → s.granted (s.hbmTarget addr.toNat) mid.toNat aRD = true →
      let r := s.hbmRead mid.toNat unit rpt false
      ends (r.1, if r.2.1 then rOK else rDATAERR, r.2.2))
    ∧ (∀ m d, op = .write m d → s.granted (s.hbmTarget addr.toNat) mid.toNat aWR = true →
      let r := s.unitWrite mid.toNat unit m d rpt
      ends (r.1, r.2, []))
    ∧ (∀ j v, op = .orWord j v →
      let r := s.memOr mid.toNat (unit + 8 * j.val) v
      ends (r.1, r.2, []))

/-- CL_START, CL_RESUME, CL_SKIP, CL_STOP and CL_PAUSE act in the states that R114 gives them and are ignored and logged in any other. -/
def Sys2Proof.Claims.ClusterCommands : Prop :=
  ∀ (s : State) (mid : BitVec 10) (cl : Fin 128), MayWrite s mid (0x100 + cl) →
    let u := writing s mid (clCmd cl)
    let st := s.clSt cl
    let no := fun (c : Nat) => u.ignored mid.toNat (regBase + clCmd cl) (BitVec.ofNat 64 c)
    (s.mstate ≠ mFENCED → (st = clIDLE ∨ st = clHALTED) → WriteDone (exec (.clStart mid cl) s) (u.startCl cl))
    ∧ (s.mstate = mFENCED ∨ ¬ (st = clIDLE ∨ st = clHALTED) → WriteDone (exec (.clStart mid cl) s) (no 1))
    ∧ ((st = clEXCEPTION ∨ st = clPAUSED) → WriteDone (exec (.clResume mid cl) s) (u.cmdResume cl))
    ∧ (¬ (st = clEXCEPTION ∨ st = clPAUSED) → WriteDone (exec (.clResume mid cl) s) (no 2))
    ∧ (st = clEXCEPTION → WriteDone (exec (.clSkip mid cl) s) (u.cmdSkip cl))
    ∧ (st ≠ clEXCEPTION → WriteDone (exec (.clSkip mid cl) s) (no 3))
    ∧ ((st = clRUNNING ∨ st = clEXCEPTION ∨ st = clPAUSED) → WriteDone (exec (.clStop mid cl) s) (u.cmdStop cl))
    ∧ (¬ (st = clRUNNING ∨ st = clEXCEPTION ∨ st = clPAUSED) → WriteDone (exec (.clStop mid cl) s) (no 4))
    ∧ (st = clRUNNING → WriteDone (exec (.clPause mid cl) s) (u.cmdPause cl))
    ∧ (st ≠ clRUNNING → WriteDone (exec (.clPause mid cl) s) (no 5))

/-- What START, RESUME, SKIP, PAUSE and STOP leave in a cluster (R114, R115): START takes the PC from ENTRY; RESUME keeps it and SKIP moves it
past the faulting instruction; a pause pending turns RUNNING into PAUSED; STOP leaves HALTED and nothing waiting. -/
def Sys2Proof.Claims.ClusterCommandStates : Prop :=
  ∀ (s : State) (cl : Fin 128), Canon s →
    ((s.cmdStart cl).clSt cl = clRUNNING ∧ (s.cmdStart cl).pc cl = s.get (clCtrl_ENTRY cl)
      ∧ ((s.cmdStart cl).cl cl).wait = none ∧ (s.cmdStart cl).get (clState_PAUSE_PEND cl) = 0)
    ∧ (s.clSt cl = clEXCEPTION → s.get (clState_PAUSE_PEND cl) = 0 →
      ((s.cmdResume cl).clSt cl = clRUNNING ∧ (s.cmdResume cl).pc cl = s.pc cl)
      ∧ (s.cmdSkip cl).clSt cl = clRUNNING ∧ (s.cmdSkip cl).pc cl = (s.pc cl + (s.cl cl).excLen) % 2 ^ 23)
    ∧ (s.clSt cl = clPAUSED → (s.cmdResume cl).clSt cl = clRUNNING ∧ (s.cmdResume cl).pc cl = s.pc cl)
    ∧ ((s.stopCl cl).clSt cl = clHALTED ∧ ((s.stopCl cl).cl cl).wait = none ∧ (s.stopCl cl).get (clState_PAUSE_PEND cl) = 0
      ∧ (∀ m, m ≠ cl.val → (s.stopCl cl).cl m = s.cl m))

/-- PAUSE_AT_DUE pauses a RUNNING cluster whose CL.PAUSE_AT has come, keeps the pause pending in EXCEPTION, and clears PAT_EN (R115).
CCC_EXCEPTION_RESPONSE answers an exception once: a check is retried once and then self-tested, a service is skipped, other causes are reported;
UNIT_SELFTEST_DONE reports a passed self-test and fences the module on a failed one (R94, R307) (what a CCC reports: log entry 41). -/
def Sys2Proof.Claims.CccAndPauses : Prop :=
  ∀ (s : State) (cl : Fin 128),
    (s.get (clCtrl_PAT_EN cl) ≠ 0 → (s.rd (clPauseAt cl)).toNat ≤ s.now →
      let t := s.put (clCtrl_PAT_EN cl) 0
      (t.clSt cl = clRUNNING → exec (.pauseAtDue cl) s = .next (t.pauseCl cl).pumpAll.settleFence)
      ∧ (t.clSt cl = clEXCEPTION → exec (.pauseAtDue cl) s = .next (t.put (clState_PAUSE_PEND cl) 1).pumpAll.settleFence))
    ∧ (s.clSt cl = clEXCEPTION → (s.cl cl).faulted = true → s.procRuns (.ccc cl) = true → s.accHeld (cccMid cl) = false →
      let cause := s.get (clExc_CAUSE cl)
      let pc := s.get (clExc_PC cl)
      let t := s.modCl cl fun c => { c with faulted := false }
      let answers := fun (u : State) => exec (.cccExceptionResponse cl) s = .next u.pumpAll.settleFence
      ((cause = xMXCHK ∨ cause = xRESCHK) →
        ((s.cl cl).retry = some (pc, cause) → answers (t.modCl cl fun c => { c with selftest := some (pc, cause) }))
        ∧ ((s.cl cl).retry ≠ some (pc, cause) →
          answers ((t.modCl cl fun c => { c with retry := some (pc, cause) }).clCommand (cccMid cl) cl ccRESUME)))
      ∧ (cause = xSERVICE → answers (t.clCommand (cccMid cl) cl ccSKIP))
      ∧ (cause = xSTEPSKEW → answers (t.cccSkew cl))
      ∧ (cause ∉ [xMXCHK, xRESCHK, xSERVICE, xSTEPSKEW] → answers (t.cccReport cl)))
    ∧ (∀ pass : Bool, (s.cl cl).selftest ≠ none →
      let t := s.modCl cl fun c => { c with selftest := none }
      exec (.unitSelftestDone cl pass) s = .next (if pass then t.cccReport cl else { t with fenceReq := some (1, cl) }).pumpAll.settleFence)

/-- The commands that write LNK.CTRL and LNK.EYE complete (R198, R200, R220, R223): EN, LOOP with expert bit 5, RETRAIN of a link in service, and
START of an eye measurement with expert bit 5. -/
def Sys2Proof.Claims.LinkRegisterCommands : Prop :=
  ∀ (s : State) (mid : BitVec 10) (link : Fin 14), Canon s → MayWrite s mid (0x10 + link) →
    let u := writing s mid (lnkCtrl link)
    (s.get (lnkCtrl_EN link) = 0 → WriteDone (exec (.lnkEnable mid link) s) (u.lnkSetEn link true))
    ∧ (s.get (lnkCtrl_EN link) = 1 → WriteDone (exec (.lnkDisable mid link) s) (u.lnkSetEn link false))
    ∧ (∀ loop : BitVec 2, loop.toNat ≠ s.get (lnkCtrl_LOOP link) →
        s.expert 5 = true → WriteDone (exec (.lnkLoopSet mid link loop) s) (u.lnkSetLoop link loop.toNat))
    ∧ (lkBISQUE ≤ s.lnk link → s.lnk link ≤ lkMISWIRED →
        WriteDone (exec (.lnkRetrain mid link) s)
          (if u.unack link = 0 then u.doRetrain link else u.modLink link fun l => { l with retrain := some mid.toNat }))
    ∧ (∀ (lane : BitVec 5) (voff hoff : BitVec 8), s.expert 5 = true → s.lnk link = lkTEST →
        WriteDone (exec (.lnkEyeStart mid link lane voff hoff) s)
          (((((writing s mid (lnkEye link)).put (lnkEye_LANE link) lane.toNat).put (lnkEye_VOFF link) voff.toNat).put
            (lnkEye_HOFF link) hoff.toNat).put (lnkEye_BUSY link) 1))

/-- COMMAND_SUBMIT hands the eight words of SCH.SUBq to the queue as its master; HRING_TAIL_WRITE moves the host's tail, unless that would pass HEAD,
and posts what waited; APC_RUN_WRITE, KLN_TOUCH_CLR, ROUTE_ENT_WRITE, ROUTE_KEY_WRITE, CONE_SET, CONE_ALARM_ENABLE and HBM_INJECT_ARM complete
(R179, R272, R288, R289, R331, R338, R384, R393, R402, R417, R418) (reading: log entry 85). -/
def Sys2Proof.Claims.FabricRegisterCommands : Prop :=
  ∀ (s : State) (mid : BitVec 10), Canon s →
    (∀ (q : Fin 64) (v : BitVec 64), MayWrite s mid 4 aXQ →
      let k := 0x401000 + q * 0x40 + 0x38
      let u := { writing s mid k with subWords := s.subWords.set 0 (q * 8 + 7) v }
      WriteDone (exec (.commandSubmit mid q v) s) (u.submit q ⟨(List.range 8).map fun j => u.subWords.get 0 (q * 8 + j), ⟨mid.toNat, none⟩⟩))
    ∧ (∀ v : BitVec 64, MayWrite s mid 4 →
      let ahead := (v.toNat + (2 ^ 32 - s.get schHringHead_HEAD)) % 2 ^ 32
      ¬ (0 < ahead ∧ ahead < 2 ^ 31) →
      WriteDone (exec (.hringTailWrite mid v) s)
        (((writing s mid schHringTail).put schHringTail_TAIL v.toNat).ringDrain 64).autoState)
    ∧ (∀ run : BitVec 32, MayWrite s mid 0xD →
        WriteDone (exec (.apcRunWrite mid run) s) ((writing s mid apcCtrl).put apcCtrl_RUN run.toNat))
    ∧ (MayWrite s mid 8 → s.get klnTouchCtrl_BUSY = 0 →
        WriteDone (exec (.klnTouchClr mid) s) ((writing s mid klnTouchCtrl).put klnTouchCtrl_BUSY 1))
    ∧ (∀ v : BitVec 64, MayWrite s mid 6 → s.expert 2 = true → s.bankOpen (s.flag routeEntSel_BANK) = true →
        WriteDone (exec (.routeEntWrite mid v) s)
          ((writing s mid routeEnt).writeEntry (s.flag routeEntSel_BANK) (s.get routeEntSel_INDEX) v))
    ∧ (∀ (bank : Bool) (v : BitVec 64), MayWrite s mid 6 → s.bankOpen bank = true →
        WriteDone (exec (.routeKeyWrite mid bank v) s) ((writing s mid (keyReg bank)).writeKey bank v))
    ∧ (∀ v : BitVec 64, MayWrite s mid 1 → s.isRoot = true → (s.mstate = mBOOTING ∨ s.mstate = mREADY) →
        WriteDone (exec (.coneSet mid v) s) { writing s mid coneSet with
          cone := v
          coneFrac := 0
          coneSlew := 0 })
    ∧ (∀ (k : Fin 8) (action : BitVec 2), MayWrite s mid 1 → s.get (coneAlarmCtrl_EN k) = 0 →
        WriteDone (exec (.coneAlarmEnable mid k action) s)
          (((writing s mid (coneAlarmCtrl k)).put (coneAlarmCtrl_ACTION k) action.toNat).armAlarm k))
    ∧ (∀ (stack : Fin 8) (v : BitVec 64), MayWrite s mid (0x20 + stack) → s.expert 6 = true →
        ∀ d, keyDesc (hbmInject stack) = some d →
        WriteDone (exec (.hbmInjectArm mid stack v) s) ((writing s mid (hbmInject stack)).regStore (hbmInject stack) d v))

/-- SEC_CHAL_GEN draws a challenge where SEC serves, SEC_DBG_CLOSE closes the debug session (R425, R439, R441); IMG_ERASE, IMG_PROGRAM and
IMG_CAL_SAVE start an idle image engine, IMG_HELD_START what EMERGENCY held, and IMG_OP_DONE ends the operation (R469-R471); ACC_HOLD_SET,
CLEAR and TIMEOUT move HOLD and TORN and let what waited go on (R377). -/
def Sys2Proof.Claims.SecImageAccCommands : Prop :=
  ∀ (s : State), Canon s →
    (∀ mid : BitVec 10, MayWrite s mid 3 →
      (s.secServes = true → WriteDone (exec (.secChalGen mid) s) (writing s mid secChalGen).drawChallenge)
      ∧ WriteDone (exec (.secDbgClose mid) s) (writing s mid secDbg).closeDebug)
    ∧ (∀ mid : BitVec 10, MayWrite s mid 0xB → s.img = none → s.mgmt.update = none → s.get sysState_EMERG = 0 →
      let u := writing s mid imgCtrl
      (∀ (region : BitVec 4) (off : BitVec 32),
        let w := (u.put imgCtrl_OFF off.toNat).put imgCtrl_REGION region.toNat
        WriteDone (exec (.imgErase mid region off) s)
          (w.imgRun ⟨1, region.toNat, off.toNat, s.get imgLen_LEN, s.get imgSrc_ADDR, mid.toNat, false⟩)
        ∧ WriteDone (exec (.imgProgram mid region off) s)
          (w.imgRun ⟨2, region.toNat, off.toNat, s.get imgLen_LEN, s.get imgSrc_ADDR, mid.toNat, false⟩))
      ∧ WriteDone (exec (.imgCalSave mid) s) (u.imgRun ⟨3, 4, 0, 0, 0, mid.toNat, false⟩))
    ∧ (∀ o, s.img = some o →
      (o.held = true → s.get sysState_EMERG = 0 → exec .imgHeldStart s = .next (s.imgRun o))
      ∧ (o.held = false → ∀ v : Bool, exec (.imgOpDone v) s = .next (s.imgEffect o v)))
    ∧ (s.mstate ≠ mOFF →
      WriteDone (exec .accHoldSet s) ((writing s 0x122 accCtrl).put accCtrl_HOLD 1)
      ∧ (s.get accCtrl_HOLD = 1 →
        WriteDone (exec .accHoldClear s) (((writing s 0x122 accCtrl).put accCtrl_HOLD 0).put accCtrl_TORN 0)))
    ∧ (s.get accCtrl_HOLD = 1 → exec .accHoldTimeout s =
        .next (((s.put accCtrl_HOLD 0).put accCtrl_TORN 1).logEv 0x0A02 0x3FE 0 0 0).releaseHeld.pumpAll.settleFence)

/-! ## The kiln complex -/

/-- The answer is the next state that `t` settles into: FINAL contexts have advanced and a fence that was asked for is carried out. -/
def Settles (o : Answer) (t : State) : Prop := o = .next t.pumpAll.settleFence

/-- The packets of the reduction family that arrive at the kiln complex complete (R158-R162, R168, R169, R173): a RED or RED_PART is folded
or dropped by the checks and its cells are released; a RED_RES of a chunk that the collective has waits for its landing, a pass-1 chunk is
taken at once; a DONE with finality lands nothing; a DONE with a credit raises RET by what its RCUM is ahead; a REPAIR for this
member's contribution is answered with a RED of what it holds, and one for a result from its HELD context (readings: log entries 56, 57
and 60). -/
def Obligations.KilnPackets : Prop :=
  ∀ (s t : State) (d : Desc),
    let q := d.pkt
    let cl := ckCl q.chunk
    let pl := q.coll / 64
    let ph := ckPh q.chunk
    (∀ chk : KilnCheck,
      (s.takeHead 18 (fun p => p.typ == tRED) = some (d, t) →
        Settles (exec (.red chk) s) ((t.kilnOperand q false chk).release 0x131 d.cells))
      ∧ (s.takeHead 18 (fun p => p.typ == tREDPART) = some (d, t) →
        Settles (exec (.redPart chk) s) ((t.kilnOperand q true chk).release 0x131 d.cells)))
    ∧ (s.takeHead 18 (fun p => p.typ == tREDRES) = some (d, t) → ∀ a c, t.kilnPlan q = some a → t.coll cl q.coll = some c →
        (c.hasChunk a.plan q.chunk = false → Settles (exec .redRes s) ((t.bump klnCntStale_COUNT).release 0x131 d.cells))
        ∧ (c.hasChunk a.plan q.chunk = true → ckP1 q.chunk = 1 →
          Settles (exec .redRes s) ((t.landed cl pl a c q.chunk none false q.payload).release 0x131 d.cells))
        ∧ (c.hasChunk a.plan q.chunk = true → ckP1 q.chunk ≠ 1 →
          Settles (exec .redRes s) { t with landings := t.landings ++ [⟨q.coll, q.chunk, q.payload, none, d.cells, d.mid, false, []⟩] }))
    ∧ (s.takeHead 18 (fun p => p.typ == tDONE && !p.cred) = some (d, t) →
        let u := t.release 0x131 d.cells
        ∀ a c, u.kilnPlan q = some a → u.coll cl q.coll = some c → c.hasChunk a.plan q.chunk = true →
          Settles (exec .doneFinality s) (u.landed cl pl a c q.chunk none true []))
    ∧ (s.takeHead 18 (fun p => p.typ == tDONE && p.cred) = some (d, t) →
        let u := t.release 0x131 d.cells
        ∀ a k dr, u.plan cl pl = some a → ph < a.plan.nph → u.memberOf (a.plan.ph ph) q.src.toNat = some k →
          creditDir a.plan.alg (a.plan.n ph) (a.plan.ph ph).idx k = some dr →
          let delta := (q.cmask + 2 ^ 32 - a.ret.get 0 (ph * 4 + dr) % 2 ^ 32) % 2 ^ 32
          (ageBefore q.age.toNat a.loadedAt = false → 0 < delta → delta < 2 ^ 31 →
            Settles (exec .doneCredit s) (u.modPlan cl pl fun a => { a with ret := a.ret.modify 0 (ph * 4 + dr) (· + delta) }))
          ∧ ((ageBefore q.age.toNat a.loadedAt = true ∨ delta = 0 ∨ 2 ^ 31 ≤ delta) →
            Settles (exec .doneCredit s) (u.bump klnCntStale_COUNT)))
    ∧ (s.takeHead 18 (fun p => p.typ == tREPAIR && p.cmask != 0) = some (d, t) →
        let u := t.release 0x131 d.cells
        ∀ a b c, u.kilnPlan q = some a → u.coll cl q.coll = some c → ph = 0 →
          let k := (a.plan.ph 0).idx
          q.cmask = 2 ^ k → u.heldContribution cl pl a q.coll q.chunk = some b →
          Settles (exec .repairContribution s)
            (u.fiSend cl (collPkt tRED q.src.toNat q.coll q.chunk (c.wordFmt a.plan (ckP1 q.chunk)) a.plan.op (2 ^ k) (fiFlow cl pl)
              (k * 2 ^ 11) b) (some q.age.toNat)))
    ∧ (s.takeHead 18 (fun p => p.typ == tREPAIR && p.cmask == 0) = some (d, t) →
        let u := t.release 0x131 d.cells
        ∀ a i c, u.kilnPlan q = some a → u.findAcc q.coll q.chunk = some (i, c) → c.st = .held → c.hres = true → u.accData c ≠ [] →
          let pk := collPkt tREDRES q.src.toNat q.coll q.chunk (if ckP1 q.chunk = 1 then 14 else c.fmt) a.plan.op
            (2 ^ a.plan.n ph - 1) 0x131 0 (u.accData c)
          let r := u.addRef (groupCells c.group)
          Settles (exec .repairResult s) (r.1.kilnSend pk (if r.2 then some c.group else none) (some q.age.toNat)))

/-- An operand that reaches an OPEN context of a plan that does not fold in canonical order (R159): bits it already holds drop it and
count it as a duplicate or an overlap; otherwise its mask is added, and the context becomes FINAL exactly when every expected
contributor is in. -/
def Obligations.KilnOperandMasks : Prop :=
  ∀ (s : State) (i mask late : Nat) (a : PlanAcct) (c : Ctx) (data : List Byte), s.accAt i = some c → c.st = .opened → c.fix = false →
    c.parked = [] → c.link = none →
    (mask &&& c.rmask ≠ 0 →
      s.operand i a mask late data = s.bump (if mask &&& c.rmask = mask then klnCntDup_COUNT else klnCntOverlap_COUNT))
    ∧ (mask &&& c.rmask = 0 → ∃ e, (s.operand i a mask late data).accAt i = some e ∧ e.rmask = c.rmask ||| mask ∧ e.emask = c.emask
        ∧ e.prevt = s.now ∧ e.last = late
        ∧ (e.st = .final ↔ c.issued = true ∧ c.rmask ||| mask = c.emask) ∧ (e.st = .final ∨ e.st = .opened)
        ∧ ∀ k, k ≠ i → (s.operand i a mask late data).ctx.find k = s.ctx.find k)

/-- The timers of the kiln complex and of collectives fire where they are due (R143-R145, R167, R169, R176), a landing is written and its touch
bits are set (R177, R178), a clear of the touch bitmap ends (R179), and a contribution with a credit leaves its source queue (R138)
(readings: log entries 60 and 66). -/
def Obligations.KilnTimersAndLandings : Prop :=
  ∀ (s : State),
    (∀ (idx : Fin 1048576) (c : Ctx) (a : PlanAcct), s.accAt idx = some c →
      (c.st = .opened → c.comp = false → c.deadline ≤ s.now → s.plan (ckCl c.chunk) (c.coll / 64) = some a →
        Settles (exec (.contextDeadline idx) s) (s.repairRound idx a false))
      ∧ (c.st = .held → c.hres = true → c.heldAt + s.resHold ≤ s.now → Settles (exec (.resHoldExpiry idx) s) (s.freeAcc idx)))
    ∧ (∀ (idx : Fin 1048576) (w : Watch) (c : Coll) (a : PlanAcct), s.ctx.find idx = some (.watch w) →
      s.coll (ckCl w.chunk) w.coll = some c → s.plan (ckCl w.chunk) (w.coll / 64) = some a → w.deadline ≤ s.now →
      w.res ≠ BitVec.allOnes 64 →
      let ph := ckPh w.chunk
      let f := a.plan.ph ph
      let u := s.setWatch idx { w with
        tries := min (w.tries + 1) 7
        deadline := s.now + s.arr }
      Settles (exec (.watchDeadline idx) s)
        (((List.range 64).filter fun b => w.fwd.getLsbD b && !w.res.getLsbD b).foldl (fun u b =>
          let o := c.owner a.plan (ckP1 w.chunk) ph (ckJ w.chunk + b)
          if o = f.idx then u
          else (u.kilnSend (collPkt tREPAIR (u.memberCoord f o) w.coll (w.chunk + b) 0 a.plan.op 0 0x131 0 []) none none).bump
            klnCntRepairTx_COUNT) u))
    ∧ (∀ (cl : Fin 128) (plan seq : Fin 64) (c : Coll) (a : PlanAcct) (at_ : Nat), s.coll cl (plan.val * 64 + seq.val) = some c →
      s.plan cl plan = some a → c.stall = .runs at_ → at_ ≤ s.now →
      let id := plan.val * 64 + seq.val
      let ph := (s.openPhases cl id).headD 0
      let m := s.missing c a ph
      let rpt := ph * 2 ^ 32 + m % 2 ^ 32
      let u := s.logEv 0x0402 cl id (BitVec.ofNat 64 rpt) (BitVec.ofNat 64 (s.memberCoord (a.plan.ph ph) (lowestBit m)))
      Settles (exec (.collStall cl plan seq) s) ((u.modColl cl id fun c => { c with
        stall := .stopped
        fired := some rpt }).wakeColl cl))
    ∧ (∀ (l : Landing) (c : Coll) (a : PlanAcct), s.landings.find? (fun l => !l.written) = some l → s.accHeld 0x131 = false →
      let t := { s with landings := s.landings.erase l }
      t.coll (ckCl l.chunk) l.coll = some c → t.plan (ckCl l.chunk) (l.coll / 64) = some a →
      let r := t.landChunk c a.plan (ckJ l.chunk) l.data
      (r.2.1 = rOK → (r.2.2.2 = [] ∨ t.get klnTouchCtrl_BUSY = 0) →
        Settles (exec .landingAck s) (r.1.landTouch l a c r.2.2.2))
      ∧ (r.2.1 = rOK → r.2.2.2 ≠ [] → t.get klnTouchCtrl_BUSY ≠ 0 →
        Settles (exec .landingAck s) { r.1 with landings := r.1.landings ++ [{ l with
          written := true
          blocks := r.2.2.2 }] }))
    ∧ (∀ (cl : Fin 128) (plan : Fin 64) (a : PlanAcct) (x : Contrib) (rest : List Contrib) (c : Coll) (u : State),
      s.plan cl plan = some a → a.queue = x :: rest → s.coll cl x.coll = some c →
      (s.modPlan cl plan fun a => { a with queue := rest }).sendContrib cl plan a c x = some u →
      Settles (exec (.contributionInject cl plan) s) u)

/-! ## The links -/

/-- FLIT_RECEIVE on a link that takes flits (R190-R194): a flit that its code cannot mend, or of a reserved type, is counted and asks for a
replay; a sequenced flit with the SEQ that is due is accepted, any other is dropped; every good flit's ACK releases what it
acknowledges. A NAK and the expiry of REPLAY_TMO start a replay (R195, R196) (readings: log entries 30, 69 and 70). -/
def Obligations.LinkFlits : Prop :=
  ∀ (s : State) (link : Fin 14) (flit : BitVec 2048),
    (s.takesFlits link = true →
      (readFlit flit = none → Settles (exec (.flitReceive link flit) s) (s.badFlit link))
      ∧ (∀ f fixed, readFlit flit = some (f, fixed) →
        (f.ftype ∉ [0x0, 0x1, 0x4, 0x5, 0x8, 0x9, 0xA, 0xB] →
          Settles (exec (.flitReceive link flit) s) ((s.bump (lnkCntProto_COUNT link)).badFlit link))
        ∧ (f.ftype ∈ [0x4, 0x5, 0x8, 0x9, 0xA, 0xB] →
          let u := (s.countFixed link fixed).modLink link fun l => l.takeAck f.ack
          Settles (exec (.flitReceive link flit) s)
            ((if f.seq = (u.link link).rxNext then u.acceptFlit link f else u).drained link))
        ∧ (f.ftype ≤ 1 →
          let u := (s.countFixed link fixed).modLink link fun l => l.takeAck f.ack
          let e := (u.link link).rxNext
          Settles (exec (.flitReceive link flit) s)
            ((u.modLink link fun l => { l with
              nakOut := l.nakOut || (decide (f.seq ≠ e) && decide ((f.seq + 4096 - e) % 4096 < 2048))
              nakIn := if f.ftype = 1 then some f.ack else l.nakIn }).drained link)))
      ∧ Settles (exec (.replayTmoExpiry link) s) (s.replayLink link))
    ∧ (∀ a, (s.link link).nakIn = some a →
        Settles (exec (.nak link) s) ((s.modLink link fun l => { l with nakIn := none }).replayLink link))

/-- The link control frames are taken in order where they have been accepted (R199-R205, R221): IDENT in BISQUE is checked, and later only
updates the peer's slice; the rate step's REQ, ACK, RES and lane check move the step on; a far-end loop is served with FE_ALLOW; a DOWN_NOTE
takes a link in service to DOWN. Their time-outs end the step and the request (the places of fields are read so: log entry 31). -/
def Sys2Proof.Claims.LinkControlFrames : Prop :=
  ∀ (s u : State) (link : Fin 14) (d : List Byte),
    let i := link.val
    let inService := fun (s : State) => lkBISQUE ≤ s.lnk i ∧ s.lnk i ≤ lkMISWIRED
    (s.takeCtrl i 0x01 = some (d, u) →
      (u.lnk i = lkBISQUE → u.get (lnkStatus_INCOMPATIBLE i) = 0 → Settles (exec (.ident link) s) (u.identBisque i d))
      ∧ (u.lnk i ≠ lkBISQUE → identField d 8 8 = (u.rd (lnkPeerSerial i)).toNat →
          bitsOf (identInfo d) 38 14 = u.get (lnkPeerInfo_COORD i) → bitsOf (identInfo d) 52 4 = u.get (lnkPeerInfo_PORT i) →
          bitsOf (identInfo d) 56 8 = u.get (lnkPeerInfo_DEVCLASS i) →
          Settles (exec (.ident link) s) (u.put (lnkPeerInfo_SLICE i) (bitsOf (identInfo d) 26 12))))
    ∧ (s.takeCtrl i 0x02 = some (d, u) → u.lnk i = lkSTEP → u.leads i = false → 1 ≤ (d.headD 0).toNat → (d.headD 0).toNat ≤ 3 →
        Settles (exec (.rateReq link) s) ((u.sendCtrl i 0x03 [BitVec.ofNat 8 (d.headD 0).toNat]).modLink i fun l =>
          { l with step := some ⟨(d.headD 0).toNat, true, none, none⟩ }))
    ∧ (s.takeCtrl i 0x03 = some (d, u) → ∀ t, (u.link i).step = some t → u.lnk i = lkSTEP → u.leads i = true →
        Settles (exec (.rateAck link) s) (u.modLink i fun l => { l with step := some { t with acked := true } }))
    ∧ (s.takeCtrl i 0x04 = some (d, u) → ∀ t, (u.link i).step = some t → u.lnk i = lkSTEP →
        Settles (exec (.rateRes link) s)
          ((u.modLink i fun l => { l with step := some { t with theirs := some (d.headD 0 == 1) } }).stepEnds i))
    ∧ (∀ (pass : Bool) (t : RateStep), (s.link i).step = some t →
        (s.lnk i = lkSTEP → t.acked = true → t.mine = none → s.unack i = 0 →
          Settles (exec (.laneCheckDone link pass) s)
            ((((s.put (lnkStatus_RATE i) t.code).sendCtrl i 0x04 [if pass then 1 else 0]).modLink i fun l =>
              { l with step := some { t with mine := some pass } }).stepEnds i))
        ∧ (∀ r, s.lnk i = lkWEDGE → (s.link i).fast = some r →
          Settles (exec (.laneCheckDone link pass) s)
            (if pass then (s.modLink i fun l => { l with step := none }).enterBisque i r else s.enterDark i)))
    ∧ (s.lnk i = lkSTEP → Settles (exec (.rateStepTimeout link) s) (s.enterGlost i (s.link i).passed))
    ∧ (s.takeCtrl i 0x05 = some (d, u) → u.get (lnkCtrl_FE_ALLOW i) ≠ 0 → inService u →
        Settles (exec (.feReq link) s) (((u.sendCtrl i 0x06 []).linkDown i 6).modLink i fun l => { l with feServing := true }))
    ∧ (s.takeCtrl i 0x06 = some (d, u) → (u.link i).feSent = true →
        Settles (exec (.feAck link) s) (u.modLink i fun l => { l with feAcked := true }))
    ∧ (s.lnk i = lkTEST → (s.link i).feSent = true → (s.link i).feAcked = false →
        Settles (exec (.feRefuseTimeout link) s) ((s.put (lnkStatus_REASON i) 10).modLink i fun l => { l with feSent := false }))
    ∧ (s.takeCtrl i 0x07 = some (d, u) → inService u → Settles (exec (.downNote link) s) (u.linkDown i 6))

/-- The events of bring-up and of losing a link move its state as R196 to R201 say, from the states they concern and from no others:
DARK, SIGNAL, WEDGE (CLOCK is passed through), BISQUE and DOWN; the retrain's drain, an eye point and the checkers' lock end what they end
(that the command is the event is the model's choice: log entry 4). -/
def Sys2Proof.Claims.LinkLifecycle : Prop :=
  ∀ (s : State) (link : Fin 14),
    let i := link.val
    let watched := lkSIGNAL ≤ s.lnk i ∧ s.lnk i ≤ lkMISWIRED
    let only := fun (p : Prop) (o : Answer) (t : State) => (p → Settles o t) ∧ (¬ p → o = .next s)
    only (s.lnk i = lkDARK ∧ (s.power.phase = .links ∨ s.power.phase = .done)) (exec (.lightPresent link) s)
      ((s.put (lnkStatus_STATE i) lkSIGNAL).modLink i fun l => { l with lit := true })
    ∧ only (s.lnk i = lkSIGNAL) (exec (.clockLocked link) s) (s.put (lnkStatus_STATE i) lkWEDGE)
    ∧ only (s.lnk i = lkWEDGE) (exec (.framingFound link) s) (match (s.link i).fast with
      | some r => s.modLink i fun l => { l with step := some ⟨r, true, none, none⟩ }
      | none => s.enterBisque i 0)
    ∧ only (s.lnk i = lkSIGNAL) (exec (.signalTimeout link) s) (s.enterDark i)
    ∧ only (s.lnk i = lkWEDGE) (exec (.wedgeTimeout link) s) (s.enterDark i)
    ∧ only (s.lnk i = lkBISQUE ∧ s.get (lnkStatus_INCOMPATIBLE i) = 0) (exec (.bisqueTimeout link) s) ((s.loseOpen i).enterDark i)
    ∧ (watched → Settles (exec (.lossOfSignal link) s) (s.linkDown i 4))
    ∧ only watched (exec (.clockLockLoss link) s) ((s.bump (lnkLaneErr_COUNT i 16)).linkDown i 3)
    ∧ only (s.lnk i = lkDOWN ∧ (s.link i).feServing = false) (exec (.downHoldExpiry link) s)
      (if s.get (lnkCtrl_EN i) ≠ 0 then s.enterDark i else s.put (lnkStatus_STATE i) lkDISABLED)
    ∧ (∀ mid, (s.link i).retrain = some mid → Settles (exec (.retrainDrainTimeout link) s)
        ((s.modLink i fun l => { l with retrain := none }).ignored mid (regBase + lnkCtrl i) 0x800))
    ∧ (∀ errs : BitVec 32, s.get (lnkEye_BUSY i) ≠ 0 →
        exec (.eyePointDone link errs) s = .next ((s.put (lnkEye_BUSY i) 0).put (lnkEye_ERRS i) errs.toNat))
    ∧ (s.lnk i = lkTEST → s.get (lnkTest_CHK_EN i) ≠ 0 → exec (.checkerLock link) s = .next (s.put (lnkTest_LOCK i) 1))


/-! ## The router -/

/-- A packet that arrives at a port is checked and routed (R228, R266, R279); at ports 12 and 13 SERVICE_PORT_INGRESS does it: a closed
port and a packet of another type are counted and dropped, and one that enters is a packet of this module in slice 0xFFE (R283). The credit of a packet dropped
here is owed back at once (the model's choice: log entry 125). -/
def Sys2Proof.Claims.PacketsEnter : Prop :=
  (∀ (s u : State) (port : Fin 20) (a : Arrival), port.val ≠ 12 → port.val ≠ 13 → s.takeArrival port = some (a, u) →
    (14 ≤ port.val → Settles (exec (.packetHeaderArrive port) s)
      (u.routeIn ⟨a.pkt, none, a.cells, a.off, port, injMid port a.pkt, false, s.now⟩))
    ∧ (port.val < 12 → (∀ d t r, u.receiveAt port a = (some (d, t), r) → Settles (exec (.packetHeaderArrive port) s) (t.routeIn d))
      ∧ (∀ r, u.receiveAt port a = (none, r) → Settles (exec (.packetHeaderArrive port) s) r)))
  ∧ (∀ (s u : State) (sv : Fin 2) (a : Arrival), s.takeArrival (12 + sv.val) = some (a, u) →
    let port := 12 + sv.val
    let allowed := a.pkt.typ ∈ [tMGMT, tROUTEUPD, tWRITE, tREADREQ, tMSG]
    (s.svcOpen port = false → Settles (exec (.servicePortIngress sv) s) ((u.bump (lnkCntForeign_COUNT port)).bounce port a.pkt))
    ∧ (s.svcOpen port = true → ¬ allowed → Settles (exec (.servicePortIngress sv) s) ((u.bump (lnkCntMalformed_COUNT port)).bounce port a.pkt))
    ∧ (s.svcOpen port = true → allowed → (∀ r, u.receiveAt port a = (none, r) → Settles (exec (.servicePortIngress sv) s) r)
      ∧ (∀ d t r, u.receiveAt port a = (some (d, t), r) → Settles (exec (.servicePortIngress sv) s) (t.routeIn { d with
          pkt := { d.pkt with
            slice := 0xFFE
            src := BitVec.ofNat 14 t.coord
            epoch := t.flag routeBank_ACTIVE
            age := BitVec.ofNat 24 (cone24 t.now)
            hops := 0
            vc := 0 } }))))

/-- OUTPUT_GRANT (R230, R239-R241, R204, R246): of the eligible heads of a free output, the one that the classes' order and the round robin pick
leaves its VOQ; it is discarded and counted when it is aged or has HOPS 63, or when the output stores it and its cells are uncorrectable
or its PCRC is wrong; else its transmission begins, with CM set where R241 asks for it, and on a link its credits are taken (the credit need is read so: log entry 67). -/
def Sys2Proof.Claims.OutputGrants : Prop :=
  ∀ (s : State) (port : Fin 20) (cls k : Nat) (d : Desc),
    let o := port.val
    let grant := fun t => Settles (exec (.outputGrant port) s) t
    let q := s.voqs.get [] k
    let u := ({ s with voqs := s.voqs.set [] k (q.drop 1) }).setOut o
      { s.out o with rr := (s.out o).rr.set 39 cls (voqIn k * 2 + voqVc k) }
    let p := if d.body.isNone then u.livePkt d.pkt d.cells d.off else d.pkt
    let crc := crc32c (p.payload.take p.carried)
    let bad := u.stores (voqIn k) o cls = true ∧ u.cellsBad d.cells = true
    (s.out o).sending = none → s.grantClass o (s.heads o) = some cls →
    rrPick (s.heads o) cls ((s.out o).rr.get 39 cls) = some (k, d) →
      (u.isAged d.pkt = true → grant ((u.bump (fabCntAged_COUNT cls)).discard d))
      ∧ (u.isAged d.pkt = false →
        (o < 14 → d.pkt.hops = 63 → grant ((u.bump fabCntHops_COUNT).discard d))
        ∧ ((o < 14 → d.pkt.hops ≠ 63) →
          (bad → grant ((u.bump poolCntUncorr_COUNT).discard d))
          ∧ (¬ bad → u.stores (voqIn k) o cls = true → crc ≠ p.pcrc → grant ((u.pcrcFail d crc).discard d))
          ∧ (¬ bad → (u.stores (voqIn k) o cls = true → crc = p.pcrc) →
            let m := u.mark { d with pkt := p } (cellsOf q)
            let t := if o < 14 then
                m.2.modLink o fun l => { l with credits := l.credits.modify 0 (2 * cls + voqVc k) (· - p.cellCount) }
              else m.2
            grant (t.setOut o { t.flitAccounts o cls (t.out o) p.flitCount with sending := some m.1 }))))

/-- PACKET_TX_DONE (R20, R208, R244, R246, R292, R333): a packet whose last byte is here leaves the output. A local unit receives it, and
its cells are released except where the unit needs them; one whose cells are uncorrectable is discarded and counted, and a die port that has
failed five times fences the module. On a link its flits enter the replay buffer where there is room, with HOPS one more, ended by the
stomped PCRC where its cells were uncorrectable, and a packet that does not find room waits (readings: log entries 59, 78 and 122). -/
def Sys2Proof.Claims.TransmissionEnds : Prop :=
  ∀ (s : State) (port : Fin 20) (d : Desc),
    let o := port.val
    let free := s.setOut o { s.out o with sending := none }
    let bad := s.cellsBad d.cells = true
    (s.out o).sending = some d → d.body = none →
      (14 ≤ o → bad → Settles (exec (.packetTxDone port) s) ((free.bump poolCntUncorr_COUNT).discard d))
      ∧ (14 ≤ o → ¬ bad → o < 18 → 5 ≤ s.dieErr.get 0 (o - 14) →
        Settles (exec (.packetTxDone port) s) { s with fenceReq := some (0, o - 14) })
      ∧ (14 ≤ o → ¬ bad → (o < 18 → s.dieErr.get 0 (o - 14) < 5) →
        let keep := o = 18 ∨ d.pkt.typ = tMIRROR
        let t := fun (u : State) => if d.inPort = 18 ∧ d.pkt.typ = tREDPART then u.partSent d.pkt.coll d.pkt.chunk else u
        (keep → Settles (exec (.packetTxDone port) s) (t (free.hand o d)))
        ∧ (¬ keep → Settles (exec (.packetTxDone port) s) (t ((free.hand o { d with cells := [] }).release d.mid d.cells))))
      ∧ (o < 14 →
        let room := (s.link o).drains = false ∧ (s.link o).replay.length + d.pkt.flitCount ≤ 2048
        (¬ room → exec (.packetTxDone port) s = .next s)
        ∧ (room → ∀ (p : Pkt) (u : State), (s.cutPkt d).2.coneStamp o (s.cutPkt d).1 = (p, u) →
          let sent := { p with hops := d.pkt.hops + 1, vc := BitVec.ofNat 2 (u.hopVc d.pkt.vc.toNat d.inPort o) }
          let owner := { d with pkt := { d.pkt with hops := d.pkt.hops + 1 }, inPort := if d.inPort = 18 then 19 else d.inPort }
          let v := (u.setOut o { u.out o with sending := none }).sendFlits o (packetFlits sent (u.link o).txNext owner)
          Settles (exec (.packetTxDone port) s) ((v.modLink o fun l => { l with flits := l.flits + d.pkt.flitCount }).discard d)))

/-- PACKET_INJECT (R213, R242, R250, R265, R278): of the packets that wait at an injection point, the first that can leave leaves, where no
packet of its flow is ahead of it; where none can leave, nothing changes (the order is read so: log entry 73). -/
def Sys2Proof.Claims.InjectionOrder : Prop :=
  ∀ (s : State) (point : InjPoint),
    let q := s.injq.get [] (injKey point)
    let leaves := fun (i : Inj) (k : Nat) => ({ s with injq := s.injq.set [] (injKey point) (q.eraseIdx k) }).tryInject point i
    let free := fun (i : Inj) (k : Nat) => ∀ j ∈ q.take k, sameFlow j.pkt i.pkt = false
    (∀ (k : Nat) (i : Inj) (t : State), q[k]? = some i → free i k → leaves i k = some t →
      (∀ (m : Nat) (j : Inj), m < k → q[m]? = some j → free j m → leaves j m = none) →
      Settles (exec (.packetInject point) s) t)
    ∧ ((∀ (k : Nat) (i : Inj), q[k]? = some i → free i k → leaves i k = none) → exec (.packetInject point) s = .next s)

/-- The router's periods: AGEING_SWEEP discards from the head of every VOQ the packets that are aged, and no other (R239);
ESC_WAIT_EXPIRY moves a head that has no credit on an output that is no escape hop to an escape link (R267); a CWIN raises the rate of a
destination without a marked answer by INC and releases it at the full rate, and keeps the rate of the others (R242); SPREAD_WINDOW reviews
the six directions and starts the next window (R270) (readings: log entries 74, 75 and 116). -/
def Obligations.RouterPeriods : Prop :=
  ∀ (s : State),
    Settles (exec .ageingSweep s) (s.voqs.foldl (fun s e => s.sweepVoq e.1 e.2.length) s)
    ∧ (∀ k d t n, s.voqs.get [] k = d :: t →
        (s.isAged d.pkt = true → s.sweepVoq k (n + 1) =
          ((({ s with voqs := s.voqs.set [] k t }).bump (fabCntAged_COUNT d.pkt.cls.toNat)).discard d).sweepVoq k n)
        ∧ (s.isAged d.pkt = false → s.sweepVoq k n = s))
    ∧ (∀ (inp out : Fin 20) (cls : Fin 8) (vc : Fin 2) (d : Desc) (t : List Desc) (o : Nat) (e : W64) (u : State),
        let k := voqKey inp out cls vc
        s.voqs.get [] k = d :: t → out.val < 12 → d.pkt.ord = false → d.esc = false → d.pkt.spans = false → s.eligible k d = false →
        s.entryOf d.pkt.epoch d.pkt.dst.toNat = (e, u) →
        (let l := (u.escLinks e cls).1
         l[(u.flowHash d.pkt).toNat % 2 % l.length]? = some o) →
        Settles (exec (.escWaitExpiry inp out cls vc) s)
          ((let w := ({ u with voqs := u.voqs.set [] k t }).bump routeCntEscape_COUNT
            w.join (voqKey inp o cls (w.hopVc d.pkt.vc.toNat inp o)) { d with esc := true, since := w.now })))
    ∧ exec .throttleWindow s =
        .next { s with throttles := (s.throttles.map fun e => (e.1, windowEnd (s.get fabCong_INC) e.2)).filter fun e => e.2 ≠ [] }
    ∧ (∀ inc dst (e : Throttle), windowEnd inc [(dst, e)] =
        if e.marked then [(dst, { e with marked := false, sent := 0 })]
        else if fullRate ≤ e.rate + inc then []
        else [(dst, { e with rate := e.rate + inc, marked := false, sent := 0 })])
    ∧ Settles (exec .spreadWindow s) ((List.range 14).foldl (fun s i => s.modLink i fun l =>
        { l with
          flits := 0
          glostAll := s.lnk i = lkGLOST }) ((List.range 6).foldl State.spreadDir s))

/-! ## What the units of a port do with a packet -/

/-- WRITE, READ_REQ and MIRROR at their target (R215, R293, R294, R296, R310): with no HOLD on the access, a WRITE or MIRROR that the
sequence filter has not seen is carried out and answered with its response, a duplicate is answered OK without being carried out again,
and a READ_REQ is answered with its data; under HOLD all of them wait. -/
def Sys2Proof.Claims.RequestsServed : Prop :=
  ∀ (s t : State) (port : Fin 20) (d : Desc),
    (s.takeHead port (·.typ == tWRITE) = some (d, t) →
      let f := t.filterEnt d.pkt
      let r := f.1.reach d.pkt.chunk
      let fresh := r.2 < 64 ∧ r.1.seen.getLsbD r.2 = false
      let kept := fun (u : State) (e : FilterEnt) => { u with filter := Tab.insert u.filter d.pkt.filterKey { e with last := t.now } }
      (s.accHeld d.mid = true → exec (.write port) s = .next s)
      ∧ (s.accHeld d.mid = false →
        (¬ fresh → Settles (exec (.write port) s) ((kept (f.2.recount 0) r.1).answer port d.pkt rOK none))
        ∧ (fresh →
          let w := (f.2.from_ d.pkt.originWord).busWrite d.mid d.pkt.addr (d.pkt.payload.take d.pkt.len)
          let e := if w.2.1 = rOK then { r.1 with seen := r.1.seen ||| (1#64 <<< r.2) } else r.1
          Settles (exec (.write port) s) ((kept (w.1.from_ 0) e).answer port d.pkt w.2.1 none))))
    ∧ (s.takeHead port (·.typ == tREADREQ) = some (d, t) →
      let r := (t.from_ d.pkt.originWord).busRead d.mid d.pkt.addr d.pkt.len
      (s.accHeld d.mid = true → exec (.readReq port) s = .next s)
      ∧ (s.accHeld d.mid = false → Settles (exec (.readReq port) s) ((r.1.from_ 0).answer port d.pkt r.2.1 (some r.2.2.2))))
    ∧ (s.takeHead 19 (·.typ == tMIRROR) = some (d, t) →
      let p := t.livePkt d.pkt d.cells d.off
      let r := t.filtered p (·.mirrorWrite p)
      (s.accHeld 0x132 = true → exec .mirror s = .next s)
      ∧ (s.accHeld 0x132 = false → Settles (exec .mirror s) ((r.1.release d.mid d.cells).answer 19 d.pkt r.2 none)))

/-- The sequence filter (R296): a PSEQ ahead of HI by 1 to 2^23 moves HI there and SEEN with it; one at HI or behind stays, and its
distance behind HI names its SEEN bit; after a filtered request that is answered OK that bit is set, so that a second copy is a duplicate. -/
def Sys2Proof.Claims.FilterWindow : Prop :=
  ∀ (e : FilterEnt) (pseq : Nat), e.hi < 2 ^ 24 → pseq < 2 ^ 24 →
    let ahead := (pseq + 2 ^ 24 - e.hi) % 2 ^ 24
    let r := e.reach pseq
    (1 ≤ ahead → ahead ≤ 2 ^ 23 →
      r.1.hi = pseq ∧ r.2 = 0 ∧ r.1.seen.getLsbD 0 = false
        ∧ ∀ k, k < 64 → ahead ≤ k → r.1.seen.getLsbD k = e.seen.getLsbD (k - ahead))
    ∧ (¬ (1 ≤ ahead ∧ ahead ≤ 2 ^ 23) → r.1 = e ∧ (r.2 + pseq) % 2 ^ 24 = e.hi)
    ∧ (∀ k, r.2 = k → k < 64 → ({ r.1 with seen := r.1.seen ||| (1#64 <<< k) } : FilterEnt).seen.getLsbD k = true)

/-- Answers, messages, TEST and the management messages (R109, R214, R215, R227, R285, R298, R393, R400): an answer ends its request; a MSG to an
enabled queue with the slot is written, makes the slot ready and is answered; a TEST packet is counted and checked; a CMD goes to the
submit engine; a packet for the host leaves by the service port that R284 chooses, and without one is discarded (readings: log entries 43 and 95). -/
def Sys2Proof.Claims.AnswersAndMessages : Prop :=
  ∀ (s t : State) (port : Fin 20) (d : Desc),
    (s.takeHead port (·.typ == tREADRSP) = some (d, t) → Settles (exec (.readRsp port) s) (t.answered d.pkt))
    ∧ (s.takeHead port (fun p => p.typ == tDONE && !p.form) = some (d, t) → Settles (exec (.done port) s) (t.answered d.pkt).schReady)
    ∧ (∀ p : Pkt, s.matching p = none → s.answered p = s.recount 1)
    ∧ (s.takeHead port (·.typ == tMSG) = some (d, t) →
      (s.accHeld d.mid = true → exec (.msg port) s = .next s)
      ∧ (s.accHeld d.mid = false → Settles (exec (.msg port) s) ((t.msgPut d.mid d.pkt).1.answer port d.pkt (t.msgPut d.mid d.pkt).2 none)))
    ∧ (∀ (mid : Nat) (p : Pkt), s.flag (clQ_EN (bitsOf p.w2 16 7) (bitsOf p.w2 24 3)) = false → s.msgPut mid p = (s, rDENIED))
    ∧ (s.takeHead 19 (·.typ == tTEST) = some (d, t) → ∃ u, exec .test s = .next u ∧ u.testCnt = t.testCnt + 1
        ∧ u.testBad = t.testBad + (if crc32c (d.pkt.payload.take d.pkt.carried) = d.pkt.pcrc then 0 else 1)
        ∧ { u with testCnt := t.testCnt, testBad := t.testBad } = t)
    ∧ (s.takeHead 19 (fun p => p.typ == tMGMT && p.mtype == 1 && !p.toHost) = some (d, t) → s.mstate ≠ mOFF →
        Settles (exec .mgmtCmd s) (t.mgmtSubmit d.mid d.pkt))
    ∧ (s.takeHead 19 (fun p => p.typ == tMGMT && p.toHost) = some (d, t) → s.procRuns .sch = true →
        let p := { d.pkt with
          age := BitVec.ofNat 24 (cone24 s.now)
          hops := 0
          vc := 0
          epoch := s.flag routeBank_ACTIVE }
        (t.serviceOut p = none → Settles (exec .mgmtToHost s) (t.bump routeCntNoroute_COUNT))
        ∧ (∀ o cs u, t.serviceOut p = some o → t.alloc p.cellCount 3 0x122 0 = some (cs, u) → Settles (exec .mgmtToHost s)
            ((u.putPkt cs p).join (voqKey 19 o p.cls.toNat 0) ⟨p, none, cs, 32, 19, 0x122, false, s.now⟩)))

/-- CONE_SYNC (R333, R334): a message that came in on a torus link is taken; every period each torus link in GLOST carries one (reading: log
entry 76). -/
def Sys2Proof.Claims.ConeSyncCommands : Prop :=
  ∀ (s t : State) (d : Desc),
    (s.takeHead 19 (·.typ == tCONESYNC) = some (d, t) →
      let good := d.inPort < 12 ∧ d.pkt.payload.headD 0 = 1 ∧ d.pkt.payload.length = 64
      (good → Settles (exec .coneSync s) (t.coneTake d.inPort d.pkt.payload)) ∧ (¬ good → exec .coneSync s = .next t))
    ∧ Settles (exec .coneSyncPeriod s) ((List.range 12).foldl (fun s i => if s.lnk i = lkGLOST then s.coneSend i else s) s)

/-! ## Route tables, coordinates and the topology (R258, R260-R262, R272, R274, R286, R287) -/

/-- The ROUTE_UPD messages (R286, R287, R258): from a service port whose master holds CFG on ROUTE, of the length of their SUBTYPE, they
do what their SUBTYPE says and are answered E_OK; a bank that is ACTIVE or DRAINING, a coordinate outside the extent and a state other than
BOOTING and READY are answered with their code and change nothing (what TOPO does to the coordinate is the model's choice: log entry 32; so is E_PARAM for a reserved encoding in an entry: log entry 124). -/
def Sys2Proof.Claims.RouteUpdates : Prop :=
  ∀ (s t : State) (d : Desc) (sub : Nat),
    s.takeHead 19 (fun p => p.typ == tROUTEUPD && p.payload.headD 0 == BitVec.ofNat 8 sub
      && (s.procs.get ProcSt.reset 2).st == .running) = some (d, t) →
    let p := t.livePkt d.pkt d.cells d.off
    let b := p.payload
    let u := t.release d.mid d.cells
    let may := (d.mid = 0x201 ∨ d.mid = 0x202) ∧ u.granted 0x006 d.mid aCFG = true
    let ans := fun (i : Instr) (v : State) (code : Nat) => Settles (exec i s) (v.routeAnswer p code)
    let bank := fun (k : Bool) => bankOf b = some k
    (sub = 1 → (¬ may → ans .routeUpdLoad u eACCESS) ∧ (may → bankOf b = none → ans .routeUpdLoad u ePARAM) ∧ (may → ∀ k,
      let first := natLE ((b.drop 4).take 2)
      let n := natLE ((b.drop 6).take 2)
      let fits := 1 ≤ n ∧ n ≤ 511 ∧ first + n ≤ 16384 ∧ b.length = 8 + 8 * n
        ∧ someReserved (b.drop 8) n = false
      bank k → (¬ fits → ans .routeUpdLoad u ePARAM) ∧ (fits → u.bankOpen k = false → ans .routeUpdLoad u eSTATE)
        ∧ (fits → u.bankOpen k = true → ans .routeUpdLoad
            ((List.range n).foldl (fun s j => s.writeEntry k (first + j) (entryAt (b.drop 8) j)) u) eOK)))
    ∧ (sub = 2 → (¬ may → ans .routeUpdKey u eACCESS) ∧ (may → p.len ≠ 16 ∨ bankOf b = none → ans .routeUpdKey u ePARAM) ∧ (may → p.len = 16 → ∀ k, bank k →
      (u.bankOpen k = false → ans .routeUpdKey u eSTATE)
      ∧ (u.bankOpen k = true → ans .routeUpdKey (u.writeKey k (BitVec.ofNat 64 (natLE ((b.drop 8).take 8)))) eOK)))
    ∧ (sub = 3 → (¬ may → ans .routeUpdCommit u eACCESS) ∧ (may → p.len ≠ 12 ∨ bankOf b = none → ans .routeUpdCommit u ePARAM) ∧ (may → p.len = 12 → ∀ k, bank k →
      (u.bankOpen k = false → ans .routeUpdCommit u eSTATE)
      ∧ (u.bankOpen k = true → (u.bankCrc k).toNat = natLE ((b.drop 8).take 4) → ans .routeUpdCommit (u.setBankState k bkLOADED) eOK)
      ∧ (u.bankOpen k = true → (u.bankCrc k).toNat ≠ natLE ((b.drop 8).take 4) → ans .routeUpdCommit u ePARAM)))
    ∧ (sub = 4 → (¬ may → ans .routeUpdCoord u eACCESS) ∧ (may → p.len ≠ 10 → ans .routeUpdCoord u ePARAM) ∧ (may → p.len = 10 →
      let c := natLE ((b.drop 8).take 2) % 2 ^ 14
      let inside := ∀ a, a < 3 → axisOf c a < u.extent a
      (u.mstate ≠ mBOOTING → u.mstate ≠ mREADY → ans .routeUpdCoord u eSTATE)
      ∧ (u.mstate = mBOOTING ∨ u.mstate = mREADY → ¬ inside → ans .routeUpdCoord u ePARAM)
      ∧ (u.mstate = mBOOTING ∨ u.mstate = mREADY → inside →
          ans .routeUpdCoord ((u.put routeCoord_COORD c).put routeCoord_ASSIGNED 1).reshaped eOK)))
    ∧ (sub = 5 → (¬ may → ans .routeUpdTopo u eACCESS) ∧ (may → p.len ≠ 72 → ans .routeUpdTopo u ePARAM) ∧ (may → p.len = 72 →
      (u.mstate ≠ mBOOTING → u.mstate ≠ mREADY → ans .routeUpdTopo u eSTATE)
      ∧ (u.mstate = mBOOTING ∨ u.mstate = mREADY → topoOf (b.drop 8) = none → ans .routeUpdTopo u ePARAM)
      ∧ (∀ x, u.mstate = mBOOTING ∨ u.mstate = mREADY → topoOf (b.drop 8) = some x → ans .routeUpdTopo (u.setTopo x).reshaped eOK)))

/-- Loading an entry and the flip (R272-R274, R271): after a load the entry reads as it was written but for its reserved bits, which read zero (reading: log entry 124), the others as before, and the bank is
LOADING; a flip makes the other bank ACTIVE and the old one DRAINING; BANK_RETIRE makes that one IDLE once C + L + 1 ms has come, and not
before; ALARM_FLIP fires the lowest ACTION 2 alarm that is due (reading: log entry 65). -/
def Sys2Proof.Claims.RouteBanks : Prop :=
  ∀ (s : State), Canon s →
    (∀ (b : Bool) (i : Nat) (v : W64), Tab.wf (fun _ => (0 : W64)) (if b then s.bankB else s.bankA) = true →
      let t := s.writeEntry b i v
      let bankOf := fun (s : State) => if b then s.bankB else s.bankA
      t.bankState b = bkLOADING ∧ t.bankState (!b) = s.bankState (!b) ∧ (bankOf t).get 0 i = cleanEntry v
        ∧ (∀ j, j ≠ i → (bankOf t).get 0 j = (bankOf s).get 0 j) ∧ (if b then t.bankA = s.bankA else t.bankB = s.bankB))
    ∧ (let b := s.flag routeBank_ACTIVE
       s.flip.flag routeBank_ACTIVE = !b ∧ s.flip.bankState (!b) = bkACTIVE ∧ s.flip.bankState b = bkDRAINING
        ∧ s.flip.flag routeBank_FLIP_PEND = false)
    ∧ (let b := !s.flag routeBank_ACTIVE
       let due := s.bankState b = bkDRAINING ∧ (s.rd routeFlipAt).toNat + s.flipMax + 1000000 ≤ s.now
       (due → exec .bankRetire s = .next (s.setBankState b bkIDLE)) ∧ (¬ due → exec .bankRetire s = .next s))
    ∧ (∀ k, k < 8 → s.alarmDue k = true → s.get (coneAlarmCtrl_ACTION k) = 2 →
        (∀ j, j < k → s.alarmDue j = true → s.get (coneAlarmCtrl_ACTION j) ≠ 2) → Settles (exec .alarmFlip s) (s.fireAlarm k false))

/-! ## Fault notes, loss and restores -/

/-- The row of a FAULT_NOTE kind does `f` to the first note at port 19, and drops a copy of one seen within the last second (R301). -/
def NoteDoes (i : Instr) (kinds : List Nat) (f : State → Pkt → State) (s : State) : Prop :=
  ∀ d t, s.takeHead 19 (fun p => p.typ == tFAULTNOTE && kinds.contains p.noteKind) = some (d, t) →
    let r := t.noteFresh 0 (d.pkt.reporter * 65536 + bitsOf (d.pkt.recWord 0) 32 16)
    (r.1 = true → Settles (exec i s) (f r.2 d.pkt)) ∧ (r.1 = false → Settles (exec i s) r.2)

/-- Fault notes (R301, R303, R305, R306): a note seen within the last second is dropped; one about a link, a FENCED module or an engine is
logged; a PROBE is answered; a PROBE_ACK ends the suspicion of its reporter; a MODULE_LOST is logged and posted, and in the lost module's
slice it sets fault pending (readings: log entries 92 and 93). -/
def Sys2Proof.Claims.FaultNotes : Prop :=
  ∀ (s : State),
    (∀ kind key, (s.noteFresh kind key).1 = false ↔ ∃ e ∈ s.notes, s.now < e.2.2 + 1000000000 ∧ e.1 = kind ∧ e.2.1 = key)
    ∧ NoteDoes .faultNote [0x01, 0x02, 0x06, 0x07, 0x08, 0x09] (fun u p =>
        if p.noteKind = 0x06 then (if (u.noteFresh 0x06 p.subject).1 then (u.noteFresh 0x06 p.subject).2.logFault p.recWords
          else (u.noteFresh 0x06 p.subject).2)
        else u.logFault p.recWords) s
    ∧ NoteDoes .probe [0x03] (fun u p =>
        let f := u.fault 0x04 0 0x3FE u.coord (u.get routeSlice_SLICE) 15 0 0 0 0
        f.2.sendNote p.reporter f.1) s
    ∧ NoteDoes .probeAck [0x04] (fun u p => { u with suspects := u.suspects.filter fun e => e.2.coord ≠ p.reporter }) s
    ∧ NoteDoes .moduleLost [0x05] (fun u p =>
        let r := u.noteFresh 0x05 p.subject
        let l := setBits (p.recWord 0) 8 2 (if p.subject = r.2.coord then 3 else bitsOf (p.recWord 0) 8 2) :: p.recWords.drop 1
        let v := (r.2.logFault l).post 3 0x122 (wordsBytes l)
        if r.1 = false then r.2
        else if p.subject ≠ v.coord ∧ p.sslice = r.2.get routeSlice_SLICE ∧ p.sslice ≠ 0 then v.setFpend
        else v) s

/-- Suspicion and declaration (R303, R304): every period a suspected neighbour is probed; one that has not answered by LOST_TIME, 1 ms, is declared
lost, and a module of its slice tells the other members and sets fault pending itself. -/
def Sys2Proof.Claims.LossDeclared : Prop :=
  ∀ (s : State) (dir : Fin 6),
    Settles (exec (.probePeriod dir) s) (s.sendProbe dir)
    ∧ (∀ m, s.suspects.find dir = some m →
      let early := s.now < m.since + 1000000 ∨ m.coord = s.coord
      let ss := s.get (lnkPeerInfo_SLICE (2 * dir))
      let f := ({ s with suspects := s.suspects.erase dir }).peerFault 0x05 3 (2 * dir) m.coord (BitVec.ofNat 64 m.since) 0
      (early → exec (.lostTimeExpiry dir) s = .next s)
      ∧ (¬ early → s.get routeSlice_SLICE = ss → ss ≠ 0 →
          Settles (exec (.lostTimeExpiry dir) s) (((f.2.fanOut f.1 (f.2.members m.coord)).noteFresh 0x05 m.coord).2.setFpend))
      ∧ (¬ early → s.get routeSlice_SLICE ≠ ss ∨ ss = 0 → Settles (exec (.lostTimeExpiry dir) s) f.2))

/-- REQUEST_RETRANSMIT (R298, R309): a request without an answer for AGE_LIMIT + 1 ms that is not already on its way again is injected
again with its TAG and PSEQ; a cluster's TX.MIRROR whose third retransmission went unanswered ends with DECERR. -/
def Sys2Proof.Claims.Retransmission : Prop :=
  ∀ (s : State) (tag : BitVec 12) (pseq : BitVec 24) (r : Req),
    s.requests.find? (fun r => r.pkt.coll = tag.toNat && r.pkt.chunk = pseq.toNat) = some r →
    let queued := ∃ i ∈ s.injq.get [] (injKey r.point), i.again = true ∧ i.pkt.coll = tag.toNat ∧ i.pkt.chunk = pseq.toNat
    let early := s.now < r.since + s.ageLimit + 1000000
    let mirror := r.pkt.typ = tMIRROR
    (early ∨ queued → exec (.requestRetransmit tag pseq) s = .next s)
    ∧ (¬ early → ¬ queued →
      (∀ k, r.slot = some k → mirror → 3 ≤ r.tries →
        exec (.requestRetransmit tag pseq) s = .next ((s.dropReq r).slotAnswer r.cl k r.pkt rDECERR))
      ∧ (¬ (r.slot.isSome ∧ mirror ∧ 3 ≤ r.tries) → exec (.requestRetransmit tag pseq) s =
          .next ((if mirror then s.recount 6 else s).inject (injKey r.point) ⟨r.pkt, true, false, r.slot, none, true⟩)))

/-- The close of a generation and a restore (R311, R315, R316): GENERATION_CLOSE seals the generation being closed or fails it;
RESTORE_REQ is served where the mirror engine's accesses are not held; a RESTORE_END of the restore in progress closes the window, and
one that says OK makes the restored step the local snapshot; after 10 ms without a byte the restore ends with E_FAULT (GEN and the half
after a restore are the model's choice: log entries 44 and 87). -/
def Obligations.RestoreCommands : Prop :=
  ∀ (s : State),
    Settles (exec .generationClose s) s.mirrorSeal.schReady
    ∧ (∀ q st g, s.closingRun = some (q, st, g) → s.mirror.opened = true → s.mirror.sealing = false → s.mirrorsRun g = false →
        s.mirrorSeal = if g ∈ s.mirror.bad then (s.mirrorClosed q st g false eOK).mirrorAdvance
          else ({ s with mirror := { s.mirror with sealing := true } }).mirrorHeader true st g)
    ∧ (s.accHeld 0x132 = true → exec .restoreReq s = .next s)
    ∧ (s.accHeld 0x132 = false → NoteDoes .restoreReq [0x0A] State.serveRestore s)
    ∧ (∀ (p : Pkt) (b : MirrorBind), s.mirror.bind = some b → b.wardEn = false ∨ b.ward ≠ p.reporter →
        s.serveRestore p = s.restoreEnd p.reporter (p.recWord 4) 0 ePARAM)
    ∧ NoteDoes .restoreEnd [0x0B] (fun u p =>
        let code := bitsOf (p.recWord 6) 0 8
        let a := u.fresh 64
        let h := a.2.fresh 1
        let v := h.2.recount 7
        match u.mirror.bind, u.mirror.window with
        | some b, some _ =>
          if p.reporter ≠ b.buddy ∨ p.recWord 4 ≠ u.mirror.windowStep then u
          else if code ≠ eOK then u.restoreDone code u.mirror.windowBytes
          else (v.modMirror fun m => { m with
            localSnap := m.windowStep
            gen := a.1 + 1
            whalf := h.1 == 1
            flip := true
            opened := false
            opening := false }).restoreDone eOK (p.recWord 5).toNat
        | _, _ => u) s
    ∧ (let due := s.mirror.window.isSome = true ∧ s.mirror.windowAt + 10000000 ≤ s.now
       (due → Settles (exec .restoreTimeout s) (s.restoreDone eFAULT s.mirror.windowBytes)) ∧ (¬ due → exec .restoreTimeout s = .next s))

/-! ## Alarms of the cone count, and what the HBM controllers do by themselves -/

/-- Alarms (R338, R446): an alarm that is due and has the row's ACTION fires, and nothing else does; firing disarms it and sets FIRED;
START_AT_WAKE wakes the clusters of an armed START alarm from 20 µs before its count. -/
def Sys2Proof.Claims.ConeAlarms : Prop :=
  ∀ (s : State) (k : Fin 8),
    (∀ a, a = 0 ∨ a = 1 →
      let i := if a = 0 then Instr.alarmInterrupt k else .alarmStart k
      let due := s.alarmDue k = true ∧ s.get (coneAlarmCtrl_ACTION k) = a
      (due → Settles (exec i s) (s.fireAlarm k false)) ∧ (¬ due → exec i s = .next s))
    ∧ (Canon s → s.get (coneAlarmCtrl_ACTION k) = 3 → ∀ late,
        (s.fireAlarm k late).flag (coneAlarmCtrl_EN k) = false ∧ (s.fireAlarm k late).flag (coneAlarmCtrl_FIRED k) = true)
    ∧ (let due := s.flag (coneAlarmCtrl_EN k) = true ∧ s.get (coneAlarmCtrl_ACTION k) = 1 ∧ (s.rd (coneAlarmAt k)).toNat ≤ s.now + 20000
       (due → exec (.startAtWake k) s = .next ((s.alarmSel k).foldl State.wakeCl s)) ∧ (¬ due → exec (.startAtWake k) s = .next s))

/-- The HBM controllers (R357, R361, R366-R368, R463): a refresh of a stack in service changes no data; a patrol read takes the next unit and
moves POS on; a temperature poll holds the reading and HMAX the hottest; a window with a busy pseudo-channel that stays for IMB_TIME latches
it and is logged, and RATIO shows the window's share (the error patterns outside R362's classes are free: log entry 17). -/
def Sys2Proof.Claims.HbmControllers : Prop :=
  ∀ (s : State) (stack : Fin 8),
    (∀ rpt, let on := s.get (hbmStatus_STATE stack) = 1 ∧ s.get (hbmScrub_PERIOD stack) ≠ 0
      let pos := s.get (hbmScrub_POS stack)
      (on → exec (.patrolRead stack rpt) s = .next
        ((s.hbmRead 0x3FD (hbmUnplace s.hbmKey stack (pos / 2 ^ 24) (pos % 2 ^ 24 * 64)) rpt true).1.put (hbmScrub_POS stack) (pos + 1)))
      ∧ (¬ on → exec (.patrolRead stack rpt) s = .next s))
    ∧ (s.stackReady stack = true → ∃ t, exec (.hbmRefresh stack) s = .next t ∧ { t with hbm := s.hbm } = s)
    ∧ (s.stackReady stack = false → exec (.hbmRefresh stack) s = .next s)
    ∧ (∀ temp, s.procRuns .pwr = true → s.stackReady stack = true →
        let t := s.put (hbmStatus_TEMP stack) temp.toNat
        exec (.hbmTempPoll stack temp) s =
          .next (t.put pwrTherm_HMAX ((List.range 8).foldl (fun m k => max m (t.get (hbmStatus_TEMP k))) 0)))
    ∧ (let h := s.hbm.get HbmSt.reset stack
       let b := busiest h.win
       let total := h.win.foldl (fun a e => a + e.2) 0
       let busy := 4 * total < 64 * b.2 ∧ 62500 ≤ b.2
       let n := if busy then h.bad + 1 else 0
       let u := s.put (hbmChanImbal_RATIO stack) (if total = 0 then 0 else min (b.2 * 1024 / total) 65535)
       let t := fun k => { u with hbm := u.hbm.set HbmSt.reset stack { h with
         win := []
         bad := k } }
       (n < u.hbmImbTime stack → exec (.hbmImbalanceWindow stack) s = .next (t n))
       ∧ (u.hbmImbTime stack ≤ n → Settles (exec (.hbmImbalanceWindow stack) s)
          ((((t 0).put (hbmChanImbal_LATCH stack) 1).put (hbmChanImbal_PC stack) b.1).logNotice (0x2003 + 0x100 * stack) 0x3FE 0 0
            (BitVec.ofNat 64 b.1))))

/-- Clearing (R370, R179, R323, R386): MEMORY_CLEAR_DONE ends the clearing of boot, of an UNBIND and of an UNFENCE; the job's memory then reads
zero but for the log ring; TOUCH_CLEAR_DONE ends the clearing of the touch bitmap and lets the BIND_STEP that asked for it go on. -/
def Sys2Proof.Claims.ClearingEnds : Prop :=
  ∀ (s : State),
    (s.power.phase = .clearing → exec .memoryClearDone s = .next (s.clearAllMemory.modPwr fun p => { p with cleared := true }).bootCleared)
    ∧ (∀ q u, s.power.phase ≠ .clearing →
        (s.runs.findSome? fun r => match r.kind with | .clearing u => some (r.q, u) | _ => none) = some (q, u) →
        Settles (exec .memoryClearDone s) (s.cleared q u))
    ∧ (Canon s → ∀ a, a < 0x8000000000 →
        let log := s.get logBase_BASE * 2 ^ 24
        Tab.get 0 s.clearJobMemory.mem a = if log ≤ a ∧ a < log + 2 ^ 24 then Tab.get 0 s.mem a else 0)
    ∧ (s.flag klnTouchCtrl_BUSY = false → exec .touchClearDone s = .next s)
    ∧ (s.flag klnTouchCtrl_BUSY = true →
        (∀ r c l, s.touchCleared.runs.find? (fun r => r.kind == .bindClear) = some r → s.touchCleared.queue r.q = c :: l →
          Settles (exec .touchClearDone s) ((stepBound s.touchCleared c).settle r.q r.op).schReady)
        ∧ (s.touchCleared.runs.find? (fun r => r.kind == .bindClear) = none → Settles (exec .touchClearDone s) s.touchCleared))

/-! ## The commands of the control processor -/

/-- SCH takes the command `c` at the head of queue `q` next. -/
def SchTakes (s : State) (q : Fin 64) (c : Cmd) : Prop := s.schPick = some q.val ∧ (s.queue q.val).head? = some c

/-- The state in which a taken command is checked and has its effect. -/
def served (s : State) (q : Fin 64) : State := { s with rrq := q.val }

/-- The command completes with a CODE and a RESULT, its effect having led to `t`. -/
def Ends (o : Answer) (t : State) (q : Fin 64) (code : Nat) (res : W64 := 0) : Prop :=
  Settles o (t.finishCmd q.val code res).schReady

/-- The command goes on, its effect so far having led to `t`; `next` is done once it stands in progress. -/
def GoesOn (o : Answer) (t : State) (q : Fin 64) (op : Nat) (k : RunKind) (next : State → State := id) : Prop :=
  Settles o (next { t with runs := t.runs.filter (·.q ≠ q.val) ++ [⟨q.val, op, k⟩] }).schReady

/-- The command is taken and passes the checks of R397. -/
structure Passes (s : State) (q : Fin 64) (c : Cmd) : Prop where
  takes : SchTakes s q c
  access : s.mayExecute c = true
  params : s.badParam c = false
  legal : c.legal s.mstate = true

/-- The checks of a row: E_ACCESS, E_PARAM, E_STATE in this order, and nothing else changes than that the command completes. -/
def RowChecks (i : Fin 64 → Instr) (want : Cmd → Prop) : Prop :=
  ∀ s q c, SchTakes s q c → want c →
    (s.mayExecute c = false → Ends (exec (i q) s) (served s q) q eACCESS)
    ∧ (s.mayExecute c = true → s.badParam c = true → Ends (exec (i q) s) (served s q) q ePARAM)
    ∧ (s.mayExecute c = true → s.badParam c = false → c.legal s.mstate = false → Ends (exec (i q) s) (served s q) q eSTATE)

/-- The checks of R397 come before the effect of every command, in their order. -/
def Obligations.CommandChecks : Prop :=
  RowChecks .bind (·.op = 0x01) ∧ RowChecks .unbind (·.op = 0x02) ∧ RowChecks .loadProgram (·.op = 0x03) ∧ RowChecks .start (·.op = 0x04)
    ∧ RowChecks .startAt (·.op = 0x05) ∧ RowChecks .pause (·.op = 0x06) ∧ RowChecks .resume (fun c => c.op = 0x07 ∧ c.mode = 0)
    ∧ RowChecks .resumeClusters (fun c => c.op = 0x07 ∧ c.mode = 1) ∧ RowChecks .skipClusters (fun c => c.op = 0x07 ∧ c.mode = 2)
    ∧ RowChecks .stopClusters (fun c => c.op = 0x07 ∧ c.mode = 3) ∧ RowChecks .drain (·.op = 0x08) ∧ RowChecks .fence (·.op = 0x09)
    ∧ RowChecks .unfence (·.op = 0x0A) ∧ RowChecks .snapshot (·.op = 0x0B) ∧ RowChecks .restore (·.op = 0x0C)
    ∧ RowChecks .setRoutesHbm (fun c => c.op = 0x0D ∧ bitsOf (c.word 1) 0 2 = 0)
    ∧ RowChecks .setRoutesImage (fun c => c.op = 0x0D ∧ bitsOf (c.word 1) 0 2 = 1)
    ∧ RowChecks .setRoutesBox (fun c => c.op = 0x0D ∧ bitsOf (c.word 1) 0 2 = 2)
    ∧ RowChecks .flipEpoch (·.op = 0x0E) ∧ RowChecks .acceptObserved (·.op = 0x0F) ∧ RowChecks .activateFw (·.op = 0x10)
    ∧ RowChecks .setLatencyTol (·.op = 0x11) ∧ RowChecks .setPolicy (·.op = 0x12) ∧ RowChecks .bindStep (·.op = 0x13)
    ∧ RowChecks .readLogCounters (fun c => c.op = 0x14 ∧ bitsOf (c.word 1) 0 2 = 0)
    ∧ RowChecks .readLogRecords (fun c => c.op = 0x14 ∧ bitsOf (c.word 1) 0 2 = 1)
    ∧ RowChecks .attestProvenance (fun c => c.op = 0x15 ∧ bitsOf (c.word 1) 0 4 = 0)
    ∧ RowChecks .attestCerts (fun c => c.op = 0x15 ∧ bitsOf (c.word 1) 0 4 = 1)
    ∧ RowChecks .attestMeasure (fun c => c.op = 0x15 ∧ bitsOf (c.word 1) 0 4 = 2)
    ∧ RowChecks .attestEnroll (fun c => c.op = 0x15 ∧ bitsOf (c.word 1) 0 4 = 3)
    ∧ RowChecks .zeroiseEphemeral (fun c => c.op = 0x16 ∧ (c.word 1).getLsbD 0 = false)
    ∧ RowChecks .zeroisePermanent (fun c => c.op = 0x16 ∧ (c.word 1).getLsbD 0 = true) ∧ RowChecks .heartbeat (·.op = 0x17)

/-- Binding a job (R308, R370, R378, R386, R397): BIND reads the access image and the mirror binding, refuses whole what is invalid, and
then binds; UNBIND and UNFENCE go on until memory is clear (readings: log entries 99 and 101). -/
def Sys2Proof.Claims.BindAndUnbind : Prop :=
  ∀ (s : State) (q : Fin 64) (c : Cmd), Passes s q c →
    let u := served s q
    (c.op = 0x01 →
      let o := exec (.bind q) s
      let h := u.cmdRead 0x122 (c.addr 2) 32
      let n := tokField h.2.2 6 2
      let head := tokField h.2.2 0 4 = 0x53434341 ∧ tokField h.2.2 4 2 = 1 ∧ n ≤ 4096
      let b := h.1.cmdRead 0x122 (c.addr 2 + 32) (16 * n)
      let l := accRecords b.2.2 n
      let body := tokField h.2.2 8 4 = (crc32c b.2.2).toNat ∧ ∀ r ∈ l, accRecordOk r.1 r.2 = true
      let m := b.1.cmdRead 0x122 (c.addr 3) 64
      let slice := bitsOf (c.word 1) 0 12
      (h.2.1 ≠ eOK → Ends o h.1 q h.2.1)
      ∧ (h.2.1 = eOK → ¬ head → Ends o h.1 q ePARAM)
      ∧ (h.2.1 = eOK → head → b.2.1 ≠ eOK → Ends o b.1 q b.2.1)
      ∧ (h.2.1 = eOK → head → b.2.1 = eOK → ¬ body → Ends o b.1 q ePARAM)
      ∧ (h.2.1 = eOK → head → b.2.1 = eOK → body →
        (c.addr 3 = 0 → Ends o (b.1.bindJob slice l none) q eOK)
        ∧ (c.addr 3 ≠ 0 → m.2.1 ≠ eOK → Ends o m.1 q m.2.1)
        ∧ (c.addr 3 ≠ 0 → m.2.1 = eOK → bindingOf m.2.2 = none → Ends o m.1 q ePARAM)
        ∧ (∀ x, c.addr 3 ≠ 0 → m.2.1 = eOK → bindingOf m.2.2 = some x → Ends o (m.1.bindJob slice l (some x)) q eOK)))
    ∧ (c.op = 0x02 → GoesOn (exec (.unbind q) s) u.unbindJob q 0x02 (.clearing false))
    ∧ (c.op = 0x0A → GoesOn (exec (.unfence q) s) u.unbindJob q 0x0A (.clearing true))

/-- LOAD_PROGRAM (R388, R396): the descriptor is read and checked; at PROGRAM_COPY_DONE the program stands in the stores and what the
descriptor sets is set, or the first error of the copy is the CODE. -/
def Sys2Proof.Claims.ProgramLoads : Prop :=
  (∀ (s : State) (q : Fin 64) (c : Cmd), Passes s q c → c.op = 0x03 →
    let o := exec (.loadProgram q) s
    let r := (served s q).cmdRead 0x122 (c.addr 1) 64
    let p := progOf (words64 r.2.2)
    let good := p.2.2 + p.2.1 ≤ storeSize ∧ p.2.2 % 8 = 0 ∧ spanHbm p.1 p.2.1 = true
      ∧ ∀ n ∈ c.mask 2, r.1.clSt n = clIDLE ∨ r.1.clSt n = clHALTED
    (r.2.1 ≠ eOK → Ends o r.1 q r.2.1) ∧ (r.2.1 = eOK → ¬ good → Ends o r.1 q ePARAM)
    ∧ (r.2.1 = eOK → good → GoesOn o r.1 q 0x03 (.copying (words64 r.2.2))))
  ∧ (∀ (s : State) (q : Nat) (d : List W64) (c : Cmd) (l : List Cmd),
    (s.runs.findSome? fun r => match r.kind with | .copying d => some (r.q, d) | _ => none) = some (q, d) → s.queue q = c :: l →
    let r := s.copyProgram c d
    (r.2 = eOK → Settles (exec .programCopyDone s) ((r.1.programLoaded c d).endRun q eOK 0))
    ∧ (r.2 ≠ eOK → Settles (exec .programCopyDone s) (r.1.endRun q r.2 0)))

/-- Starting, pausing and stopping (R115, R307, R338, R395, R397): START and START_AT enter RUNNING, the latter with a free alarm or E_BUSY;
PAUSE gives every cluster the count; the modes of RESUME command the clusters that they concern and report how many; DRAIN arms alarm 7; FENCE
fences the module (readings: log entries 34, 35, 64, 90 and 94). -/
def Sys2Proof.Claims.RunCommands : Prop :=
  ∀ (s : State) (q : Fin 64) (c : Cmd), Passes s q c →
    let u := served s q
    let excs := (c.mask 2).filter fun n => u.clSt n = clEXCEPTION
    let paused := (List.range 128).filter fun n => u.clSt n = clPAUSED
    let excRow := fun (i : Instr) (cmd : Nat) => Ends (exec i s) ((u.clCommands cmd excs).leavePaused false) q eOK (BitVec.ofNat 64 excs.length)
    (c.op = 0x04 → Ends (exec (.start q) s) ((u.enterRun 0x04 (c.mask 1)).clCommands ccSTART (c.mask 1)).autoState q eOK)
    ∧ (c.op = 0x05 → (∀ k, k < 6 → u.flag (coneAlarmCtrl_EN k) = false → (∀ j, j < k → u.flag (coneAlarmCtrl_EN j) = true) →
        Ends (exec (.startAt q) s) ((u.enterRun 0x05 (c.mask 1)).setAlarm k 1 (c.word 3) (c.word 1) (c.word 2)).autoState q eOK
          (BitVec.ofNat 64 k))
      ∧ ((∀ j, j < 6 → u.flag (coneAlarmCtrl_EN j) = true) → Ends (exec (.startAt q) s) u q eBUSY))
    ∧ (c.op = 0x06 → Ends (exec (.pause q) s)
        ((List.range 128).foldl (fun s n => (s.wr (clPauseAt n) (c.word 1)).put (clCtrl_PAT_EN n) 1) u) q eOK)
    ∧ (c.op = 0x07 → (c.mode = 0 → Ends (exec (.resume q) s)
          (((u.put sysState_FPEND 0).clCommands ccRESUME paused).leavePaused (!paused.isEmpty)) q eOK (BitVec.ofNat 64 paused.length))
        ∧ (c.mode = 1 → excRow (.resumeClusters q) ccRESUME) ∧ (c.mode = 2 → excRow (.skipClusters q) ccSKIP)
        ∧ (c.mode = 3 → excRow (.stopClusters q) ccSTOP))
    ∧ (c.op = 0x08 → (u.flag (coneAlarmCtrl_EN 7) = true → Ends (exec (.drain q) s) u q eBUSY)
        ∧ (u.flag (coneAlarmCtrl_EN 7) = false →
          let v := u.put sysState_FPEND 0
          Ends (exec (.drain q) s) ((if v.mstate = mBOUND then v else v.setMstate mDRAINING 0x08).setAlarm 7 0 (c.word 1) 0 0).autoState q eOK))
    ∧ (c.op = 0x09 → Ends (exec (.fence q) s) (u.fenceModule 4 0 0x09) q eOK)

/-- SNAPSHOT and RESTORE (R311, R315): with a binding that mirrors, a SNAPSHOT advances GEN and closes the generation in front; with a
binding, a RESTORE opens the window and asks the buddy; without one they complete with E_PARAM (reading: log entry 88). -/
def Sys2Proof.Claims.SnapshotAndRestore : Prop :=
  ∀ (s : State) (q : Fin 64) (c : Cmd), Passes s q c →
    let u := served s q
    (c.op = 0x0B → (∀ b, u.mirror.bind = some b → b.en = true →
        GoesOn (exec (.snapshot q) s) u q 0x0B (.snapshot (c.word 1) u.mirror.gen) fun s =>
          ((s.modMirror fun m => { m with gen := m.gen + 1, closing := true }).mirrorStatus).mirrorAdvance)
      ∧ ((∀ b, u.mirror.bind = some b → b.en = false) → Ends (exec (.snapshot q) s) u q ePARAM))
    ∧ (c.op = 0x0C → (∀ b, u.mirror.bind = some b →
        GoesOn (exec (.restore q) s) u q 0x0C .restoring fun s =>
          let v := ((s.put sysState_FPEND 0).setMstate mRESTORING 0x0C).modMirror fun m =>
            { m with
              window := some (c.addr 2, (c.word 3).toNat)
              windowStep := c.word 1
              windowAt := ((s.put sysState_FPEND 0).setMstate mRESTORING 0x0C).now
              windowBytes := 0 }
          let f := v.fault 0x0A 0 0x132 v.coord (v.get routeSlice_SLICE) 15 0 (c.word 1) (BitVec.ofNat 64 (c.addr 2)) (c.word 3)
          f.2.sendNote b.buddy f.1)
      ∧ (u.mirror.bind = none → Ends (exec (.restore q) s) u q ePARAM))

/-- Routes and links (R206, R262, R273, R274, R478): SET_ROUTES loads a bank that accepts it, from HBM, the image or the box, and reports its
CRC (E_PARAM for a table with a reserved encoding: log entry 124); FLIP_EPOCH flips at its count, or at once where that is past; ACCEPT_OBSERVED accepts the links of its mask and reports them. -/
def Obligations.RouteCommands : Prop :=
  ∀ (s : State) (q : Fin 64) (c : Cmd), Passes s q c →
    let u := served s q
    let loaded := fun (o : Answer) (t : State) => Ends o t q eOK (BitVec.ofNat 64 (t.bankCrc c.bank).toNat)
    let shut := fun (i : Instr) => u.bankOpen c.bank = false → Ends (exec i s) u q eSTATE
    (c.op = 0x0D →
      (bitsOf (c.word 1) 0 2 = 0 → shut (.setRoutesHbm q) ∧ (u.bankOpen c.bank = true →
        let r := u.cmdRead 0x122 (c.addr 2) 131080
        (r.2.1 ≠ eOK → Ends (exec (.setRoutesHbm q) s) r.1 q r.2.1)
        ∧ (r.2.1 = eOK → if someReserved r.2.2 16384 then Ends (exec (.setRoutesHbm q) s) r.1 q ePARAM
            else loaded (exec (.setRoutesHbm q) s) (r.1.loadBank c.bank (entriesOf r.2.2 0 16384)
            (some (BitVec.ofNat 64 (natLE (r.2.2.drop 131072))))))))
      ∧ (bitsOf (c.word 1) 0 2 = 1 → shut (.setRoutesImage q) ∧ (u.bankOpen c.bank = true →
        let r := u.cmdRead 0x122 0x0E0000160000 131088
        (r.2.1 ≠ eOK → Ends (exec (.setRoutesImage q) s) r.1 q r.2.1)
        ∧ (∀ t, r.2.1 = eOK → r.1.routesFromImage c.bank = some t → loaded (exec (.setRoutesImage q) s) t)
        ∧ (r.2.1 = eOK → r.1.routesFromImage c.bank = none → Ends (exec (.setRoutesImage q) s) (r.1.regionInvalid 7 0) q eFAULT)))
      ∧ (bitsOf (c.word 1) 0 2 = 2 → shut (.setRoutesBox q)
        ∧ (u.bankOpen c.bank = true → loaded (exec (.setRoutesBox q) s) (u.loadBank c.bank u.stdBank none))))
    ∧ (c.op = 0x0E →
      let ready := u.bankState (!u.flag routeBank_ACTIVE) = bkLOADED ∧ u.flag routeBank_FLIP_PEND = false
      let v := u.wr routeFlipAt (c.word 1)
      (¬ ready → Ends (exec (.flipEpoch q) s) u q eSTATE)
      ∧ (ready → (c.word 1).toNat ≤ v.now → Ends (exec (.flipEpoch q) s) ((v.logEv 0x0601 0x3FE 0 (c.word 1) v.cone).flip) q eOK)
      ∧ (ready → v.now < (c.word 1).toNat →
          Ends (exec (.flipEpoch q) s) ((v.put routeBank_FLIP_PEND 1).setAlarm 6 2 (c.word 1) 0 0) q eOK))
    ∧ (c.op = 0x0F →
      let l := (List.range 14).filter fun i => (c.word 1).getLsbD i && (u.lnk i = lkMISWIRED || u.flag (lnkStatus_INCOMPATIBLE i))
      Ends (exec (.acceptObserved q) s) (l.foldl State.acceptObserved u) q eOK (BitVec.ofNat 64 (l.foldl (fun m i => m + 2 ^ i) 0)))

/-- BIND_STEP (R319-R324): where step 1 allows it the rows are checked and written, and then the step is bound, after the bitmap's clear where
TCLR asks for it; else the command waits, and a module that is READY or FENCED meanwhile ends it with E_STATE (readings: log entries 45
and 97). -/
def Obligations.StepBinding : Prop :=
  ∀ (s : State) (q : Fin 64) (c : Cmd),
    let o := exec (.bindStep q) s
    (Passes s q c → c.op = 0x13 →
      let u := served s q
      let first := u.stepReady c = true ∧ ∀ r ∈ u.runs, r.op ≠ 0x13
      (¬ first → GoesOn o u q 0x13 .bindWait)
      ∧ (first →
        let r := u.checkRows (c.addr 2) 0 c.nrows
        let w := r.1.writeRows (c.addr 2) (c.word 1).toNat 0 c.nrows
        let clr := w.1.busWrite 0x122 (regAddr klnTouchCtrl) (bytesLE 8 (setBits (w.1.rd klnTouchCtrl) 1 1 1).toNat)
        (r.2 ≠ eOK → Ends o r.1 q r.2) ∧ (r.2 = eOK → w.2 ≠ eOK → Ends o w.1 q w.2)
        ∧ (r.2 = eOK → w.2 = eOK → c.tclr = true → GoesOn o clr.1 q 0x13 .bindClear)
        ∧ (r.2 = eOK → w.2 = eOK → c.tclr = false →
            let v := (List.range 128).foldl (fun s n => s.wr (clJstep n) (c.word 1)) w.1
            let v := { v.closeBelow (c.word 1) with stepTable := some (c.addr 2, c.nrows) }
            let x := v.cmdWrite 0x122 (c.addr 3)
              (wordsBytes [c.word 1, BitVec.ofNat 64 (c.addr 2), BitVec.ofNat 64 (c.nrows + c.tclr.toNat * 2 ^ 15), v.cone])
            (c.addr 3 = 0 → Ends o v q eOK v.cone) ∧ (c.addr 3 ≠ 0 → x.2 = eOK → Ends o x.1 q eOK v.cone)
            ∧ (c.addr 3 ≠ 0 → x.2 ≠ eOK → Ends o x.1 q x.2))))
    ∧ (∀ r l, s.runAt q = some r → r.kind = .bindWait → s.queue q = c :: l → s.schTakes = true → s.orphanStop = false →
        let ended := s.mstate ≤ mREADY ∨ s.mstate = mFENCED
        let may := s.stepReady c = true ∧ (s.runs.find? (·.op == 0x13)).map (·.q) = some q.val
        (ended → Settles o (s.endRun q eSTATE 0)) ∧ (¬ ended → may → Settles o ((stepRows s c).settle q 0x13).schReady)
        ∧ (¬ ended → ¬ may → Settles o s))

/-- The settings and the log (R318, R339, R404, R405, R412, R427, R445): SET_LATENCY_TOL, SET_POLICY, READ_LOG, HEARTBEAT, and the heartbeat's
time-out (readings: log entries 98, 100 and 108). -/
def Obligations.SettingsAndLog : Prop :=
  ∀ (s : State) (q : Fin 64) (c : Cmd),
    (Passes s q c →
      let u := served s q
      (c.op = 0x11 → Ends (exec (.setLatencyTol q) s) (u.put pwrTol_TOL (tolNs (bitsOf (c.word 1) 0 32))).exitUnits q eOK)
      ∧ (c.op = 0x12 →
        let o := exec (.setPolicy q) s
        let det := (c.word 1).getLsbD 0 = true ∧ u.detFree = false
        let expert := (c.word 1).getLsbD 3 = true
        let r := u.cmdRead 0x120 (c.addr 5) 256
        let k := r.1.checkToken r.2.2 1 (bitsOf (c.word 4) 0 8)
        (det → Ends o u q eSTATE) ∧ (¬ det → ¬ expert → Ends o (u.setPolicy c) q eOK)
        ∧ (¬ det → expert → u.secServes = false → Ends o u q eFAULT)
        ∧ (¬ det → expert → u.secServes = true → r.2.1 ≠ eOK → Ends o r.1 q r.2.1)
        ∧ (¬ det → expert → u.secServes = true → r.2.1 = eOK → k.1 = true → Ends o (k.2.setPolicy c) q eOK)
        ∧ (¬ det → expert → u.secServes = true → r.2.1 = eOK → k.1 = false → Ends o k.2 q eAUTH))
      ∧ (c.op = 0x14 → bitsOf (c.word 1) 0 2 = 0 →
        let r := u.cmdWrite 0x122 (c.addr 2) (wordsBytes ((List.range 8).map fun k => BitVec.ofNat 64 (u.recov.get 0 k)))
        (r.2 = eOK → Ends (exec (.readLogCounters q) s) { r.1 with recov := [] } q eOK 64)
        ∧ (r.2 ≠ eOK → Ends (exec (.readLogCounters q) s) r.1 q r.2))
      ∧ (c.op = 0x14 → bitsOf (c.word 1) 0 2 = 1 →
        let n := (c.word 4).toNat
        let r := (List.range n).foldl (fun (x : State × Nat × List Byte) k =>
          if x.2.1 ≠ eOK then x
          else
            let y := x.1.cmdRead 0x122 (u.get logBase_BASE * 2 ^ 24 + ((c.word 3).toNat + k) % 524288 * 32) 32
            (y.1, y.2.1, x.2.2 ++ y.2.2)) (u, eOK, [])
        let w := r.1.cmdWrite 0x122 (c.addr 2) r.2.2
        (2 ^ 43 < n → Ends (exec (.readLogRecords q) s) u q ePARAM)
        ∧ (n ≤ 2 ^ 43 → r.2.1 ≠ eOK → Ends (exec (.readLogRecords q) s) r.1 q r.2.1)
        ∧ (n ≤ 2 ^ 43 → r.2.1 = eOK → w.2 = eOK → Ends (exec (.readLogRecords q) s) w.1 q eOK (BitVec.ofNat 64 (32 * n)))
        ∧ (n ≤ 2 ^ 43 → r.2.1 = eOK → w.2 ≠ eOK → Ends (exec (.readLogRecords q) s) w.1 q w.2))
      ∧ (c.op = 0x17 → Ends (exec (.heartbeat q) s) ({ u with hbAt := u.cone, orphanStop := false }.put sysState_ORPH 0) q eOK u.cone))
    ∧ (let due := mREADY ≤ s.mstate ∧ s.procRuns .sch = true ∧ s.get sysPolicy_HB_TMO ≠ 0
         ∧ s.hbAt.toNat + s.get sysPolicy_HB_TMO * 100000000 ≤ s.now ∧ s.flag sysState_ORPH = false
       (due → Settles (exec .heartbeatTimeout s) ((s.put sysState_ORPH 1).logEv 0x0005 0x3FE 0 (s.cone - s.hbAt) 0).orphaned)
       ∧ (¬ due → exec .heartbeatTimeout s = .next s))

/-! ## What SEC serves -/

/-- Attestation and zeroisation (R349-R352, R430, R434, R435, R437): ATTEST gives E_FAULT where SEC does not serve or can certify no more; else
its kinds write the chain, the signed measurements or enrol the owner, each request checked whole first; PROVENANCE goes on until the
engine has hashed. ZEROISE of scope 0 needs SEC to run; scope 1 needs a token and kills the identity key (encodings and the drawn bits are
not the spec's: log entries 16, 23 and 91). -/
def Sys2Proof.Claims.SecServices : Prop :=
  ∀ (s : State) (q : Fin 64) (c : Cmd), Passes s q c →
    let u := served s q
    let can := u.secServes = true ∧ u.sec.idkDead = false
    let r := u.cmdRead 0x120 (c.addr 2) 128
    let writes := fun (o : Answer) (v : State) (out : List Byte) =>
      let at_ := tokField r.2.2 0 8
      let fits := at_ % 64 = 0 ∧ spanHbm at_ out.length = true ∧ out.length ≤ tokField r.2.2 8 8
      let w := v.cmdWrite 0x120 at_ out
      (¬ fits → Ends o v q ePARAM) ∧ (fits → w.2 ≠ eOK → Ends o w.1 q w.2)
      ∧ (fits → w.2 = eOK → Ends o w.1 q eOK (BitVec.ofNat 64 out.length))
    (c.op = 0x15 →
      (bitsOf (c.word 1) 0 4 = 0 →
        let o := exec (.attestProvenance q) s
        let p := u.cmdRead 0x122 (c.addr 2) 256
        (¬ can → Ends o u q eFAULT) ∧ (can → p.2.1 ≠ eOK → Ends o p.1 q p.2.1)
        ∧ (can → p.2.1 = eOK → provOk p.2.2 = false → Ends o p.1 q ePARAM)
        ∧ (can → p.2.1 = eOK → provOk p.2.2 = true →
            GoesOn o ((p.1.put digProv_BUSY 1).put digProv_BYTES 0) q 0x15 (.provenance p.2.2)))
      ∧ (bitsOf (c.word 1) 0 4 = 1 →
        let o := exec (.attestCerts q) s
        (¬ can → Ends o u q eFAULT) ∧ (can → r.2.1 ≠ eOK → Ends o r.1 q r.2.1) ∧ (can → r.2.1 = eOK → writes o r.1 r.1.chain))
      ∧ (bitsOf (c.word 1) 0 4 = 2 →
        let o := exec (.attestMeasure q) s
        let req := Config.stdBytes 6 ((r.2.2.drop 16).take 32)
        let a := r.1.signedAnswer 7 req r.1.allMeasurements
        (¬ can → Ends o u q eFAULT) ∧ (can → r.2.1 ≠ eOK → Ends o r.1 q r.2.1) ∧ (can → r.2.1 = eOK → writes o a.2 (req ++ a.1)))
      ∧ (bitsOf (c.word 1) 0 4 = 3 →
        let o := exec (.attestEnroll q) s
        let key := (r.2.2.drop 16).take 96
        let onCurve := ecValid (beField key 0 48) (beField key 48 48) = true
        let v := r.1
        (¬ can → Ends o u q eFAULT) ∧ (can → r.2.1 ≠ eOK → Ends o v q r.2.1) ∧ (can → r.2.1 = eOK → ¬ onCurve → Ends o v q ePARAM)
        ∧ (can → r.2.1 = eOK → onCurve → v.sec.ownerHash ≠ 0 → Ends o v q eAUTH)
        ∧ (can → r.2.1 = eOK → onCurve → v.sec.ownerHash = 0 → v.flag sysState_EMERG = true → Ends o v q eBUSY)
        ∧ (can → r.2.1 = eOK → onCurve → v.sec.ownerHash = 0 → v.flag sysState_EMERG = false →
          (v.fusesFree = true → Ends o (v.enrol (sha384 key)) q eOK)
          ∧ (v.fusesFree = false → GoesOn o (v.modSec fun x => { x with enrolPend := some (sha384 key) }) q 0x15 .enrolling))))
    ∧ (c.op = 0x16 → (c.word 1).getLsbD 0 = false →
        (u.procRuns .sec = false → Ends (exec (.zeroiseEphemeral q) s) u q eFAULT)
        ∧ (u.procRuns .sec = true → Ends (exec (.zeroiseEphemeral q) s) (u.zeroise 0) q eOK))
    ∧ (c.op = 0x16 → (c.word 1).getLsbD 0 = true →
        let o := exec (.zeroisePermanent q) s
        let z := u.cmdRead 0x120 (c.addr 2) 256
        let k := z.1.checkToken z.2.2 2 0
        (u.secServes = false → Ends o u q eFAULT)
        ∧ (u.secServes = true → u.flag sysState_EMERG = true → Ends o u q eBUSY)
        ∧ (u.secServes = true → u.flag sysState_EMERG = false →
          (z.2.1 ≠ eOK → Ends o z.1 q z.2.1) ∧ (z.2.1 = eOK → k.1 = false → Ends o k.2 q eAUTH)
          ∧ (z.2.1 = eOK → k.1 = true →
              Ends o (((k.2.modSec fun x => { x with idkDead := true }).put secFuses_IDK_DEAD 1).zeroise 1) q eOK)))

/-- Firmware activation (R406, R407, R424, R471): a slot whose manifest entry fails gives E_AUTH; in EMERGENCY a verified one is held and runs
1 s after EMERGENCY has cleared; else the processors restart, and the command completes once they run. A provenance record that the
engine has made ends its command (reading: log entry 109). -/
def Sys2Proof.Claims.FirmwareActivation : Prop :=
  (∀ (s : State) (q : Fin 64) (c : Cmd), Passes s q c → c.op = 0x10 →
    let o := exec (.activateFw q) s
    let u := served s q
    let held := u.flag sysState_EMERG = true ∧ u.imgRunning = true
    (u.secServes = false → Ends o u q eFAULT)
    ∧ (u.secServes = true → held → Ends o (u.deferFw q c) q eDEFERRED)
    ∧ (u.secServes = true → ¬ held → u.fwVerified c = none → Ends o u q eAUTH)
    ∧ (∀ copy, u.secServes = true → ¬ held → u.fwVerified c = some copy →
      (u.flag sysState_EMERG = true → Ends o (u.deferFw q c) q eDEFERRED)
      ∧ (u.flag sysState_EMERG = false → GoesOn o (u.fwRestart c copy) q 0x10 (.activating c.fwProc) State.fwSettle)))
  ∧ (∀ (s : State) (p : Fin 4) (q : Nat) (c : Cmd), s.defers.find p.val = some (q, c) →
    let o := exec (.activateFwDeferredRun p) s
    let waits := s.flag sysState_EMERG = true ∨ s.now < s.emergClearAt.toNat + 1000000000 ∨ s.imgRunning = true ∨ s.schTakes = false
    let u := { s with defers := s.defers.erase p.val }.put sysFwSlot_DEFER (s.get sysFwSlot_DEFER &&& (15 - 2 ^ p.val))
    (waits → o = .next s) ∧ (¬ waits →
      (u.secServes = false → Settles o (u.completeCmd q c eFAULT 0))
      ∧ (u.secServes = true → u.fwVerified c = none → Settles o (u.completeCmd q c eAUTH 0))
      ∧ (∀ copy, u.secServes = true → u.fwVerified c = some copy →
          Settles o { u.fwRestart c copy with deferRuns := u.deferRuns.insert p.val (q, c) }.fwSettle)))
  ∧ (∀ (s : State) (q : Nat) (b : List Byte),
    (s.runs.findSome? fun r => match r.kind with | .provenance b => some (r.q, b) | _ => none) = some (q, b) →
      (s.accHeld 0x130 = true → exec .provenanceDone s = .next s)
      ∧ (s.accHeld 0x130 = false → Settles (exec .provenanceDone s)
          ((((s.provWrite b).1.put digProv_BUSY 0).put digProv_STATUS (s.provWrite b).2).endRun q (s.provWrite b).2 0)))

/-- Processors (R385-R388, R413): a watchdog that expires under a running processor is counted and logged; the first two times within
60 s the processor restarts (SEC only in READY and FENCED), at the third it is in FW_FAULT; a restarted processor runs and what waited goes
on. The load window shows the busy times and moves PWR's stretch by one step at most (readings: log entries 21, 104 and 105). -/
def Sys2Proof.Claims.ProcessorEvents : Prop :=
  ∀ (s : State) (p : Proc),
    (s.procRuns p = false → exec (.watchdogExpiry p) s = .next s)
    ∧ (s.procRuns p = true →
      let l := s.now :: (s.proc p).restarts.filter fun t => s.now < t + 60000000000
      let u := (s.bump ⟨sysWdt, 8 * procCode p, 8⟩).logEv (if 3 ≤ l.length then 0x0004 else 0x0003) (procMid p) (procCode p)
        (BitVec.ofNat 64 (procIndex p)) (BitVec.ofNat 64 l.length)
      let v := match p with
        | .sch => u.schLost
        | .sec => u.spdmLost
        | _ => u
      (3 ≤ l.length → Settles (exec (.watchdogExpiry p) s) ((v.setProc p ⟨.fwFault, l⟩).fwFenced p))
      ∧ (l.length < 3 → Settles (exec (.watchdogExpiry p) s) (v.setProc p
          ⟨if p = .sec ∧ v.mstate ≠ mREADY ∧ v.mstate ≠ mFENCED then .reset else .restarting, l⟩)))
    ∧ ((s.proc p).st ≠ .restarting → exec (.fwRestartDone p) s = .next s)
    ∧ ((s.proc p).st = .restarting →
      let u := s.setProc p { s.proc p with st := .running }
      let v := match p with
        | .sch => u.reportLost
        | .ccc n => u.clRelease n.val
        | .pwr => u.emReplay
        | .sec => u
      Settles (exec (.fwRestartDone p) s) v.fwSettle.schReady)
    ∧ (∀ sec pwr sch ccc idx, Canon s → s.mstate ≠ mOFF → ∃ t, exec (.fwLoadWindow sec pwr sch ccc idx) s = .next t
        ∧ t.get sysFwLoad_UTIL_SEC = min sec.toNat 100 ∧ t.get sysFwLoad_UTIL_PWR = min pwr.toNat 100
        ∧ t.get sysFwLoad_UTIL_SCH = min sch.toNat 100 ∧ t.get sysFwLoad_UTIL_CCC = min ccc.toNat 100 ∧ t.get sysFwLoad_CCC_MAX = idx.toNat
        ∧ t.get sysFwLoad_STRETCH = (if 85 < min pwr.toNat 100 then min (s.get sysFwLoad_STRETCH + 1) 3
            else if min pwr.toNat 100 < 60 then s.get sysFwLoad_STRETCH - 1 else s.get sysFwLoad_STRETCH))

/-- SEC by itself (R423, R425, R431, R436, R437): a challenge expires after 60 s; the DRBG reseeds after 65,536 requests or 10 s; a
failed health test puts SEC into the error state; the fuse writes that waited are made once they may be (the drawn bits are free: log
entry 16). -/
def Sys2Proof.Claims.SecEvents : Prop :=
  ∀ (s : State),
    (let due := s.flag secChalGen_VALID = true ∧ s.sec.challengeAt + 60000000000 ≤ s.now
     (due → exec .challengeExpiry s = .next (s.put secChalGen_VALID 0)) ∧ (¬ due → exec .challengeExpiry s = .next s))
    ∧ (let due := s.procRuns .sec = true ∧ (65536 ≤ s.sec.drbgReqs ∨ s.sec.drbgAt + 10000000000 ≤ s.now)
       (due → exec .drbgReseed s = .next s.reseed) ∧ (¬ due → exec .drbgReseed s = .next s))
    ∧ (∀ pairwise, let code := if pairwise then 8 else 7
        (s.secServes = true → exec (.entropyHealthFail pairwise) s =
          .next (((s.put secStatus_ERROR 1).put secStatus_ETEST code).logEv 0x030A 0x3FE code 0 0))
        ∧ (s.secServes = false → exec (.entropyHealthFail pairwise) s = .next s))
    ∧ (∀ back, let may := s.fusesFree = true ∧ s.secServes = true
        let u := if s.sec.svnPend then s.blowSvn back else s
        (¬ may → exec (.fuseWriteResume back) s = .next s)
        ∧ (may → u.sec.enrolPend = none → Settles (exec (.fuseWriteResume back) s) u)
        ∧ (∀ h r, may → u.sec.enrolPend = some h → u.runs.find? (fun r => r.kind == .enrolling) = some r →
            Settles (exec (.fuseWriteResume back) s) ((u.enrol h).endRun r.q eOK 0))
        ∧ (∀ h, may → u.sec.enrolPend = some h → u.runs.find? (fun r => r.kind == .enrolling) = none →
            Settles (exec (.fuseWriteResume back) s) (u.enrol h)))
    ∧ (∀ t, s.svnTarget = t → s.svn < t → s.sec.svnStuck = false →
        s.blowSvn true = ((s.modSec fun c => { c with svnPend := false }).put secFuses_SVN t).logEv 0x0308 0x3FE 0
          (BitVec.ofNat 64 s.svn) (BitVec.ofNat 64 t))

/-! ## The management ports -/

/-- A management message of a row is answered where `cond` holds: on I3C the answer is the response, and with interrupts enabled one is
announced; on the fabric it goes back to the packet's source. -/
def Replies (tr : Transport) (i : Instr) (ready : State → Bool) (cond : State → Prop) (f : State → List Byte × State) : Prop :=
  match tr with
  | .i3c => ∀ s : State, s.mstate ≠ mOFF → s.mgmt.i3cAddr.isSome = true → ready s = true → cond s →
      Settles (exec i s) (((f s).2.respond 0 (f s).1).modMgmt fun m => { m with ibiPend := m.ibiEn })
  | .fabric => ∀ (s t : State) (d : Desc), s.takeHead 19 (fun p => p.typ == tMGMT && p.mtype == 4 && !p.toHost) = some (d, t) →
      (ready t = false → exec i s = .next t)
      ∧ (ready t = true → cond t → Settles (exec i s) ((f t).2.mctpAck d.mid d.pkt (f t).1))

/-- SEC can answer an SPDM request now: it is not in the error state and, where the request needs the key, has one (R435, R437). -/
def SpdmCan (key : Bool) (s : State) : Prop :=
  s.flag secStatus_ERROR = false ∧ (key = true → s.sec.idkDead = false ∧ s.sec.akValid = true)

/-- An SPDM row: Unspecified where SEC cannot answer, UnexpectedRequest where the connection is not as far as `step`, else what `f` says, and
the request and the answer join the connection's transcript. -/
def SpdmAnswers (tr : Transport) (i : Instr) (key : Bool) (step : Spdm → Bool) (req : List Byte)
    (f : State → Spdm → List Byte × Spdm × State) : Prop :=
  Replies tr i State.spdmReady (fun s => ¬ SpdmCan key s) (fun s => (Config.stdBytes 8 [spUnspecified], s))
    ∧ Replies tr i State.spdmReady (fun s => SpdmCan key s ∧ step (s.spdm tr) = false) (fun s => (Config.stdBytes 8 [spUnexpected], s))
    ∧ Replies tr i State.spdmReady (fun s => SpdmCan key s ∧ step (s.spdm tr) = true) fun s =>
        let r := f s (s.spdm tr)
        (r.1, r.2.2.setSpdm tr { r.2.1 with transcript := r.2.1.transcript ++ req ++ r.1 })

/-- SPDM, MCTP and PLDM (R414, R422, R428, R429, R435, R437, R471): each message is answered on the transport that it came by, once the
processors that serve it run; the SPDM requests move the state of their own connection on (the encodings are PRESUMED: log entries 23 and
107). -/
def Obligations.ManagementMessages : Prop :=
  ∀ (tr : Transport),
    SpdmAnswers tr (.getVersion tr) false (fun _ => true) (Config.stdBytes 0 [])
      (fun s _ => (Config.stdBytes 9 [0x13], { Spdm.reset with version := true }, s))
    ∧ SpdmAnswers tr (.getCapabilities tr) false (·.version) (Config.stdBytes 1 [])
      (fun s c => (Config.stdBytes 10 [17], { c with caps := true }, s))
    ∧ (∀ p h, SpdmAnswers tr (.negotiateAlgorithms tr p h) false (·.caps) (Config.stdBytes 2 [BitVec.ofNat 8 (p.toNat + 2 * h.toNat)])
      (fun s c => if p && h then (Config.stdBytes 11 [3], { c with algs := true }, s)
        else (Config.stdBytes 8 [spInvalid], { c with algs := false }, s)))
    ∧ SpdmAnswers tr (.getDigests tr) true (·.algs) (Config.stdBytes 3 []) (fun s c => (Config.stdBytes 12 (1 :: hash48 s.chain), c, s))
    ∧ (∀ slot off len, SpdmAnswers tr (.getCertificate tr slot off len) true (·.algs)
      (Config.stdBytes 4 ([slot] ++ bytesLE 2 off.toNat ++ bytesLE 2 len.toNat)) (fun s c =>
        let part := (s.chain.drop off.toNat).take len.toNat
        if slot ≠ 0 ∨ s.chain.length ≤ off.toNat then (Config.stdBytes 8 [spInvalid], c, s)
        else (Config.stdBytes 13 (bytesLE 2 part.length ++ bytesLE 4 (s.chain.length - off.toNat - part.length) ++ part), c, s)))
    ∧ (∀ slot nonce, SpdmAnswers tr (.challenge tr slot nonce) true (·.algs) (Config.stdBytes 5 (slot :: bytesLE 32 nonce.toNat))
      (fun s c =>
        let a := s.signedAnswer 14 (c.transcript ++ Config.stdBytes 5 (slot :: bytesLE 32 nonce.toNat)) (hash48 s.chain)
        if slot ≠ 0 then (Config.stdBytes 8 [spInvalid], c, s) else (a.1, c, a.2)))
    ∧ (∀ index sign slot nonce,
      let req := Config.stdBytes 6 ([index, BitVec.ofNat 8 sign.toNat, slot] ++ bytesLE 32 nonce.toNat)
      SpdmAnswers tr (.getMeasurements tr index sign slot nonce) true (·.algs) req (fun s c =>
        let k := index.toNat
        let body := if k = 0 then [8] else if k = 255 then s.allMeasurements else index :: s.measurement k
        let a := s.signedAnswer 7 (c.transcript ++ req) body
        let n := s.fresh 256
        if (8 < k ∧ k ≠ 255) ∨ (sign = true ∧ slot ≠ 0) then (Config.stdBytes 8 [spInvalid], c, s)
        else if sign then (a.1, c, a.2)
        else (Config.stdBytes 7 (body ++ bytesLE 32 n.1.toNat), c, n.2)))
    ∧ (∀ eid, Replies tr (.setEndpointId tr eid) State.ctrlReady (fun _ => True) fun s =>
        let t := if eid.toNat < 8 ∨ eid.toNat = 255 then s else { s with mgmt := { s.mgmt with eid := eid.toNat } }
        (Config.stdBytes 16 [BitVec.ofNat 8 t.mgmt.eid], t))
    ∧ Replies tr (.getEndpointId tr) State.ctrlReady (fun _ => True) (fun s => (Config.stdBytes 17 [BitVec.ofNat 8 s.mgmt.eid], s))
    ∧ Replies tr (.getMctpVersionSupport tr) State.ctrlReady (fun _ => True) (fun s => (Config.stdBytes 18 [], s))
    ∧ Replies tr (.getMessageTypeSupport tr) State.ctrlReady (fun _ => True) (fun s => (Config.stdBytes 19 [], s))
    ∧ Replies tr (.getTid tr) State.msgReady (fun _ => True) (fun s => (Config.stdBytes 32 [BitVec.ofNat 8 s.mgmt.tid], s))
    ∧ Replies tr (.getPldmVersion tr) State.msgReady (fun _ => True) (fun s => (Config.stdBytes 33 [], s))
    ∧ Replies tr (.getPldmTypes tr) State.msgReady (fun _ => True) (fun s => (Config.stdBytes 34 [], s))
    ∧ Replies tr (.getPldmCommands tr) State.msgReady (fun _ => True) (fun s => (Config.stdBytes 35 [], s))
    ∧ (∀ x, Replies tr (.pldmSensorRead tr x) State.msgReady (fun _ => True) (fun s => (Config.stdBytes 36 (bytesLE 4 (s.sensor x)), s)))
    ∧ (∀ (proc : Fin 4) (slotB : Bool), Replies tr (.requestUpdate tr proc slotB) (State.updateReady · tr) (fun _ => True) fun s =>
        let r := 8 + 2 * proc.val + slotB.toNat
        if s.img ≠ none ∨ s.mgmt.update ≠ none then (Config.stdBytes 48 [1], s)
        else if s.sec.recovery = false ∧ s.slotRunning r = true then (Config.stdBytes 48 [2], s)
        else (Config.stdBytes 48 [0], { s with mgmt := { s.mgmt with update := some (r, 0) } }))
    ∧ (∀ data last, Replies tr (.pldmFirmwareTransfer tr data last) (State.updateReady · tr) (fun _ => True) fun s =>
        match s.mgmt.update with
        | some (r, off) =>
          if (regionOf r).2 < off + data.length then (Config.stdBytes 49 [1], s)
          else if s.flag sysState_EMERG then (Config.stdBytes 49 [2], s)
          else (Config.stdBytes 49 [0], s.updateWrite r off data last)
        | none => (Config.stdBytes 49 [1], s))

/-- I3C and the debug port (R438, R439, R487, R488, R491, R492): an addressed target answers the common commands; ENTDAA gives an address 50 ms
after reset; every debug instruction selects its register, boundary scan works only while RST_N is asserted, DMEM makes one access in a
session, and TRST_N resets the port (details of the standards are PRESUMED: log entries 24 and 106). -/
def Obligations.ManagementPorts : Prop :=
  ∀ (s : State),
    (s.mstate ≠ mOFF → s.mgmt.i3cAddr.isSome = true →
      let m := s.mgmt
      let sets := fun (i : Instr) (m : Mgmt) => exec i s = .next { s with mgmt := m }
      let ans := fun (i : Instr) (b : List Byte) => sets i { m with resp := some ⟨2, b⟩ }
      sets .rstdaa { m with i3cAddr := none }
      ∧ (∀ e, sets (.enec e) { m with ibiEn := m.ibiEn || e.getLsbD 0 } ∧ sets (.disec e) { m with ibiEn := m.ibiEn && !e.getLsbD 0 })
      ∧ ans .getpid (bytesBE 6 (2 ^ 32 + (s.rd sysSerial).toNat % 2 ^ 32)) ∧ ans .getbcr [0x06] ∧ ans .getdcr [0x00]
      ∧ ans .getstatus (bytesBE 2 m.ibiPend.toNat) ∧ ans .getmwl (bytesBE 2 m.mwl) ∧ ans .getmrl (bytesBE 2 m.mrl)
      ∧ (∀ l, sets (.setmwl l) { m with mwl := min l.toNat 256 } ∧ sets (.setmrl l) { m with mrl := min l.toNat 256 }))
    ∧ (∀ a, let may := s.mstate ≠ mOFF ∧ s.mgmt.i3cAddr = none ∧ 50000000 ≤ s.now
        (may → exec (.entdaa a) s = .next { s with mgmt := { s.mgmt with i3cAddr := some a.toNat } })
        ∧ (¬ may → exec (.entdaa a) s = .next s))
    ∧ (s.power.inRange = true →
      let sel := fun (ir : Nat) => { s with mgmt := { s.mgmt with ir := ir, trst := false } }
      (∀ tdi, Settles (exec (.jtagBypass tdi) s) ((sel 0xFF).respond 3 [BitVec.ofNat 8 tdi.toNat]))
      ∧ Settles (exec .jtagIdcode s) ((sel 0x01).respond 3 (bytesLE 4 0xB4A07593))
      ∧ (∀ cells, s.power.rstN = true →
          Settles (exec (.jtagExtest cells) s) ((sel 0xFF).respond 3 [BitVec.ofNat 8 (cells.headD false).toNat])
          ∧ Settles (exec (.jtagSamplePreload cells) s) ((sel 0xFF).respond 3 [BitVec.ofNat 8 (cells.headD false).toNat]))
      ∧ (∀ cells, s.power.rstN = false → ∃ b c,
          Settles (exec (.jtagExtest cells) s) ((((sel 0x00).fresh cells.length).2.modMgmt fun m => { m with bscan := cells }).respond 3 b)
          ∧ Settles (exec (.jtagSamplePreload cells) s)
            ((((sel 0x02).fresh cells.length).2.modMgmt fun m => { m with bscan := cells }).respond 3 c))
      ∧ (let u := sel 0x10
         let v := if u.flag secChalGen_VALID || !u.secServes then u else u.drawChallenge
         Settles (exec .jtagChal s) (v.respond 3 v.challengeBytes))
      ∧ (∀ token, let u := sel 0x11
          let b := bytesLE 256 token.toNat
          let r := u.checkToken b 3 0
          (u.secServes = false → Settles (exec (.jtagToken token) s) u)
          ∧ (u.secServes = true → r.1 = false → Settles (exec (.jtagToken token) s) r.2)
          ∧ (u.secServes = true → r.1 = true → Settles (exec (.jtagToken token) s) (r.2.openDebug (tokField b 48 8 % 2) (tokField b 7 1))))
      ∧ Settles (exec .jtagDstatus s) ((sel 0x12).respond 3
          (bytesLE 4 (s.get secDbg_SESSION + 2 * s.get secChalGen_VALID + 4 * s.get secDbg_RESULT)))
      ∧ Settles (exec .jtagDclose s) (sel 0x13).closeDebug
      ∧ (∀ dr : BitVec 128, let u := (sel 0x20).respond 3 (bytesLE 16 (s.mgmt.dmemResp * 2 ^ 61 + s.mgmt.dmemData.toNat * 2 ^ 64))
          let a := dr.toNat % 2 ^ 48 / 8 * 8
          let ends := fun (v : State) (r : Nat) (d : W64) =>
            Settles (exec (.jtagDmem dr) s) { v with mgmt := { v.mgmt with dmemResp := r, dmemData := d } }
          (u.flag secDbg_SESSION = false → ends u rDENIED 0)
          ∧ (u.flag secDbg_SESSION = true → dr.getLsbD 48 = true →
              ends (u.busWrite 0x3FF a (bytesLE 8 (dr.toNat / 2 ^ 64))).1 (u.busWrite 0x3FF a (bytesLE 8 (dr.toNat / 2 ^ 64))).2.1 0)
          ∧ (u.flag secDbg_SESSION = true → dr.getLsbD 48 = false →
              ends (u.busRead 0x3FF a 8).1 (u.busRead 0x3FF a 8).2.1 (BitVec.ofNat 64 (natLE (u.busRead 0x3FF a 8).2.2.2)))))
    ∧ exec .trstNAssert s = .next { s with mgmt := { s.mgmt with
        trst := true
        ir := 0x01
        dmemResp := 0
        dmemData := 0
        bscan := [] } }

/-! ## Power, thermal control and low-power states -/

/-- Frequency and power (R449-R452): the capping loop shows its means and moves f_cap by its rule; the limiter enters and leaves its
stages as its times say, and removes the core rails at the end of stage 2; a raised frequency takes effect when its voltage has settled; the
throttle notices follow their interval (bounds, eases and that the command is the event: log entries 4, 15 and 110). -/
def Obligations.PowerLoops : Prop :=
  (∀ (s : State) (vin iin pin : BitVec 16),
    (s.loopsRun = false → exec (.cappingLoop vin iin pin) s = .next s)
    ∧ (s.loopsRun = true →
      let u := ((s.put pwrIn_VIN vin.toNat).put pwrIn_IIN iin.toNat).put pwrIn_PIN pin.toNat
      exec (.cappingLoop vin iin pin) s = .next ((u.setFcap (u.nextFcap pin.toNat)).capReview pin.toNat)))
  ∧ (∀ (s : State) (p : Nat),
      let f := s.get pwrStatus_FCAP
      s.nextFcap p = if 105 * s.capWatts < 100 * p then max (f - 200) 800 else if s.capWatts < p then max (f - 100) 800
        else if 100 * p < 95 * s.capWatts then min (f + 50) 2000 else f)
  ∧ (∀ (s : State) (pin iin : BitVec 16), s.mstate ≠ mOFF →
      let p := pin.toNat
      let stage := s.get pwrStatus_LIMSTAGE
      let o := exec (.limiterSample pin iin) s
      let u := s.modPwr fun q =>
        { q with
          limOver := if 2000 < p then some (q.limOver.getD s.now) else none
          limUnder := if p < 1900 then some (q.limUnder.getD s.now) else none }
      let under := ∃ t, u.power.limUnder = some t ∧ t + 10000 ≤ s.now
      let above := ∃ t, u.power.limOver = some t ∧ t + 10000000 ≤ s.now
      let long := s.power.limAt + 10000000 ≤ s.now
      (stage = 2 → (under → Settles o (u.limRelease 2)) ∧ (¬ under → long → o = .next u.dropRails) ∧ (¬ under → ¬ long → o = .next u))
      ∧ (stage ≠ 2 → 6250 < iin.toNat ∨ (stage = 1 ∧ long ∧ ¬ under) → Settles o (u.limEnter 2 p iin.toNat))
      ∧ (stage ≠ 2 → ¬ (6250 < iin.toNat ∨ (stage = 1 ∧ long ∧ ¬ under)) →
        (stage = 1 → (under → o = .next (u.limRelease 1)) ∧ (¬ under → o = .next u))
        ∧ (stage ≠ 1 → 2400 < p ∨ above → Settles o (u.limEnter 1 p iin.toNat))
        ∧ (stage ≠ 1 → ¬ (2400 < p ∨ above) → o = .next u.limEase)))
  ∧ (∀ (s : State) (cl : Fin 128),
      (∀ f, Tab.find s.power.volt cl = some f → exec (.voltageSettled cl) s =
        .next { s.put (pwrCl_FREQ cl) f with power := { s.power with volt := Tab.erase s.power.volt cl } })
      ∧ (Tab.find s.power.volt cl = none → exec (.voltageSettled cl) s = .next s))
  ∧ (∀ (s : State), s.loopsRun = true →
      let p := s.power
      let o := exec .throttleNoticeInterval s
      let quiet := p.thrLast + s.noticeNs ≤ s.now
      let old := ∃ e ∈ p.thrAt, e.2 + s.noticeNs ≤ s.now
      (p.thrAt = [] → p.thrOn = true → quiet → Settles o
        (({ s with power := { p with thrOn := false } }).logNotice 0x0202 0x3FE 0 (BitVec.ofNat 64 ((p.thrLast - p.thrFrom) / 1000000)) 0))
      ∧ (p.thrAt = [] → ¬ (p.thrOn = true ∧ quiet) → o = .next s)
      ∧ (p.thrAt ≠ [] → p.thrOn = true ∨ old → Settles o s.throttleNotice)
      ∧ (p.thrAt ≠ [] → ¬ (p.thrOn = true ∨ old) → o = .next s))

/-- Sensors and emergencies (R453-R457): a sample of 160 readings is held and shown, and one of another length is refused; the thermal loop
moves each f_therm by its rule; THERMTRIP latches the trip and removes the core rails; an input out of range does too, and the other
sources set and clear the overlay (the refusal of another length is the model's; readings: log entries 111 and 112). -/
def Obligations.SensorsAndEmergencies : Prop :=
  ∀ (s : State),
    (∀ temps inlet outlet flow,
      (temps.length ≠ 160 → exec (.sensorSample temps inlet outlet flow) s = .fault .illFormed)
      ∧ (temps.length = 160 →
        let u := ({ s with power := { s.power with temps := temps } }).tripReview
        let h := u.hottest
        (s.mstate = mOFF → exec (.sensorSample temps inlet outlet flow) s = .next u)
        ∧ (s.mstate ≠ mOFF → exec (.sensorSample temps inlet outlet flow) s = .next
            (((((u.put pwrTherm_TMAX (min 255 (u.junction h / 100).toNat)).put pwrTherm_SENSOR h).put pwrCoolant_INLET inlet.toNat).put
              pwrCoolant_OUTLET outlet.toNat).put pwrCoolant_FLOW flow.toNat))))
    ∧ (s.hottest < 160 ∧ ∀ i, i < 160 → s.junction i ≤ s.junction s.hottest)
    ∧ (s.loopsRun = true → s.power.temps ≠ [] →
        let u := (List.range 128).foldl (fun s n => s.put (pwrCl_FTHERM n) (nextFtherm (s.junction n) (s.get (pwrCl_FTHERM n)))) s
        let f := (List.range 16).foldl (fun m i => max m (u.junction (128 + i))) (u.junction 128)
        exec .thermalLoop s = .next (u.modPwr fun p => { p with fthermF := nextFtherm f p.fthermF }).retune)
    ∧ (∀ sensor : Fin 160, s.power.inRange = true → exec (.thermtrip sensor) s = .next (s.modPwr fun p =>
        { p with
          trip := true
          thermtripN := false
          temps := p.temps.set sensor (max 11500 (p.temps.getD sensor 11500)) }).dropRails)
    ∧ exec (.emergSet .outOfRange) s = .next ((if s.power.railsUp then s.dropRails else s.goOff).modPwr fun p =>
        { p with
          inRange := false
          pwrOk := false })
    ∧ (∀ src, src ≠ .outOfRange → s.mstate ≠ mOFF →
        (src = .overcurrent → s.get pwrStatus_LIMSTAGE = 2) → Settles (exec (.emergSet src) s) (s.emChange true src))
    ∧ (∀ src, s.mstate ≠ mOFF →
        (src = .overcurrent → s.get pwrStatus_LIMSTAGE ≠ 2) → Settles (exec (.emergClear src) s) (s.emChange false src))

/-- Low-power states and optics sleep (R444-R448): an idle unit enters the next deeper state that the tolerance enables and no other; a
wake makes it active, and a START that waited takes effect; the sleep mask takes effect at its count; a link that does not drain stays
in GLOST (that the command is the event is the model's choice: log entries 4 and 115). -/
def Obligations.LowPowerStates : Prop :=
  ∀ (s : State),
    (s.loopsRun = true → ∀ n : Fin 128,
      let st := s.get (pwrCl_STATE n)
      let idle := (s.clSt n = clIDLE ∨ s.clSt n = clHALTED) ∧ n.val ∉ s.power.startWait
      let o := exec (.unitIdleDwell (.cluster n)) s
      (st = 0 → idle ∨ s.clSt n = clPAUSED → s.allows 50 = true → o = .next (s.put (pwrCl_STATE n) 1))
      ∧ (st = 1 → idle → s.allows 15000 = true → o = .next (s.put (pwrCl_STATE n) 2))
      ∧ (s.clSt n = clRUNNING ∨ s.clSt n = clEXCEPTION ∨ (st = 1 ∧ s.clSt n = clPAUSED) ∨ s.get pwrTol_TOL < 50 → o = .next s))
    ∧ (s.loopsRun = true → ∀ k : Fin 8,
      let st := s.get (hbmStatus_STATE k)
      let o := exec (.unitIdleDwell (.stack k)) s
      (st = 1 → s.allows 500 = true → o = .next (s.put (hbmStatus_STATE k) 2))
      ∧ (st = 2 → s.allows 10000 = true → o = .next (s.put (hbmStatus_STATE k) 3))
      ∧ (st ≠ 1 → st ≠ 2 → o = .next s))
    ∧ (s.loopsRun = true → ∀ i : Fin 14, s.lnk i = lkGLOST → s.allows 100 = true → (s.outs.get OutPort.reset i).sending = none →
      exec (.unitIdleDwell (.link i)) s = .next (s.modLink i fun l => { l with idle := true }))
    ∧ (∀ n : Fin 128, Settles (exec (.unitWakeDone (.cluster n)) s) (s.clActive n).autoState)
    ∧ (∀ k : Fin 8, exec (.unitWakeDone (.stack k)) s = .next (s.wakeStack k))
    ∧ (∀ i : Fin 14, exec (.unitWakeDone (.link i)) s = .next (s.modLink i fun l => { l with idle := false }))
    ∧ (s.mstate ≠ mOFF → ((s.rd pwrLsleepAt).toNat ≤ s.now → Settles (exec .lsleepAtDue s) s.sleepTake)
        ∧ (s.now < (s.rd pwrLsleepAt).toNat → Settles (exec .lsleepAtDue s) s))
    ∧ (∀ link : Fin 14, let due := (s.link link).sleepDrain = true ∧ s.unack link ≠ 0
        (due → exec (.lsleepDrainTimeout link) s = .next ((s.modLink link fun l => { l with sleepDrain := false }).sleepRefused link))
        ∧ (¬ due → exec (.lsleepDrainTimeout link) s = .next s))

/-! ## From the input to READY -/

/-- The input, RST_N and PWR_OK (R389, R391, R454, R458, R461, R488, R489): RST_N and the loss of the input put the module in OFF with
only fuses, OTP and the image kept; it leaves OFF for BOOTING once PWR_OK is asserted and RST_N released, with the pins of SLOT_ID sampled
at that release (the reset point and readings: log entries 7 and 114). -/
def Sys2Proof.Claims.ResetAndInput : Prop :=
  ∀ (s : State),
    (s.power.inRange = false → exec .inputInRange s = .next { s with power := { s.power with inRange := true, phase := .hold } })
    ∧ (s.mstate = mOFF → s.power.inRange = true → s.power.thermtripN = true →
        exec .pwrOkAssert s = .next (s.modPwr fun p => { p with pwrOk := true, phase := .waitReset }).startUp)
    ∧ exec .powerRemoved s = .next (s.goOff.modPwr fun p =>
        { p with
          inRange := false
          railsUp := false
          pwrOk := false
          trip := false
          thermtripN := true
          cycle := false })
    ∧ exec .rstNAssert s = .next (s.goOff.modPwr fun p =>
        { p with
          rstN := false
          cycle := false
          phase := if p.pwrOk then .waitReset else .off }).tripReview
    ∧ (Canon s → let t := s.goOff
        t.mstate = mOFF ∧ t.mem = [] ∧ t.clusters = [] ∧ t.flash = s.flash ∧ t.sec.idkPriv = s.sec.idkPriv ∧ t.sec.ownerHash = s.sec.ownerHash
          ∧ t.sec.vrootHash = s.sec.vrootHash ∧ t.sec.akPriv = 0 ∧ t.rd secFuses = s.rd secFuses ∧ t.rd sysSerial = s.rd sysSerial
          ∧ t.power.trip = s.power.trip)
    ∧ (∀ pins, (s.power.rstN = true → exec (.rstNRelease pins) s = .next s)
        ∧ (s.power.rstN = false → exec (.rstNRelease pins) s =
            .next (s.modPwr fun p => { p with rstN := true, slotId := pins }).startUp))
    ∧ (Canon s → s.mstate = mOFF → s.power.inRange = true → s.power.pwrOk = true → s.power.rstN = true → s.power.thermtripN = true →
        s.power.cycle = false → s.startUp.mstate = mBOOTING ∧ s.startUp.power = { s.power with phase := .ramp })

/-- The power-up sequence (R421, R422, R436, R458, R459, R466, R468): SEC's self-tests, the verification of header, manifest and slots,
training, clearing and the cluster self-tests follow each other; the first failure fails boot with its RESULT, and a failed stack or
self-test fences the module (readings: log entry 113). -/
def Sys2Proof.Claims.BootSequence : Prop :=
  ∀ (s : State),
    (∀ k : Fin 7, s.power.phase = .ramp →
      let u := ((s.modPwr fun p => { p with railsUp := true, phase := .secBoot }).setProc .sec ⟨.running, []⟩).reseed
      (k.val = 0 → exec (.railsRamped k) s = .next u)
      ∧ (k.val ≠ 0 → exec (.railsRamped k) s =
          .next (((u.put secStatus_ETEST k).logEv 0x0301 0x3FE k 0 0 k).bootFail 1 0)))
    ∧ (s.power.phase = .secBoot →
      let m := s.pickManifest
      let other := decide (s.manifestResult (s.manifest (1 - m.2)) = 0)
      let r := ((s.put imgBoot_MCOPY m.2).setFlag imgBoot_OTHER other).bootSlots (s.manifest m.2) 4 0
      (s.headerOk = false → exec .secBootDone s = .next (s.bootFail 7 0))
      ∧ (s.headerOk = true → m.1 ≠ 0 → exec .secBootDone s = .next (s.bootFail m.1 0))
      ∧ (s.headerOk = true → m.1 = 0 → (∀ p, r.2 = some p → exec .secBootDone s = .next (r.1.bootFail 6 p))
          ∧ (r.2 = none → Settles (exec .secBootDone s) r.1.bootRelease)))
    ∧ (∀ refused failed chan, s.power.phase = .training → Settles (exec (.hbmTrainingDone refused failed chan) s)
        (((List.range 8).foldl (fun s k => s.stackTrained refused failed chan k) s).modPwr fun p =>
          { p with
            phase := .clearing
            cleared := false
            tested := false }))
    ∧ (∀ result, s.power.phase = .clearing → s.power.tested = false →
        let u := s.modPwr fun p => { p with tested := true }
        Settles (exec (.clusterSelftestDone result) s) (match result with
          | .pass => u.bootCleared
          | .clusterFail n => (u.fenceModule 1 n 0).bootCleared
          | .diePortFail p => (u.fenceModule 0 p 0).bootCleared))
    ∧ (s.power.phase ≠ .ramp → ∀ k, exec (.railsRamped k) s = .next s) ∧ (s.power.phase ≠ .secBoot → exec .secBootDone s = .next s)

/-- From BOOTING the module enters READY when every torus link whose peer's light has been present is in BISQUE or a later state, or 1 s after
the links were released, and not before; the links stay as they are (R460) (`BISQUE or later' is read so: log entry 79). -/
def Obligations.ReadyEntry : Prop :=
  ∀ (s : State), s.power.phase = .links → s.mstate = mBOOTING →
    let up := ∀ i, i < 12 → (s.link i).lit = true → lkBISQUE ≤ s.lnk i ∧ s.lnk i ≤ lkMISWIRED
    let due := up ∨ s.power.linksAt + 1000000000 ≤ s.now
    let u := ({ s with power := { s.power with phase := .done }, hbAt := s.cone }).setMstate mREADY
    (due → Settles (exec .readyEntry s) u.raiseSvn) ∧ (¬ due → exec .readyEntry s = .next s)
    ∧ (Canon s → u.mstate = mREADY ∧ u.links = s.links ∧ ∀ i, i < 14 → u.lnk i = s.lnk i)

/-! ## Single rules -/

/-- HBM addresses are spread over the stacks without loss (R359, R368): the place of an address is a stack, a pseudo-channel and an offset
inside it, and the patrol's inverse gives the address back; whatever the key, no two addresses share a place. -/
def Obligations.HbmPlacement : Prop :=
  ∀ (key : W64) (a : Nat), a < 0x8000000000 →
    let p := hbmPlace key a
    p.1 < 8 ∧ p.2.1 < 64 ∧ p.2.2 < 2 ^ 30 ∧ hbmUnplace key p.1 p.2.1 p.2.2 = a
    ∧ (∀ b, b < 0x8000000000 → hbmPlace key b = p → b = a)
    ∧ (∀ k c off, k < 8 → c < 64 → off < 2 ^ 30 → hbmPlace key (hbmUnplace key k c off) = (k, c, off))

/-- A conversion to E8M0 (R62): the floor of the binary logarithm plus 127, clamped to 0x00-0xFE, whatever the rounding and the sign; zero
gives 0x00 with the underflow flag, a NaN or an infinity 0xFF with the invalid flag. -/
def Sys2Proof.Claims.ScaleConversion : Prop :=
  ∀ (r : Rnd) (sat neg : Bool),
    (∀ (m : Nat) (e : Int), m ≠ 0 →
      let k := (Nat.log2 m : Int) + e + 127
      let c := convert 9 r sat (.fin neg m e)
      (k < 0 → c.code = 0) ∧ (0 ≤ k → k ≤ 0xFE → (c.code : Int) = k) ∧ (0xFE < k → c.code = 0xFE))
    ∧ (∀ e, (convert 9 r sat (.fin neg 0 e)).code = 0 ∧ (convert 9 r sat (.fin neg 0 e)).fl = fUF)
    ∧ ((convert 9 r sat (.inf neg)).code = 0xFF ∧ (convert 9 r sat (.inf neg)).fl = fNV)
    ∧ (∀ q, (convert 9 r sat (.nan q)).code = 0xFF ∧ (convert 9 r sat (.nan q)).fl = fNV)

/-- NaNs (R46): arithmetic and conversion give the canonical quiet NaN of the destination, whatever the NaN that went in; in FP64, FP32,
BF16 and FP16 a NaN whose top significand bit is clear is signalling, in E5M2, E4M3 and E8M0 none is; a signalling operand sets the
invalid flag. -/
def Sys2Proof.Claims.CanonicalNans : Prop :=
  (∀ x, x ∈ [(0, 0x7FF8000000000000), (1, 0x7FC00000), (2, 0x7FC0), (3, 0x7E00), (4, 0x7F), (5, 0x7F), (9, 0xFF)] →
    ∀ (r : Rnd) (sat q : Bool), (convert x.1 r sat (.nan q)).code = x.2)
  ∧ (∀ f c, f < 4 → isNanCode f c = true → (decodeNum f c = .nan true ↔ c.testBit ((fmtOf f).mw - 1) = false))
  ∧ (∀ f c, f ∈ [4, 5, 9] → decodeNum f c ≠ .nan true)
  ∧ (∀ (fa fd c : Nat) (r : Rnd) (sat : Bool), decodeNum fa c = .nan true → (convertCode fa fd r sat c).fl.testBit 0 = true)
  ∧ (∀ a b : ExNum, a.isSnan = true ∨ b.isSnan = true →
      (nAdd a b).fl = fNV ∧ (nMul a b).fl = fNV ∧ (nDiv a b).fl = fNV ∧ (∀ mx num, (nMinMax mx num a b).fl = fNV)
      ∧ (∀ c, (nFma a b c).fl = fNV ∧ (nFma c a b).fl = fNV))
  ∧ (nSqrt (.nan true)).fl = fNV

/-- NaNs and infinities in formats without them (R47): a NaN gives +0 in E3M2, E2M3 and E2M1 and 0 in an integer format, with the invalid
flag; an infinity gives the signed largest finite value, or under SAT = 0 in E4M3 the NaN, with the overflow flag, and in an integer
format the signed largest or smallest integer with the invalid flag alone. -/
def Sys2Proof.Claims.SpecialConversions : Prop :=
  ∀ (r : Rnd) (sat : Bool),
    (∀ f q, f ∈ [6, 7, 8, 10, 11, 12, 13] → (convert f r sat (.nan q)).code = 0 ∧ (convert f r sat (.nan q)).fl = fNV)
    ∧ (∀ f neg, f ∈ [5, 6, 7, 8] → (convert f r sat (.inf neg)).fl = fOF
        ∧ (sat = true ∨ f ≠ 5 → (convert f r sat (.inf neg)).code = (if neg then 2 ^ (fmtBits f - 1) else 0) + maxCode (fmtOf f)))
    ∧ (∀ neg, (convert 5 r false (.inf neg)).code = 0x7F)
    ∧ ∀ f neg, f ∈ [10, 11, 12, 13] → (convert f r sat (.inf neg)).fl = fNV
        ∧ (convert f r sat (.inf neg)).code = if neg then 2 ^ (fmtBits f - 1) else 2 ^ (fmtBits f - 1) - 1

/-- The largest finite values of the narrow formats, and where they overflow under ties to even (R60): a value of magnitude `m * 2^(i - k)`
sets the overflow flag exactly from FP16's 65,520, E5M2's 61,440, above E4M3's 464, and from E3M2's 30, E2M3's 7.75 and E2M1's 7. -/
def Sys2Proof.Claims.OverflowThresholds : Prop :=
  (∀ (sat neg : Bool) (m i k : Nat),
    let ovf := fun (f : Nat) => (convert f .rne sat (.fin neg m ((i : Int) - k))).fl.testBit 2 = true
    (ovf 3 ↔ 65520 * 2 ^ k ≤ m * 2 ^ i) ∧ (ovf 4 ↔ 61440 * 2 ^ k ≤ m * 2 ^ i) ∧ (ovf 5 ↔ 464 * 2 ^ k < m * 2 ^ i)
    ∧ (ovf 6 ↔ 30 * 2 ^ k ≤ m * 2 ^ i) ∧ (ovf 7 ↔ 31 * 2 ^ k ≤ 4 * (m * 2 ^ i)) ∧ (ovf 8 ↔ 7 * 2 ^ k ≤ m * 2 ^ i))
  ∧ ∀ x, x ∈ [(3, 2047, 5), (4, 7, 13), (5, 14, 5), (6, 7, 2), (7, 15, -1), (8, 3, 1)] →
      decodeNum x.1 (maxCode (fmtOf x.1)) = .fin false x.2.1 x.2.2
      ∧ ∀ c n m e, c < 2 ^ fmtBits x.1 → decodeNum x.1 c = .fin n m e → nCmp (.fin false m e) (.fin false x.2.1 x.2.2) ≤ 0

/-- The submit engine knows the CMD messages of the last AGE_LIMIT + 1 ms, 256 of them at most: a duplicate is not queued again, and is
answered with a copy of its CMD_ACK where the original has completed, else not at all (R401) (when a message is forgotten is read so: log
entry 118). -/
def Obligations.DuplicateCommands : Prop :=
  ∀ (s : State) (mid : Nat) (p : Pkt),
    let same := fun (e : SeenCmd) => s.now ≤ e.since + s.ageLimit + 1000000 ∧ e.src = p.src.toNat ∧ e.tag = p.coll ∧ e.pseq = p.chunk
    let live := s.mgmtSeen.filter fun e => s.now ≤ e.since + s.ageLimit + 1000000
    (∀ e pre post, s.mgmtSeen = pre ++ e :: post → same e → (∀ x ∈ pre, ¬ same x) →
      (∀ a b, e.ack = some (a, b) → s.mgmtSubmit mid p = s.cmdAck p mid a b) ∧ (e.ack = none → s.mgmtSubmit mid p = s))
    ∧ ((∀ e ∈ s.mgmtSeen, ¬ same e) → s.mgmtSubmit mid p =
        ({ s with mgmtSeen := ((⟨p.src.toNat, p.coll, p.chunk, s.now, none⟩ : SeenCmd) :: live).take 256 }).submit
          ((p.payload.getD 2 0).toNat % 64) ⟨words64 (p.payload.drop 16), ⟨mid, some p⟩⟩)

/-! ## Statements of several parts -/

/-- The end of an instruction: what a completion leaves unchanged, and the completion record that it writes to the ring (R95, R96). -/
def Obligations.RetireAndRecord : Prop := Sys2Proof.Claims.RetireLeavesRest ∧ Sys2Proof.Claims.CompletionRecord

/-- Branch targets that may not be taken, the waits of the CX class, and the mode instructions (R78, R97, R98). -/
def Obligations.CxBranchesWaitsAndModes : Prop := Sys2Proof.Claims.CxBranchFaults ∧ Sys2Proof.Claims.CxWaitsAndModes

/-- The VX instructions that write predicates, store, or reduce (R80, R100-R102). -/
def Obligations.VxPredicatesStoreAndReduce : Prop := Sys2Proof.Claims.VxPredicates ∧ Sys2Proof.Claims.VxStoreAndReduce

/-- The digest class: its instructions, and what a fold is (R107, R345, R346). -/
def Obligations.DigestClass : Prop := Sys2Proof.Claims.DxCompletes ∧ Sys2Proof.Claims.DigestFold

/-- The fused reductions and gathers issue their collectives (R126, R129). -/
def Obligations.FusedCollectivesIssue : Prop := Sys2Proof.Claims.FusedReductionsIssue ∧ Sys2Proof.Claims.FusedGathersIssue

/-- The commands of CL.CMD, the states in which they act, and pauses (R92, R94, R114, R115). -/
def Obligations.ClusterControl : Prop := Sys2Proof.Claims.ClusterCommands ∧ Sys2Proof.Claims.ClusterCommandStates ∧ Sys2Proof.Claims.CccAndPauses

/-- The commands that are single register writes: of the links, of the fabric units, and of SEC, the image engine and the access tables. -/
def Obligations.RegisterCommands : Prop := Sys2Proof.Claims.LinkRegisterCommands ∧ Sys2Proof.Claims.FabricRegisterCommands ∧ Sys2Proof.Claims.SecImageAccCommands

/-- Link control frames, and the life of a link (R196-R205, R221). -/
def Obligations.LinkControl : Prop := Sys2Proof.Claims.LinkControlFrames ∧ Sys2Proof.Claims.LinkLifecycle

/-- How packets enter the router: from links, service ports and local injection points. -/
def Obligations.EnteringTheRouter : Prop := Sys2Proof.Claims.PacketsEnter ∧ Sys2Proof.Claims.InjectionOrder

/-- How packets leave the router: the grant, and the end of a transmission. -/
def Obligations.LeavingTheRouter : Prop := Sys2Proof.Claims.OutputGrants ∧ Sys2Proof.Claims.TransmissionEnds

/-- Requests at their target, and the sequence filter (R215, R296). -/
def Obligations.RequestsAndFilter : Prop := Sys2Proof.Claims.RequestsServed ∧ Sys2Proof.Claims.FilterWindow

/-- Answers, messages, management packets and CONE_SYNC. -/
def Obligations.MessagesAndConeSync : Prop := Sys2Proof.Claims.AnswersAndMessages ∧ Sys2Proof.Claims.ConeSyncCommands

/-- ROUTE_UPD messages, the banks of the route table, and the flip. -/
def Obligations.RouteTables : Prop := Sys2Proof.Claims.RouteUpdates ∧ Sys2Proof.Claims.RouteBanks

/-- Fault notes, the declaration of a loss, and retransmission. -/
def Obligations.FaultsAndLoss : Prop := Sys2Proof.Claims.FaultNotes ∧ Sys2Proof.Claims.LossDeclared ∧ Sys2Proof.Claims.Retransmission

/-- Alarms of the cone count, the HBM controllers, and the end of memory and bitmap clearing. -/
def Obligations.AlarmsHbmAndClearing : Prop := Sys2Proof.Claims.ConeAlarms ∧ Sys2Proof.Claims.HbmControllers ∧ Sys2Proof.Claims.ClearingEnds

/-- BIND, UNBIND, UNFENCE and LOAD_PROGRAM. -/
def Obligations.JobBinding : Prop := Sys2Proof.Claims.BindAndUnbind ∧ Sys2Proof.Claims.ProgramLoads

/-- The commands that run, stop, snapshot and restore a job. -/
def Obligations.JobControl : Prop := Sys2Proof.Claims.RunCommands ∧ Sys2Proof.Claims.SnapshotAndRestore

/-- The commands that SEC serves, and firmware activation. -/
def Obligations.AttestationAndFirmware : Prop := Sys2Proof.Claims.SecServices ∧ Sys2Proof.Claims.FirmwareActivation

/-- Watchdogs, restarts and the load window; what SEC does by itself. -/
def Obligations.ProcessorAndSecEvents : Prop := Sys2Proof.Claims.ProcessorEvents ∧ Sys2Proof.Claims.SecEvents

/-- The input, RST_N and PWR_OK, and the power-up sequence. -/
def Obligations.PowerUp : Prop := Sys2Proof.Claims.ResetAndInput ∧ Sys2Proof.Claims.BootSequence

/-- Conversion into the narrow formats: canonical NaNs (R46), special values (R47), overflow thresholds (R60), and E8M0 (R62). -/
def Obligations.ConversionRules : Prop := Sys2Proof.Claims.CanonicalNans ∧ Sys2Proof.Claims.SpecialConversions ∧ Sys2Proof.Claims.OverflowThresholds ∧ Sys2Proof.Claims.ScaleConversion
end

