-- ==== Sys2Proof/Laws/State.lean ====
section
/-!
SUPPORT. Laws/State.lean: for each update of the state, what every field holds after it.
-/
namespace Sys2Proof.Machine

variable (s : State)

/-! ### State.wr -/

@[simp] theorem State.wr_pending (k : Nat) (v : W64) : (s.wr k v).pending = s.pending := rfl
@[simp] theorem State.wr_free (k : Nat) (v : W64) : (s.wr k v).free = s.free := rfl
@[simp] theorem State.wr_regs (k : Nat) (v : W64) : (s.wr k v).regs = s.regs.set (regReset k) k v := rfl
@[simp] theorem State.wr_cone (k : Nat) (v : W64) : (s.wr k v).cone = s.cone := rfl
@[simp] theorem State.wr_coneFrac (k : Nat) (v : W64) : (s.wr k v).coneFrac = s.coneFrac := rfl
@[simp] theorem State.wr_coneSlew (k : Nat) (v : W64) : (s.wr k v).coneSlew = s.coneSlew := rfl
@[simp] theorem State.wr_coneGood (k : Nat) (v : W64) : (s.wr k v).coneGood = s.coneGood := rfl
@[simp] theorem State.wr_clusters (k : Nat) (v : W64) : (s.wr k v).clusters = s.clusters := rfl
@[simp] theorem State.wr_mem (k : Nat) (v : W64) : (s.wr k v).mem = s.mem := rfl
@[simp] theorem State.wr_memErr (k : Nat) (v : W64) : (s.wr k v).memErr = s.memErr := rfl
@[simp] theorem State.wr_poolMem (k : Nat) (v : W64) : (s.wr k v).poolMem = s.poolMem := rfl
@[simp] theorem State.wr_flash (k : Nat) (v : W64) : (s.wr k v).flash = s.flash := rfl
@[simp] theorem State.wr_hbmKey (k : Nat) (v : W64) : (s.wr k v).hbmKey = s.hbmKey := rfl
@[simp] theorem State.wr_acc (k : Nat) (v : W64) : (s.wr k v).acc = s.acc := rfl
@[simp] theorem State.wr_tblErr (k : Nat) (v : W64) : (s.wr k v).tblErr = s.tblErr := rfl
@[simp] theorem State.wr_accWait (k : Nat) (v : W64) : (s.wr k v).accWait = s.accWait := rfl
@[simp] theorem State.wr_bankA (k : Nat) (v : W64) : (s.wr k v).bankA = s.bankA := rfl
@[simp] theorem State.wr_bankB (k : Nat) (v : W64) : (s.wr k v).bankB = s.bankB := rfl
@[simp] theorem State.wr_bankErr (k : Nat) (v : W64) : (s.wr k v).bankErr = s.bankErr := rfl
@[simp] theorem State.wr_cellErr (k : Nat) (v : W64) : (s.wr k v).cellErr = s.cellErr := rfl
@[simp] theorem State.wr_tagErr (k : Nat) (v : W64) : (s.wr k v).tagErr = s.tagErr := rfl
@[simp] theorem State.wr_ctxErr (k : Nat) (v : W64) : (s.wr k v).ctxErr = s.ctxErr := rfl
@[simp] theorem State.wr_dieErr (k : Nat) (v : W64) : (s.wr k v).dieErr = s.dieErr := rfl
@[simp] theorem State.wr_meshErr (k : Nat) (v : W64) : (s.wr k v).meshErr = s.meshErr := rfl
@[simp] theorem State.wr_flipMax (k : Nat) (v : W64) : (s.wr k v).flipMax = s.flipMax := rfl
@[simp] theorem State.wr_topo (k : Nat) (v : W64) : (s.wr k v).topo = s.topo := rfl
@[simp] theorem State.wr_plans (k : Nat) (v : W64) : (s.wr k v).plans = s.plans := rfl
@[simp] theorem State.wr_poisoned (k : Nat) (v : W64) : (s.wr k v).poisoned = s.poisoned := rfl
@[simp] theorem State.wr_colls (k : Nat) (v : W64) : (s.wr k v).colls = s.colls := rfl
@[simp] theorem State.wr_ctx (k : Nat) (v : W64) : (s.wr k v).ctx = s.ctx := rfl
@[simp] theorem State.wr_idDone (k : Nat) (v : W64) : (s.wr k v).idDone = s.idDone := rfl
@[simp] theorem State.wr_landings (k : Nat) (v : W64) : (s.wr k v).landings = s.landings := rfl
@[simp] theorem State.wr_kilnMiss (k : Nat) (v : W64) : (s.wr k v).kilnMiss = s.kilnMiss := rfl
@[simp] theorem State.wr_links (k : Nat) (v : W64) : (s.wr k v).links = s.links := rfl
@[simp] theorem State.wr_arrivals (k : Nat) (v : W64) : (s.wr k v).arrivals = s.arrivals := rfl
@[simp] theorem State.wr_nextBody (k : Nat) (v : W64) : (s.wr k v).nextBody = s.nextBody := rfl
@[simp] theorem State.wr_voqs (k : Nat) (v : W64) : (s.wr k v).voqs = s.voqs := rfl
@[simp] theorem State.wr_voqHwm (k : Nat) (v : W64) : (s.wr k v).voqHwm = s.voqHwm := rfl
@[simp] theorem State.wr_outs (k : Nat) (v : W64) : (s.wr k v).outs = s.outs := rfl
@[simp] theorem State.wr_delivered (k : Nat) (v : W64) : (s.wr k v).delivered = s.delivered := rfl
@[simp] theorem State.wr_injq (k : Nat) (v : W64) : (s.wr k v).injq = s.injq := rfl
@[simp] theorem State.wr_throttles (k : Nat) (v : W64) : (s.wr k v).throttles = s.throttles := rfl
@[simp] theorem State.wr_psq (k : Nat) (v : W64) : (s.wr k v).psq = s.psq := rfl
@[simp] theorem State.wr_requests (k : Nat) (v : W64) : (s.wr k v).requests = s.requests := rfl
@[simp] theorem State.wr_filter (k : Nat) (v : W64) : (s.wr k v).filter = s.filter := rfl
@[simp] theorem State.wr_recov (k : Nat) (v : W64) : (s.wr k v).recov = s.recov := rfl
@[simp] theorem State.wr_testCnt (k : Nat) (v : W64) : (s.wr k v).testCnt = s.testCnt := rfl
@[simp] theorem State.wr_testBad (k : Nat) (v : W64) : (s.wr k v).testBad = s.testBad := rfl
@[simp] theorem State.wr_spreadBad (k : Nat) (v : W64) : (s.wr k v).spreadBad = s.spreadBad := rfl
@[simp] theorem State.wr_cells (k : Nat) (v : W64) : (s.wr k v).cells = s.cells := rfl
@[simp] theorem State.wr_suspects (k : Nat) (v : W64) : (s.wr k v).suspects = s.suspects := rfl
@[simp] theorem State.wr_notes (k : Nat) (v : W64) : (s.wr k v).notes = s.notes := rfl
@[simp] theorem State.wr_rseq (k : Nat) (v : W64) : (s.wr k v).rseq = s.rseq := rfl
@[simp] theorem State.wr_mirror (k : Nat) (v : W64) : (s.wr k v).mirror = s.mirror := rfl
@[simp] theorem State.wr_stepTable (k : Nat) (v : W64) : (s.wr k v).stepTable = s.stepTable := rfl
@[simp] theorem State.wr_queues (k : Nat) (v : W64) : (s.wr k v).queues = s.queues := rfl
@[simp] theorem State.wr_subWords (k : Nat) (v : W64) : (s.wr k v).subWords = s.subWords := rfl
@[simp] theorem State.wr_qOff (k : Nat) (v : W64) : (s.wr k v).qOff = s.qOff := rfl
@[simp] theorem State.wr_runs (k : Nat) (v : W64) : (s.wr k v).runs = s.runs := rfl
@[simp] theorem State.wr_rrq (k : Nat) (v : W64) : (s.wr k v).rrq = s.rrq := rfl
@[simp] theorem State.wr_mgmtSeen (k : Nat) (v : W64) : (s.wr k v).mgmtSeen = s.mgmtSeen := rfl
@[simp] theorem State.wr_ringWait (k : Nat) (v : W64) : (s.wr k v).ringWait = s.ringWait := rfl
@[simp] theorem State.wr_ringSeq (k : Nat) (v : W64) : (s.wr k v).ringSeq = s.ringSeq := rfl
@[simp] theorem State.wr_hbAt (k : Nat) (v : W64) : (s.wr k v).hbAt = s.hbAt := rfl
@[simp] theorem State.wr_orphanStop (k : Nat) (v : W64) : (s.wr k v).orphanStop = s.orphanStop := rfl
@[simp] theorem State.wr_started (k : Nat) (v : W64) : (s.wr k v).started = s.started := rfl
@[simp] theorem State.wr_procs (k : Nat) (v : W64) : (s.wr k v).procs = s.procs := rfl
@[simp] theorem State.wr_defers (k : Nat) (v : W64) : (s.wr k v).defers = s.defers := rfl
@[simp] theorem State.wr_deferRuns (k : Nat) (v : W64) : (s.wr k v).deferRuns = s.deferRuns := rfl
@[simp] theorem State.wr_clWait (k : Nat) (v : W64) : (s.wr k v).clWait = s.clWait := rfl
@[simp] theorem State.wr_imgTimer (k : Nat) (v : W64) : (s.wr k v).imgTimer = s.imgTimer := rfl
@[simp] theorem State.wr_imgAllow (k : Nat) (v : W64) : (s.wr k v).imgAllow = s.imgAllow := rfl
@[simp] theorem State.wr_emergClearAt (k : Nat) (v : W64) : (s.wr k v).emergClearAt = s.emergClearAt := rfl
@[simp] theorem State.wr_logQ (k : Nat) (v : W64) : (s.wr k v).logQ = s.logQ := rfl
@[simp] theorem State.wr_logDrops (k : Nat) (v : W64) : (s.wr k v).logDrops = s.logDrops := rfl
@[simp] theorem State.wr_held32 (k : Nat) (v : W64) : (s.wr k v).held32 = s.held32 := rfl
@[simp] theorem State.wr_bus (k : Nat) (v : W64) : (s.wr k v).bus = s.bus := rfl
@[simp] theorem State.wr_origin (k : Nat) (v : W64) : (s.wr k v).origin = s.origin := rfl
@[simp] theorem State.wr_layers (k : Nat) (v : W64) : (s.wr k v).layers = s.layers := rfl
@[simp] theorem State.wr_hbm (k : Nat) (v : W64) : (s.wr k v).hbm = s.hbm := rfl
@[simp] theorem State.wr_sec (k : Nat) (v : W64) : (s.wr k v).sec = s.sec := rfl
@[simp] theorem State.wr_mgmt (k : Nat) (v : W64) : (s.wr k v).mgmt = s.mgmt := rfl
@[simp] theorem State.wr_img (k : Nat) (v : W64) : (s.wr k v).img = s.img := rfl
@[simp] theorem State.wr_power (k : Nat) (v : W64) : (s.wr k v).power = s.power := rfl
@[simp] theorem State.wr_fenceReq (k : Nat) (v : W64) : (s.wr k v).fenceReq = s.fenceReq := rfl

/-! ### State.put -/

@[simp] theorem State.put_pending (f : Field) (v : Nat) : (s.put f v).pending = s.pending := rfl
@[simp] theorem State.put_free (f : Field) (v : Nat) : (s.put f v).free = s.free := rfl
@[simp] theorem State.put_cone (f : Field) (v : Nat) : (s.put f v).cone = s.cone := rfl
@[simp] theorem State.put_coneFrac (f : Field) (v : Nat) : (s.put f v).coneFrac = s.coneFrac := rfl
@[simp] theorem State.put_coneSlew (f : Field) (v : Nat) : (s.put f v).coneSlew = s.coneSlew := rfl
@[simp] theorem State.put_coneGood (f : Field) (v : Nat) : (s.put f v).coneGood = s.coneGood := rfl
@[simp] theorem State.put_clusters (f : Field) (v : Nat) : (s.put f v).clusters = s.clusters := rfl
@[simp] theorem State.put_mem (f : Field) (v : Nat) : (s.put f v).mem = s.mem := rfl
@[simp] theorem State.put_memErr (f : Field) (v : Nat) : (s.put f v).memErr = s.memErr := rfl
@[simp] theorem State.put_poolMem (f : Field) (v : Nat) : (s.put f v).poolMem = s.poolMem := rfl
@[simp] theorem State.put_flash (f : Field) (v : Nat) : (s.put f v).flash = s.flash := rfl
@[simp] theorem State.put_hbmKey (f : Field) (v : Nat) : (s.put f v).hbmKey = s.hbmKey := rfl
@[simp] theorem State.put_acc (f : Field) (v : Nat) : (s.put f v).acc = s.acc := rfl
@[simp] theorem State.put_tblErr (f : Field) (v : Nat) : (s.put f v).tblErr = s.tblErr := rfl
@[simp] theorem State.put_accWait (f : Field) (v : Nat) : (s.put f v).accWait = s.accWait := rfl
@[simp] theorem State.put_bankA (f : Field) (v : Nat) : (s.put f v).bankA = s.bankA := rfl
@[simp] theorem State.put_bankB (f : Field) (v : Nat) : (s.put f v).bankB = s.bankB := rfl
@[simp] theorem State.put_bankErr (f : Field) (v : Nat) : (s.put f v).bankErr = s.bankErr := rfl
@[simp] theorem State.put_cellErr (f : Field) (v : Nat) : (s.put f v).cellErr = s.cellErr := rfl
@[simp] theorem State.put_tagErr (f : Field) (v : Nat) : (s.put f v).tagErr = s.tagErr := rfl
@[simp] theorem State.put_ctxErr (f : Field) (v : Nat) : (s.put f v).ctxErr = s.ctxErr := rfl
@[simp] theorem State.put_dieErr (f : Field) (v : Nat) : (s.put f v).dieErr = s.dieErr := rfl
@[simp] theorem State.put_meshErr (f : Field) (v : Nat) : (s.put f v).meshErr = s.meshErr := rfl
@[simp] theorem State.put_flipMax (f : Field) (v : Nat) : (s.put f v).flipMax = s.flipMax := rfl
@[simp] theorem State.put_topo (f : Field) (v : Nat) : (s.put f v).topo = s.topo := rfl
@[simp] theorem State.put_plans (f : Field) (v : Nat) : (s.put f v).plans = s.plans := rfl
@[simp] theorem State.put_poisoned (f : Field) (v : Nat) : (s.put f v).poisoned = s.poisoned := rfl
@[simp] theorem State.put_colls (f : Field) (v : Nat) : (s.put f v).colls = s.colls := rfl
@[simp] theorem State.put_ctx (f : Field) (v : Nat) : (s.put f v).ctx = s.ctx := rfl
@[simp] theorem State.put_idDone (f : Field) (v : Nat) : (s.put f v).idDone = s.idDone := rfl
@[simp] theorem State.put_landings (f : Field) (v : Nat) : (s.put f v).landings = s.landings := rfl
@[simp] theorem State.put_kilnMiss (f : Field) (v : Nat) : (s.put f v).kilnMiss = s.kilnMiss := rfl
@[simp] theorem State.put_links (f : Field) (v : Nat) : (s.put f v).links = s.links := rfl
@[simp] theorem State.put_arrivals (f : Field) (v : Nat) : (s.put f v).arrivals = s.arrivals := rfl
@[simp] theorem State.put_nextBody (f : Field) (v : Nat) : (s.put f v).nextBody = s.nextBody := rfl
@[simp] theorem State.put_voqs (f : Field) (v : Nat) : (s.put f v).voqs = s.voqs := rfl
@[simp] theorem State.put_voqHwm (f : Field) (v : Nat) : (s.put f v).voqHwm = s.voqHwm := rfl
@[simp] theorem State.put_outs (f : Field) (v : Nat) : (s.put f v).outs = s.outs := rfl
@[simp] theorem State.put_delivered (f : Field) (v : Nat) : (s.put f v).delivered = s.delivered := rfl
@[simp] theorem State.put_injq (f : Field) (v : Nat) : (s.put f v).injq = s.injq := rfl
@[simp] theorem State.put_throttles (f : Field) (v : Nat) : (s.put f v).throttles = s.throttles := rfl
@[simp] theorem State.put_psq (f : Field) (v : Nat) : (s.put f v).psq = s.psq := rfl
@[simp] theorem State.put_requests (f : Field) (v : Nat) : (s.put f v).requests = s.requests := rfl
@[simp] theorem State.put_filter (f : Field) (v : Nat) : (s.put f v).filter = s.filter := rfl
@[simp] theorem State.put_recov (f : Field) (v : Nat) : (s.put f v).recov = s.recov := rfl
@[simp] theorem State.put_testCnt (f : Field) (v : Nat) : (s.put f v).testCnt = s.testCnt := rfl
@[simp] theorem State.put_testBad (f : Field) (v : Nat) : (s.put f v).testBad = s.testBad := rfl
@[simp] theorem State.put_spreadBad (f : Field) (v : Nat) : (s.put f v).spreadBad = s.spreadBad := rfl
@[simp] theorem State.put_cells (f : Field) (v : Nat) : (s.put f v).cells = s.cells := rfl
@[simp] theorem State.put_suspects (f : Field) (v : Nat) : (s.put f v).suspects = s.suspects := rfl
@[simp] theorem State.put_notes (f : Field) (v : Nat) : (s.put f v).notes = s.notes := rfl
@[simp] theorem State.put_rseq (f : Field) (v : Nat) : (s.put f v).rseq = s.rseq := rfl
@[simp] theorem State.put_mirror (f : Field) (v : Nat) : (s.put f v).mirror = s.mirror := rfl
@[simp] theorem State.put_stepTable (f : Field) (v : Nat) : (s.put f v).stepTable = s.stepTable := rfl
@[simp] theorem State.put_queues (f : Field) (v : Nat) : (s.put f v).queues = s.queues := rfl
@[simp] theorem State.put_subWords (f : Field) (v : Nat) : (s.put f v).subWords = s.subWords := rfl
@[simp] theorem State.put_qOff (f : Field) (v : Nat) : (s.put f v).qOff = s.qOff := rfl
@[simp] theorem State.put_runs (f : Field) (v : Nat) : (s.put f v).runs = s.runs := rfl
@[simp] theorem State.put_rrq (f : Field) (v : Nat) : (s.put f v).rrq = s.rrq := rfl
@[simp] theorem State.put_mgmtSeen (f : Field) (v : Nat) : (s.put f v).mgmtSeen = s.mgmtSeen := rfl
@[simp] theorem State.put_ringWait (f : Field) (v : Nat) : (s.put f v).ringWait = s.ringWait := rfl
@[simp] theorem State.put_ringSeq (f : Field) (v : Nat) : (s.put f v).ringSeq = s.ringSeq := rfl
@[simp] theorem State.put_hbAt (f : Field) (v : Nat) : (s.put f v).hbAt = s.hbAt := rfl
@[simp] theorem State.put_orphanStop (f : Field) (v : Nat) : (s.put f v).orphanStop = s.orphanStop := rfl
@[simp] theorem State.put_started (f : Field) (v : Nat) : (s.put f v).started = s.started := rfl
@[simp] theorem State.put_procs (f : Field) (v : Nat) : (s.put f v).procs = s.procs := rfl
@[simp] theorem State.put_defers (f : Field) (v : Nat) : (s.put f v).defers = s.defers := rfl
@[simp] theorem State.put_deferRuns (f : Field) (v : Nat) : (s.put f v).deferRuns = s.deferRuns := rfl
@[simp] theorem State.put_clWait (f : Field) (v : Nat) : (s.put f v).clWait = s.clWait := rfl
@[simp] theorem State.put_imgTimer (f : Field) (v : Nat) : (s.put f v).imgTimer = s.imgTimer := rfl
@[simp] theorem State.put_imgAllow (f : Field) (v : Nat) : (s.put f v).imgAllow = s.imgAllow := rfl
@[simp] theorem State.put_emergClearAt (f : Field) (v : Nat) : (s.put f v).emergClearAt = s.emergClearAt := rfl
@[simp] theorem State.put_logQ (f : Field) (v : Nat) : (s.put f v).logQ = s.logQ := rfl
@[simp] theorem State.put_logDrops (f : Field) (v : Nat) : (s.put f v).logDrops = s.logDrops := rfl
@[simp] theorem State.put_held32 (f : Field) (v : Nat) : (s.put f v).held32 = s.held32 := rfl
@[simp] theorem State.put_bus (f : Field) (v : Nat) : (s.put f v).bus = s.bus := rfl
@[simp] theorem State.put_origin (f : Field) (v : Nat) : (s.put f v).origin = s.origin := rfl
@[simp] theorem State.put_layers (f : Field) (v : Nat) : (s.put f v).layers = s.layers := rfl
@[simp] theorem State.put_hbm (f : Field) (v : Nat) : (s.put f v).hbm = s.hbm := rfl
@[simp] theorem State.put_sec (f : Field) (v : Nat) : (s.put f v).sec = s.sec := rfl
@[simp] theorem State.put_mgmt (f : Field) (v : Nat) : (s.put f v).mgmt = s.mgmt := rfl
@[simp] theorem State.put_img (f : Field) (v : Nat) : (s.put f v).img = s.img := rfl
@[simp] theorem State.put_power (f : Field) (v : Nat) : (s.put f v).power = s.power := rfl
@[simp] theorem State.put_fenceReq (f : Field) (v : Nat) : (s.put f v).fenceReq = s.fenceReq := rfl

/-! ### State.bump -/

@[simp] theorem State.bump_pending (f : Field) (n : Nat) : (s.bump f n).pending = s.pending := rfl
@[simp] theorem State.bump_free (f : Field) (n : Nat) : (s.bump f n).free = s.free := rfl
@[simp] theorem State.bump_cone (f : Field) (n : Nat) : (s.bump f n).cone = s.cone := rfl
@[simp] theorem State.bump_coneFrac (f : Field) (n : Nat) : (s.bump f n).coneFrac = s.coneFrac := rfl
@[simp] theorem State.bump_coneSlew (f : Field) (n : Nat) : (s.bump f n).coneSlew = s.coneSlew := rfl
@[simp] theorem State.bump_coneGood (f : Field) (n : Nat) : (s.bump f n).coneGood = s.coneGood := rfl
@[simp] theorem State.bump_clusters (f : Field) (n : Nat) : (s.bump f n).clusters = s.clusters := rfl
@[simp] theorem State.bump_mem (f : Field) (n : Nat) : (s.bump f n).mem = s.mem := rfl
@[simp] theorem State.bump_memErr (f : Field) (n : Nat) : (s.bump f n).memErr = s.memErr := rfl
@[simp] theorem State.bump_poolMem (f : Field) (n : Nat) : (s.bump f n).poolMem = s.poolMem := rfl
@[simp] theorem State.bump_flash (f : Field) (n : Nat) : (s.bump f n).flash = s.flash := rfl
@[simp] theorem State.bump_hbmKey (f : Field) (n : Nat) : (s.bump f n).hbmKey = s.hbmKey := rfl
@[simp] theorem State.bump_acc (f : Field) (n : Nat) : (s.bump f n).acc = s.acc := rfl
@[simp] theorem State.bump_tblErr (f : Field) (n : Nat) : (s.bump f n).tblErr = s.tblErr := rfl
@[simp] theorem State.bump_accWait (f : Field) (n : Nat) : (s.bump f n).accWait = s.accWait := rfl
@[simp] theorem State.bump_bankA (f : Field) (n : Nat) : (s.bump f n).bankA = s.bankA := rfl
@[simp] theorem State.bump_bankB (f : Field) (n : Nat) : (s.bump f n).bankB = s.bankB := rfl
@[simp] theorem State.bump_bankErr (f : Field) (n : Nat) : (s.bump f n).bankErr = s.bankErr := rfl
@[simp] theorem State.bump_cellErr (f : Field) (n : Nat) : (s.bump f n).cellErr = s.cellErr := rfl
@[simp] theorem State.bump_tagErr (f : Field) (n : Nat) : (s.bump f n).tagErr = s.tagErr := rfl
@[simp] theorem State.bump_ctxErr (f : Field) (n : Nat) : (s.bump f n).ctxErr = s.ctxErr := rfl
@[simp] theorem State.bump_dieErr (f : Field) (n : Nat) : (s.bump f n).dieErr = s.dieErr := rfl
@[simp] theorem State.bump_meshErr (f : Field) (n : Nat) : (s.bump f n).meshErr = s.meshErr := rfl
@[simp] theorem State.bump_flipMax (f : Field) (n : Nat) : (s.bump f n).flipMax = s.flipMax := rfl
@[simp] theorem State.bump_topo (f : Field) (n : Nat) : (s.bump f n).topo = s.topo := rfl
@[simp] theorem State.bump_plans (f : Field) (n : Nat) : (s.bump f n).plans = s.plans := rfl
@[simp] theorem State.bump_poisoned (f : Field) (n : Nat) : (s.bump f n).poisoned = s.poisoned := rfl
@[simp] theorem State.bump_colls (f : Field) (n : Nat) : (s.bump f n).colls = s.colls := rfl
@[simp] theorem State.bump_ctx (f : Field) (n : Nat) : (s.bump f n).ctx = s.ctx := rfl
@[simp] theorem State.bump_idDone (f : Field) (n : Nat) : (s.bump f n).idDone = s.idDone := rfl
@[simp] theorem State.bump_landings (f : Field) (n : Nat) : (s.bump f n).landings = s.landings := rfl
@[simp] theorem State.bump_kilnMiss (f : Field) (n : Nat) : (s.bump f n).kilnMiss = s.kilnMiss := rfl
@[simp] theorem State.bump_links (f : Field) (n : Nat) : (s.bump f n).links = s.links := rfl
@[simp] theorem State.bump_arrivals (f : Field) (n : Nat) : (s.bump f n).arrivals = s.arrivals := rfl
@[simp] theorem State.bump_nextBody (f : Field) (n : Nat) : (s.bump f n).nextBody = s.nextBody := rfl
@[simp] theorem State.bump_voqs (f : Field) (n : Nat) : (s.bump f n).voqs = s.voqs := rfl
@[simp] theorem State.bump_voqHwm (f : Field) (n : Nat) : (s.bump f n).voqHwm = s.voqHwm := rfl
@[simp] theorem State.bump_outs (f : Field) (n : Nat) : (s.bump f n).outs = s.outs := rfl
@[simp] theorem State.bump_delivered (f : Field) (n : Nat) : (s.bump f n).delivered = s.delivered := rfl
@[simp] theorem State.bump_injq (f : Field) (n : Nat) : (s.bump f n).injq = s.injq := rfl
@[simp] theorem State.bump_throttles (f : Field) (n : Nat) : (s.bump f n).throttles = s.throttles := rfl
@[simp] theorem State.bump_psq (f : Field) (n : Nat) : (s.bump f n).psq = s.psq := rfl
@[simp] theorem State.bump_requests (f : Field) (n : Nat) : (s.bump f n).requests = s.requests := rfl
@[simp] theorem State.bump_filter (f : Field) (n : Nat) : (s.bump f n).filter = s.filter := rfl
@[simp] theorem State.bump_recov (f : Field) (n : Nat) : (s.bump f n).recov = s.recov := rfl
@[simp] theorem State.bump_testCnt (f : Field) (n : Nat) : (s.bump f n).testCnt = s.testCnt := rfl
@[simp] theorem State.bump_testBad (f : Field) (n : Nat) : (s.bump f n).testBad = s.testBad := rfl
@[simp] theorem State.bump_spreadBad (f : Field) (n : Nat) : (s.bump f n).spreadBad = s.spreadBad := rfl
@[simp] theorem State.bump_cells (f : Field) (n : Nat) : (s.bump f n).cells = s.cells := rfl
@[simp] theorem State.bump_suspects (f : Field) (n : Nat) : (s.bump f n).suspects = s.suspects := rfl
@[simp] theorem State.bump_notes (f : Field) (n : Nat) : (s.bump f n).notes = s.notes := rfl
@[simp] theorem State.bump_rseq (f : Field) (n : Nat) : (s.bump f n).rseq = s.rseq := rfl
@[simp] theorem State.bump_mirror (f : Field) (n : Nat) : (s.bump f n).mirror = s.mirror := rfl
@[simp] theorem State.bump_stepTable (f : Field) (n : Nat) : (s.bump f n).stepTable = s.stepTable := rfl
@[simp] theorem State.bump_queues (f : Field) (n : Nat) : (s.bump f n).queues = s.queues := rfl
@[simp] theorem State.bump_subWords (f : Field) (n : Nat) : (s.bump f n).subWords = s.subWords := rfl
@[simp] theorem State.bump_qOff (f : Field) (n : Nat) : (s.bump f n).qOff = s.qOff := rfl
@[simp] theorem State.bump_runs (f : Field) (n : Nat) : (s.bump f n).runs = s.runs := rfl
@[simp] theorem State.bump_rrq (f : Field) (n : Nat) : (s.bump f n).rrq = s.rrq := rfl
@[simp] theorem State.bump_mgmtSeen (f : Field) (n : Nat) : (s.bump f n).mgmtSeen = s.mgmtSeen := rfl
@[simp] theorem State.bump_ringWait (f : Field) (n : Nat) : (s.bump f n).ringWait = s.ringWait := rfl
@[simp] theorem State.bump_ringSeq (f : Field) (n : Nat) : (s.bump f n).ringSeq = s.ringSeq := rfl
@[simp] theorem State.bump_hbAt (f : Field) (n : Nat) : (s.bump f n).hbAt = s.hbAt := rfl
@[simp] theorem State.bump_orphanStop (f : Field) (n : Nat) : (s.bump f n).orphanStop = s.orphanStop := rfl
@[simp] theorem State.bump_started (f : Field) (n : Nat) : (s.bump f n).started = s.started := rfl
@[simp] theorem State.bump_procs (f : Field) (n : Nat) : (s.bump f n).procs = s.procs := rfl
@[simp] theorem State.bump_defers (f : Field) (n : Nat) : (s.bump f n).defers = s.defers := rfl
@[simp] theorem State.bump_deferRuns (f : Field) (n : Nat) : (s.bump f n).deferRuns = s.deferRuns := rfl
@[simp] theorem State.bump_clWait (f : Field) (n : Nat) : (s.bump f n).clWait = s.clWait := rfl
@[simp] theorem State.bump_imgTimer (f : Field) (n : Nat) : (s.bump f n).imgTimer = s.imgTimer := rfl
@[simp] theorem State.bump_imgAllow (f : Field) (n : Nat) : (s.bump f n).imgAllow = s.imgAllow := rfl
@[simp] theorem State.bump_emergClearAt (f : Field) (n : Nat) : (s.bump f n).emergClearAt = s.emergClearAt := rfl
@[simp] theorem State.bump_logQ (f : Field) (n : Nat) : (s.bump f n).logQ = s.logQ := rfl
@[simp] theorem State.bump_logDrops (f : Field) (n : Nat) : (s.bump f n).logDrops = s.logDrops := rfl
@[simp] theorem State.bump_held32 (f : Field) (n : Nat) : (s.bump f n).held32 = s.held32 := rfl
@[simp] theorem State.bump_bus (f : Field) (n : Nat) : (s.bump f n).bus = s.bus := rfl
@[simp] theorem State.bump_origin (f : Field) (n : Nat) : (s.bump f n).origin = s.origin := rfl
@[simp] theorem State.bump_layers (f : Field) (n : Nat) : (s.bump f n).layers = s.layers := rfl
@[simp] theorem State.bump_hbm (f : Field) (n : Nat) : (s.bump f n).hbm = s.hbm := rfl
@[simp] theorem State.bump_sec (f : Field) (n : Nat) : (s.bump f n).sec = s.sec := rfl
@[simp] theorem State.bump_mgmt (f : Field) (n : Nat) : (s.bump f n).mgmt = s.mgmt := rfl
@[simp] theorem State.bump_img (f : Field) (n : Nat) : (s.bump f n).img = s.img := rfl
@[simp] theorem State.bump_power (f : Field) (n : Nat) : (s.bump f n).power = s.power := rfl
@[simp] theorem State.bump_fenceReq (f : Field) (n : Nat) : (s.bump f n).fenceReq = s.fenceReq := rfl

/-! ### State.setFlag -/

@[simp] theorem State.setFlag_pending (f : Field) (b : Bool) : (s.setFlag f b).pending = s.pending := rfl
@[simp] theorem State.setFlag_free (f : Field) (b : Bool) : (s.setFlag f b).free = s.free := rfl
@[simp] theorem State.setFlag_cone (f : Field) (b : Bool) : (s.setFlag f b).cone = s.cone := rfl
@[simp] theorem State.setFlag_coneFrac (f : Field) (b : Bool) : (s.setFlag f b).coneFrac = s.coneFrac := rfl
@[simp] theorem State.setFlag_coneSlew (f : Field) (b : Bool) : (s.setFlag f b).coneSlew = s.coneSlew := rfl
@[simp] theorem State.setFlag_coneGood (f : Field) (b : Bool) : (s.setFlag f b).coneGood = s.coneGood := rfl
@[simp] theorem State.setFlag_clusters (f : Field) (b : Bool) : (s.setFlag f b).clusters = s.clusters := rfl
@[simp] theorem State.setFlag_mem (f : Field) (b : Bool) : (s.setFlag f b).mem = s.mem := rfl
@[simp] theorem State.setFlag_memErr (f : Field) (b : Bool) : (s.setFlag f b).memErr = s.memErr := rfl
@[simp] theorem State.setFlag_poolMem (f : Field) (b : Bool) : (s.setFlag f b).poolMem = s.poolMem := rfl
@[simp] theorem State.setFlag_flash (f : Field) (b : Bool) : (s.setFlag f b).flash = s.flash := rfl
@[simp] theorem State.setFlag_hbmKey (f : Field) (b : Bool) : (s.setFlag f b).hbmKey = s.hbmKey := rfl
@[simp] theorem State.setFlag_acc (f : Field) (b : Bool) : (s.setFlag f b).acc = s.acc := rfl
@[simp] theorem State.setFlag_tblErr (f : Field) (b : Bool) : (s.setFlag f b).tblErr = s.tblErr := rfl
@[simp] theorem State.setFlag_accWait (f : Field) (b : Bool) : (s.setFlag f b).accWait = s.accWait := rfl
@[simp] theorem State.setFlag_bankA (f : Field) (b : Bool) : (s.setFlag f b).bankA = s.bankA := rfl
@[simp] theorem State.setFlag_bankB (f : Field) (b : Bool) : (s.setFlag f b).bankB = s.bankB := rfl
@[simp] theorem State.setFlag_bankErr (f : Field) (b : Bool) : (s.setFlag f b).bankErr = s.bankErr := rfl
@[simp] theorem State.setFlag_cellErr (f : Field) (b : Bool) : (s.setFlag f b).cellErr = s.cellErr := rfl
@[simp] theorem State.setFlag_tagErr (f : Field) (b : Bool) : (s.setFlag f b).tagErr = s.tagErr := rfl
@[simp] theorem State.setFlag_ctxErr (f : Field) (b : Bool) : (s.setFlag f b).ctxErr = s.ctxErr := rfl
@[simp] theorem State.setFlag_dieErr (f : Field) (b : Bool) : (s.setFlag f b).dieErr = s.dieErr := rfl
@[simp] theorem State.setFlag_meshErr (f : Field) (b : Bool) : (s.setFlag f b).meshErr = s.meshErr := rfl
@[simp] theorem State.setFlag_flipMax (f : Field) (b : Bool) : (s.setFlag f b).flipMax = s.flipMax := rfl
@[simp] theorem State.setFlag_topo (f : Field) (b : Bool) : (s.setFlag f b).topo = s.topo := rfl
@[simp] theorem State.setFlag_plans (f : Field) (b : Bool) : (s.setFlag f b).plans = s.plans := rfl
@[simp] theorem State.setFlag_poisoned (f : Field) (b : Bool) : (s.setFlag f b).poisoned = s.poisoned := rfl
@[simp] theorem State.setFlag_colls (f : Field) (b : Bool) : (s.setFlag f b).colls = s.colls := rfl
@[simp] theorem State.setFlag_ctx (f : Field) (b : Bool) : (s.setFlag f b).ctx = s.ctx := rfl
@[simp] theorem State.setFlag_idDone (f : Field) (b : Bool) : (s.setFlag f b).idDone = s.idDone := rfl
@[simp] theorem State.setFlag_landings (f : Field) (b : Bool) : (s.setFlag f b).landings = s.landings := rfl
@[simp] theorem State.setFlag_kilnMiss (f : Field) (b : Bool) : (s.setFlag f b).kilnMiss = s.kilnMiss := rfl
@[simp] theorem State.setFlag_links (f : Field) (b : Bool) : (s.setFlag f b).links = s.links := rfl
@[simp] theorem State.setFlag_arrivals (f : Field) (b : Bool) : (s.setFlag f b).arrivals = s.arrivals := rfl
@[simp] theorem State.setFlag_nextBody (f : Field) (b : Bool) : (s.setFlag f b).nextBody = s.nextBody := rfl
@[simp] theorem State.setFlag_voqs (f : Field) (b : Bool) : (s.setFlag f b).voqs = s.voqs := rfl
@[simp] theorem State.setFlag_voqHwm (f : Field) (b : Bool) : (s.setFlag f b).voqHwm = s.voqHwm := rfl
@[simp] theorem State.setFlag_outs (f : Field) (b : Bool) : (s.setFlag f b).outs = s.outs := rfl
@[simp] theorem State.setFlag_delivered (f : Field) (b : Bool) : (s.setFlag f b).delivered = s.delivered := rfl
@[simp] theorem State.setFlag_injq (f : Field) (b : Bool) : (s.setFlag f b).injq = s.injq := rfl
@[simp] theorem State.setFlag_throttles (f : Field) (b : Bool) : (s.setFlag f b).throttles = s.throttles := rfl
@[simp] theorem State.setFlag_psq (f : Field) (b : Bool) : (s.setFlag f b).psq = s.psq := rfl
@[simp] theorem State.setFlag_requests (f : Field) (b : Bool) : (s.setFlag f b).requests = s.requests := rfl
@[simp] theorem State.setFlag_filter (f : Field) (b : Bool) : (s.setFlag f b).filter = s.filter := rfl
@[simp] theorem State.setFlag_recov (f : Field) (b : Bool) : (s.setFlag f b).recov = s.recov := rfl
@[simp] theorem State.setFlag_testCnt (f : Field) (b : Bool) : (s.setFlag f b).testCnt = s.testCnt := rfl
@[simp] theorem State.setFlag_testBad (f : Field) (b : Bool) : (s.setFlag f b).testBad = s.testBad := rfl
@[simp] theorem State.setFlag_spreadBad (f : Field) (b : Bool) : (s.setFlag f b).spreadBad = s.spreadBad := rfl
@[simp] theorem State.setFlag_cells (f : Field) (b : Bool) : (s.setFlag f b).cells = s.cells := rfl
@[simp] theorem State.setFlag_suspects (f : Field) (b : Bool) : (s.setFlag f b).suspects = s.suspects := rfl
@[simp] theorem State.setFlag_notes (f : Field) (b : Bool) : (s.setFlag f b).notes = s.notes := rfl
@[simp] theorem State.setFlag_rseq (f : Field) (b : Bool) : (s.setFlag f b).rseq = s.rseq := rfl
@[simp] theorem State.setFlag_mirror (f : Field) (b : Bool) : (s.setFlag f b).mirror = s.mirror := rfl
@[simp] theorem State.setFlag_stepTable (f : Field) (b : Bool) : (s.setFlag f b).stepTable = s.stepTable := rfl
@[simp] theorem State.setFlag_queues (f : Field) (b : Bool) : (s.setFlag f b).queues = s.queues := rfl
@[simp] theorem State.setFlag_subWords (f : Field) (b : Bool) : (s.setFlag f b).subWords = s.subWords := rfl
@[simp] theorem State.setFlag_qOff (f : Field) (b : Bool) : (s.setFlag f b).qOff = s.qOff := rfl
@[simp] theorem State.setFlag_runs (f : Field) (b : Bool) : (s.setFlag f b).runs = s.runs := rfl
@[simp] theorem State.setFlag_rrq (f : Field) (b : Bool) : (s.setFlag f b).rrq = s.rrq := rfl
@[simp] theorem State.setFlag_mgmtSeen (f : Field) (b : Bool) : (s.setFlag f b).mgmtSeen = s.mgmtSeen := rfl
@[simp] theorem State.setFlag_ringWait (f : Field) (b : Bool) : (s.setFlag f b).ringWait = s.ringWait := rfl
@[simp] theorem State.setFlag_ringSeq (f : Field) (b : Bool) : (s.setFlag f b).ringSeq = s.ringSeq := rfl
@[simp] theorem State.setFlag_hbAt (f : Field) (b : Bool) : (s.setFlag f b).hbAt = s.hbAt := rfl
@[simp] theorem State.setFlag_orphanStop (f : Field) (b : Bool) : (s.setFlag f b).orphanStop = s.orphanStop := rfl
@[simp] theorem State.setFlag_started (f : Field) (b : Bool) : (s.setFlag f b).started = s.started := rfl
@[simp] theorem State.setFlag_procs (f : Field) (b : Bool) : (s.setFlag f b).procs = s.procs := rfl
@[simp] theorem State.setFlag_defers (f : Field) (b : Bool) : (s.setFlag f b).defers = s.defers := rfl
@[simp] theorem State.setFlag_deferRuns (f : Field) (b : Bool) : (s.setFlag f b).deferRuns = s.deferRuns := rfl
@[simp] theorem State.setFlag_clWait (f : Field) (b : Bool) : (s.setFlag f b).clWait = s.clWait := rfl
@[simp] theorem State.setFlag_imgTimer (f : Field) (b : Bool) : (s.setFlag f b).imgTimer = s.imgTimer := rfl
@[simp] theorem State.setFlag_imgAllow (f : Field) (b : Bool) : (s.setFlag f b).imgAllow = s.imgAllow := rfl
@[simp] theorem State.setFlag_emergClearAt (f : Field) (b : Bool) : (s.setFlag f b).emergClearAt = s.emergClearAt := rfl
@[simp] theorem State.setFlag_logQ (f : Field) (b : Bool) : (s.setFlag f b).logQ = s.logQ := rfl
@[simp] theorem State.setFlag_logDrops (f : Field) (b : Bool) : (s.setFlag f b).logDrops = s.logDrops := rfl
@[simp] theorem State.setFlag_held32 (f : Field) (b : Bool) : (s.setFlag f b).held32 = s.held32 := rfl
@[simp] theorem State.setFlag_bus (f : Field) (b : Bool) : (s.setFlag f b).bus = s.bus := rfl
@[simp] theorem State.setFlag_origin (f : Field) (b : Bool) : (s.setFlag f b).origin = s.origin := rfl
@[simp] theorem State.setFlag_layers (f : Field) (b : Bool) : (s.setFlag f b).layers = s.layers := rfl
@[simp] theorem State.setFlag_hbm (f : Field) (b : Bool) : (s.setFlag f b).hbm = s.hbm := rfl
@[simp] theorem State.setFlag_sec (f : Field) (b : Bool) : (s.setFlag f b).sec = s.sec := rfl
@[simp] theorem State.setFlag_mgmt (f : Field) (b : Bool) : (s.setFlag f b).mgmt = s.mgmt := rfl
@[simp] theorem State.setFlag_img (f : Field) (b : Bool) : (s.setFlag f b).img = s.img := rfl
@[simp] theorem State.setFlag_power (f : Field) (b : Bool) : (s.setFlag f b).power = s.power := rfl
@[simp] theorem State.setFlag_fenceReq (f : Field) (b : Bool) : (s.setFlag f b).fenceReq = s.fenceReq := rfl

/-! ### State.fresh -/

@[simp] theorem State.fresh_pending (w : Nat) : (s.fresh w).2.pending = s.pending := rfl
@[simp] theorem State.fresh_free (w : Nat) : (s.fresh w).2.free = s.free + 1 := rfl
@[simp] theorem State.fresh_regs (w : Nat) : (s.fresh w).2.regs = s.regs := rfl
@[simp] theorem State.fresh_cone (w : Nat) : (s.fresh w).2.cone = s.cone := rfl
@[simp] theorem State.fresh_coneFrac (w : Nat) : (s.fresh w).2.coneFrac = s.coneFrac := rfl
@[simp] theorem State.fresh_coneSlew (w : Nat) : (s.fresh w).2.coneSlew = s.coneSlew := rfl
@[simp] theorem State.fresh_coneGood (w : Nat) : (s.fresh w).2.coneGood = s.coneGood := rfl
@[simp] theorem State.fresh_clusters (w : Nat) : (s.fresh w).2.clusters = s.clusters := rfl
@[simp] theorem State.fresh_mem (w : Nat) : (s.fresh w).2.mem = s.mem := rfl
@[simp] theorem State.fresh_memErr (w : Nat) : (s.fresh w).2.memErr = s.memErr := rfl
@[simp] theorem State.fresh_poolMem (w : Nat) : (s.fresh w).2.poolMem = s.poolMem := rfl
@[simp] theorem State.fresh_flash (w : Nat) : (s.fresh w).2.flash = s.flash := rfl
@[simp] theorem State.fresh_hbmKey (w : Nat) : (s.fresh w).2.hbmKey = s.hbmKey := rfl
@[simp] theorem State.fresh_acc (w : Nat) : (s.fresh w).2.acc = s.acc := rfl
@[simp] theorem State.fresh_tblErr (w : Nat) : (s.fresh w).2.tblErr = s.tblErr := rfl
@[simp] theorem State.fresh_accWait (w : Nat) : (s.fresh w).2.accWait = s.accWait := rfl
@[simp] theorem State.fresh_bankA (w : Nat) : (s.fresh w).2.bankA = s.bankA := rfl
@[simp] theorem State.fresh_bankB (w : Nat) : (s.fresh w).2.bankB = s.bankB := rfl
@[simp] theorem State.fresh_bankErr (w : Nat) : (s.fresh w).2.bankErr = s.bankErr := rfl
@[simp] theorem State.fresh_cellErr (w : Nat) : (s.fresh w).2.cellErr = s.cellErr := rfl
@[simp] theorem State.fresh_tagErr (w : Nat) : (s.fresh w).2.tagErr = s.tagErr := rfl
@[simp] theorem State.fresh_ctxErr (w : Nat) : (s.fresh w).2.ctxErr = s.ctxErr := rfl
@[simp] theorem State.fresh_dieErr (w : Nat) : (s.fresh w).2.dieErr = s.dieErr := rfl
@[simp] theorem State.fresh_meshErr (w : Nat) : (s.fresh w).2.meshErr = s.meshErr := rfl
@[simp] theorem State.fresh_flipMax (w : Nat) : (s.fresh w).2.flipMax = s.flipMax := rfl
@[simp] theorem State.fresh_topo (w : Nat) : (s.fresh w).2.topo = s.topo := rfl
@[simp] theorem State.fresh_plans (w : Nat) : (s.fresh w).2.plans = s.plans := rfl
@[simp] theorem State.fresh_poisoned (w : Nat) : (s.fresh w).2.poisoned = s.poisoned := rfl
@[simp] theorem State.fresh_colls (w : Nat) : (s.fresh w).2.colls = s.colls := rfl
@[simp] theorem State.fresh_ctx (w : Nat) : (s.fresh w).2.ctx = s.ctx := rfl
@[simp] theorem State.fresh_idDone (w : Nat) : (s.fresh w).2.idDone = s.idDone := rfl
@[simp] theorem State.fresh_landings (w : Nat) : (s.fresh w).2.landings = s.landings := rfl
@[simp] theorem State.fresh_kilnMiss (w : Nat) : (s.fresh w).2.kilnMiss = s.kilnMiss := rfl
@[simp] theorem State.fresh_links (w : Nat) : (s.fresh w).2.links = s.links := rfl
@[simp] theorem State.fresh_arrivals (w : Nat) : (s.fresh w).2.arrivals = s.arrivals := rfl
@[simp] theorem State.fresh_nextBody (w : Nat) : (s.fresh w).2.nextBody = s.nextBody := rfl
@[simp] theorem State.fresh_voqs (w : Nat) : (s.fresh w).2.voqs = s.voqs := rfl
@[simp] theorem State.fresh_voqHwm (w : Nat) : (s.fresh w).2.voqHwm = s.voqHwm := rfl
@[simp] theorem State.fresh_outs (w : Nat) : (s.fresh w).2.outs = s.outs := rfl
@[simp] theorem State.fresh_delivered (w : Nat) : (s.fresh w).2.delivered = s.delivered := rfl
@[simp] theorem State.fresh_injq (w : Nat) : (s.fresh w).2.injq = s.injq := rfl
@[simp] theorem State.fresh_throttles (w : Nat) : (s.fresh w).2.throttles = s.throttles := rfl
@[simp] theorem State.fresh_psq (w : Nat) : (s.fresh w).2.psq = s.psq := rfl
@[simp] theorem State.fresh_requests (w : Nat) : (s.fresh w).2.requests = s.requests := rfl
@[simp] theorem State.fresh_filter (w : Nat) : (s.fresh w).2.filter = s.filter := rfl
@[simp] theorem State.fresh_recov (w : Nat) : (s.fresh w).2.recov = s.recov := rfl
@[simp] theorem State.fresh_testCnt (w : Nat) : (s.fresh w).2.testCnt = s.testCnt := rfl
@[simp] theorem State.fresh_testBad (w : Nat) : (s.fresh w).2.testBad = s.testBad := rfl
@[simp] theorem State.fresh_spreadBad (w : Nat) : (s.fresh w).2.spreadBad = s.spreadBad := rfl
@[simp] theorem State.fresh_cells (w : Nat) : (s.fresh w).2.cells = s.cells := rfl
@[simp] theorem State.fresh_suspects (w : Nat) : (s.fresh w).2.suspects = s.suspects := rfl
@[simp] theorem State.fresh_notes (w : Nat) : (s.fresh w).2.notes = s.notes := rfl
@[simp] theorem State.fresh_rseq (w : Nat) : (s.fresh w).2.rseq = s.rseq := rfl
@[simp] theorem State.fresh_mirror (w : Nat) : (s.fresh w).2.mirror = s.mirror := rfl
@[simp] theorem State.fresh_stepTable (w : Nat) : (s.fresh w).2.stepTable = s.stepTable := rfl
@[simp] theorem State.fresh_queues (w : Nat) : (s.fresh w).2.queues = s.queues := rfl
@[simp] theorem State.fresh_subWords (w : Nat) : (s.fresh w).2.subWords = s.subWords := rfl
@[simp] theorem State.fresh_qOff (w : Nat) : (s.fresh w).2.qOff = s.qOff := rfl
@[simp] theorem State.fresh_runs (w : Nat) : (s.fresh w).2.runs = s.runs := rfl
@[simp] theorem State.fresh_rrq (w : Nat) : (s.fresh w).2.rrq = s.rrq := rfl
@[simp] theorem State.fresh_mgmtSeen (w : Nat) : (s.fresh w).2.mgmtSeen = s.mgmtSeen := rfl
@[simp] theorem State.fresh_ringWait (w : Nat) : (s.fresh w).2.ringWait = s.ringWait := rfl
@[simp] theorem State.fresh_ringSeq (w : Nat) : (s.fresh w).2.ringSeq = s.ringSeq := rfl
@[simp] theorem State.fresh_hbAt (w : Nat) : (s.fresh w).2.hbAt = s.hbAt := rfl
@[simp] theorem State.fresh_orphanStop (w : Nat) : (s.fresh w).2.orphanStop = s.orphanStop := rfl
@[simp] theorem State.fresh_started (w : Nat) : (s.fresh w).2.started = s.started := rfl
@[simp] theorem State.fresh_procs (w : Nat) : (s.fresh w).2.procs = s.procs := rfl
@[simp] theorem State.fresh_defers (w : Nat) : (s.fresh w).2.defers = s.defers := rfl
@[simp] theorem State.fresh_deferRuns (w : Nat) : (s.fresh w).2.deferRuns = s.deferRuns := rfl
@[simp] theorem State.fresh_clWait (w : Nat) : (s.fresh w).2.clWait = s.clWait := rfl
@[simp] theorem State.fresh_imgTimer (w : Nat) : (s.fresh w).2.imgTimer = s.imgTimer := rfl
@[simp] theorem State.fresh_imgAllow (w : Nat) : (s.fresh w).2.imgAllow = s.imgAllow := rfl
@[simp] theorem State.fresh_emergClearAt (w : Nat) : (s.fresh w).2.emergClearAt = s.emergClearAt := rfl
@[simp] theorem State.fresh_logQ (w : Nat) : (s.fresh w).2.logQ = s.logQ := rfl
@[simp] theorem State.fresh_logDrops (w : Nat) : (s.fresh w).2.logDrops = s.logDrops := rfl
@[simp] theorem State.fresh_held32 (w : Nat) : (s.fresh w).2.held32 = s.held32 := rfl
@[simp] theorem State.fresh_bus (w : Nat) : (s.fresh w).2.bus = s.bus := rfl
@[simp] theorem State.fresh_origin (w : Nat) : (s.fresh w).2.origin = s.origin := rfl
@[simp] theorem State.fresh_layers (w : Nat) : (s.fresh w).2.layers = s.layers := rfl
@[simp] theorem State.fresh_hbm (w : Nat) : (s.fresh w).2.hbm = s.hbm := rfl
@[simp] theorem State.fresh_sec (w : Nat) : (s.fresh w).2.sec = s.sec := rfl
@[simp] theorem State.fresh_mgmt (w : Nat) : (s.fresh w).2.mgmt = s.mgmt := rfl
@[simp] theorem State.fresh_img (w : Nat) : (s.fresh w).2.img = s.img := rfl
@[simp] theorem State.fresh_power (w : Nat) : (s.fresh w).2.power = s.power := rfl
@[simp] theorem State.fresh_fenceReq (w : Nat) : (s.fresh w).2.fenceReq = s.fenceReq := rfl

/-! ### State.modCl -/

@[simp] theorem State.modCl_pending (n : Nat) (f : Cluster → Cluster) : (s.modCl n f).pending = s.pending := rfl
@[simp] theorem State.modCl_free (n : Nat) (f : Cluster → Cluster) : (s.modCl n f).free = s.free := rfl
@[simp] theorem State.modCl_regs (n : Nat) (f : Cluster → Cluster) : (s.modCl n f).regs = s.regs := rfl
@[simp] theorem State.modCl_cone (n : Nat) (f : Cluster → Cluster) : (s.modCl n f).cone = s.cone := rfl
@[simp] theorem State.modCl_coneFrac (n : Nat) (f : Cluster → Cluster) : (s.modCl n f).coneFrac = s.coneFrac := rfl
@[simp] theorem State.modCl_coneSlew (n : Nat) (f : Cluster → Cluster) : (s.modCl n f).coneSlew = s.coneSlew := rfl
@[simp] theorem State.modCl_coneGood (n : Nat) (f : Cluster → Cluster) : (s.modCl n f).coneGood = s.coneGood := rfl
@[simp] theorem State.modCl_clusters (n : Nat) (f : Cluster → Cluster) : (s.modCl n f).clusters = s.clusters.modify Cluster.reset n f := rfl
@[simp] theorem State.modCl_mem (n : Nat) (f : Cluster → Cluster) : (s.modCl n f).mem = s.mem := rfl
@[simp] theorem State.modCl_memErr (n : Nat) (f : Cluster → Cluster) : (s.modCl n f).memErr = s.memErr := rfl
@[simp] theorem State.modCl_poolMem (n : Nat) (f : Cluster → Cluster) : (s.modCl n f).poolMem = s.poolMem := rfl
@[simp] theorem State.modCl_flash (n : Nat) (f : Cluster → Cluster) : (s.modCl n f).flash = s.flash := rfl
@[simp] theorem State.modCl_hbmKey (n : Nat) (f : Cluster → Cluster) : (s.modCl n f).hbmKey = s.hbmKey := rfl
@[simp] theorem State.modCl_acc (n : Nat) (f : Cluster → Cluster) : (s.modCl n f).acc = s.acc := rfl
@[simp] theorem State.modCl_tblErr (n : Nat) (f : Cluster → Cluster) : (s.modCl n f).tblErr = s.tblErr := rfl
@[simp] theorem State.modCl_accWait (n : Nat) (f : Cluster → Cluster) : (s.modCl n f).accWait = s.accWait := rfl
@[simp] theorem State.modCl_bankA (n : Nat) (f : Cluster → Cluster) : (s.modCl n f).bankA = s.bankA := rfl
@[simp] theorem State.modCl_bankB (n : Nat) (f : Cluster → Cluster) : (s.modCl n f).bankB = s.bankB := rfl
@[simp] theorem State.modCl_bankErr (n : Nat) (f : Cluster → Cluster) : (s.modCl n f).bankErr = s.bankErr := rfl
@[simp] theorem State.modCl_cellErr (n : Nat) (f : Cluster → Cluster) : (s.modCl n f).cellErr = s.cellErr := rfl
@[simp] theorem State.modCl_tagErr (n : Nat) (f : Cluster → Cluster) : (s.modCl n f).tagErr = s.tagErr := rfl
@[simp] theorem State.modCl_ctxErr (n : Nat) (f : Cluster → Cluster) : (s.modCl n f).ctxErr = s.ctxErr := rfl
@[simp] theorem State.modCl_dieErr (n : Nat) (f : Cluster → Cluster) : (s.modCl n f).dieErr = s.dieErr := rfl
@[simp] theorem State.modCl_meshErr (n : Nat) (f : Cluster → Cluster) : (s.modCl n f).meshErr = s.meshErr := rfl
@[simp] theorem State.modCl_flipMax (n : Nat) (f : Cluster → Cluster) : (s.modCl n f).flipMax = s.flipMax := rfl
@[simp] theorem State.modCl_topo (n : Nat) (f : Cluster → Cluster) : (s.modCl n f).topo = s.topo := rfl
@[simp] theorem State.modCl_plans (n : Nat) (f : Cluster → Cluster) : (s.modCl n f).plans = s.plans := rfl
@[simp] theorem State.modCl_poisoned (n : Nat) (f : Cluster → Cluster) : (s.modCl n f).poisoned = s.poisoned := rfl
@[simp] theorem State.modCl_colls (n : Nat) (f : Cluster → Cluster) : (s.modCl n f).colls = s.colls := rfl
@[simp] theorem State.modCl_ctx (n : Nat) (f : Cluster → Cluster) : (s.modCl n f).ctx = s.ctx := rfl
@[simp] theorem State.modCl_idDone (n : Nat) (f : Cluster → Cluster) : (s.modCl n f).idDone = s.idDone := rfl
@[simp] theorem State.modCl_landings (n : Nat) (f : Cluster → Cluster) : (s.modCl n f).landings = s.landings := rfl
@[simp] theorem State.modCl_kilnMiss (n : Nat) (f : Cluster → Cluster) : (s.modCl n f).kilnMiss = s.kilnMiss := rfl
@[simp] theorem State.modCl_links (n : Nat) (f : Cluster → Cluster) : (s.modCl n f).links = s.links := rfl
@[simp] theorem State.modCl_arrivals (n : Nat) (f : Cluster → Cluster) : (s.modCl n f).arrivals = s.arrivals := rfl
@[simp] theorem State.modCl_nextBody (n : Nat) (f : Cluster → Cluster) : (s.modCl n f).nextBody = s.nextBody := rfl
@[simp] theorem State.modCl_voqs (n : Nat) (f : Cluster → Cluster) : (s.modCl n f).voqs = s.voqs := rfl
@[simp] theorem State.modCl_voqHwm (n : Nat) (f : Cluster → Cluster) : (s.modCl n f).voqHwm = s.voqHwm := rfl
@[simp] theorem State.modCl_outs (n : Nat) (f : Cluster → Cluster) : (s.modCl n f).outs = s.outs := rfl
@[simp] theorem State.modCl_delivered (n : Nat) (f : Cluster → Cluster) : (s.modCl n f).delivered = s.delivered := rfl
@[simp] theorem State.modCl_injq (n : Nat) (f : Cluster → Cluster) : (s.modCl n f).injq = s.injq := rfl
@[simp] theorem State.modCl_throttles (n : Nat) (f : Cluster → Cluster) : (s.modCl n f).throttles = s.throttles := rfl
@[simp] theorem State.modCl_psq (n : Nat) (f : Cluster → Cluster) : (s.modCl n f).psq = s.psq := rfl
@[simp] theorem State.modCl_requests (n : Nat) (f : Cluster → Cluster) : (s.modCl n f).requests = s.requests := rfl
@[simp] theorem State.modCl_filter (n : Nat) (f : Cluster → Cluster) : (s.modCl n f).filter = s.filter := rfl
@[simp] theorem State.modCl_recov (n : Nat) (f : Cluster → Cluster) : (s.modCl n f).recov = s.recov := rfl
@[simp] theorem State.modCl_testCnt (n : Nat) (f : Cluster → Cluster) : (s.modCl n f).testCnt = s.testCnt := rfl
@[simp] theorem State.modCl_testBad (n : Nat) (f : Cluster → Cluster) : (s.modCl n f).testBad = s.testBad := rfl
@[simp] theorem State.modCl_spreadBad (n : Nat) (f : Cluster → Cluster) : (s.modCl n f).spreadBad = s.spreadBad := rfl
@[simp] theorem State.modCl_cells (n : Nat) (f : Cluster → Cluster) : (s.modCl n f).cells = s.cells := rfl
@[simp] theorem State.modCl_suspects (n : Nat) (f : Cluster → Cluster) : (s.modCl n f).suspects = s.suspects := rfl
@[simp] theorem State.modCl_notes (n : Nat) (f : Cluster → Cluster) : (s.modCl n f).notes = s.notes := rfl
@[simp] theorem State.modCl_rseq (n : Nat) (f : Cluster → Cluster) : (s.modCl n f).rseq = s.rseq := rfl
@[simp] theorem State.modCl_mirror (n : Nat) (f : Cluster → Cluster) : (s.modCl n f).mirror = s.mirror := rfl
@[simp] theorem State.modCl_stepTable (n : Nat) (f : Cluster → Cluster) : (s.modCl n f).stepTable = s.stepTable := rfl
@[simp] theorem State.modCl_queues (n : Nat) (f : Cluster → Cluster) : (s.modCl n f).queues = s.queues := rfl
@[simp] theorem State.modCl_subWords (n : Nat) (f : Cluster → Cluster) : (s.modCl n f).subWords = s.subWords := rfl
@[simp] theorem State.modCl_qOff (n : Nat) (f : Cluster → Cluster) : (s.modCl n f).qOff = s.qOff := rfl
@[simp] theorem State.modCl_runs (n : Nat) (f : Cluster → Cluster) : (s.modCl n f).runs = s.runs := rfl
@[simp] theorem State.modCl_rrq (n : Nat) (f : Cluster → Cluster) : (s.modCl n f).rrq = s.rrq := rfl
@[simp] theorem State.modCl_mgmtSeen (n : Nat) (f : Cluster → Cluster) : (s.modCl n f).mgmtSeen = s.mgmtSeen := rfl
@[simp] theorem State.modCl_ringWait (n : Nat) (f : Cluster → Cluster) : (s.modCl n f).ringWait = s.ringWait := rfl
@[simp] theorem State.modCl_ringSeq (n : Nat) (f : Cluster → Cluster) : (s.modCl n f).ringSeq = s.ringSeq := rfl
@[simp] theorem State.modCl_hbAt (n : Nat) (f : Cluster → Cluster) : (s.modCl n f).hbAt = s.hbAt := rfl
@[simp] theorem State.modCl_orphanStop (n : Nat) (f : Cluster → Cluster) : (s.modCl n f).orphanStop = s.orphanStop := rfl
@[simp] theorem State.modCl_started (n : Nat) (f : Cluster → Cluster) : (s.modCl n f).started = s.started := rfl
@[simp] theorem State.modCl_procs (n : Nat) (f : Cluster → Cluster) : (s.modCl n f).procs = s.procs := rfl
@[simp] theorem State.modCl_defers (n : Nat) (f : Cluster → Cluster) : (s.modCl n f).defers = s.defers := rfl
@[simp] theorem State.modCl_deferRuns (n : Nat) (f : Cluster → Cluster) : (s.modCl n f).deferRuns = s.deferRuns := rfl
@[simp] theorem State.modCl_clWait (n : Nat) (f : Cluster → Cluster) : (s.modCl n f).clWait = s.clWait := rfl
@[simp] theorem State.modCl_imgTimer (n : Nat) (f : Cluster → Cluster) : (s.modCl n f).imgTimer = s.imgTimer := rfl
@[simp] theorem State.modCl_imgAllow (n : Nat) (f : Cluster → Cluster) : (s.modCl n f).imgAllow = s.imgAllow := rfl
@[simp] theorem State.modCl_emergClearAt (n : Nat) (f : Cluster → Cluster) : (s.modCl n f).emergClearAt = s.emergClearAt := rfl
@[simp] theorem State.modCl_logQ (n : Nat) (f : Cluster → Cluster) : (s.modCl n f).logQ = s.logQ := rfl
@[simp] theorem State.modCl_logDrops (n : Nat) (f : Cluster → Cluster) : (s.modCl n f).logDrops = s.logDrops := rfl
@[simp] theorem State.modCl_held32 (n : Nat) (f : Cluster → Cluster) : (s.modCl n f).held32 = s.held32 := rfl
@[simp] theorem State.modCl_bus (n : Nat) (f : Cluster → Cluster) : (s.modCl n f).bus = s.bus := rfl
@[simp] theorem State.modCl_origin (n : Nat) (f : Cluster → Cluster) : (s.modCl n f).origin = s.origin := rfl
@[simp] theorem State.modCl_layers (n : Nat) (f : Cluster → Cluster) : (s.modCl n f).layers = s.layers := rfl
@[simp] theorem State.modCl_hbm (n : Nat) (f : Cluster → Cluster) : (s.modCl n f).hbm = s.hbm := rfl
@[simp] theorem State.modCl_sec (n : Nat) (f : Cluster → Cluster) : (s.modCl n f).sec = s.sec := rfl
@[simp] theorem State.modCl_mgmt (n : Nat) (f : Cluster → Cluster) : (s.modCl n f).mgmt = s.mgmt := rfl
@[simp] theorem State.modCl_img (n : Nat) (f : Cluster → Cluster) : (s.modCl n f).img = s.img := rfl
@[simp] theorem State.modCl_power (n : Nat) (f : Cluster → Cluster) : (s.modCl n f).power = s.power := rfl
@[simp] theorem State.modCl_fenceReq (n : Nat) (f : Cluster → Cluster) : (s.modCl n f).fenceReq = s.fenceReq := rfl

/-! ### State.modLink -/

@[simp] theorem State.modLink_pending (i : Nat) (f : Link → Link) : (s.modLink i f).pending = s.pending := rfl
@[simp] theorem State.modLink_free (i : Nat) (f : Link → Link) : (s.modLink i f).free = s.free := rfl
@[simp] theorem State.modLink_regs (i : Nat) (f : Link → Link) : (s.modLink i f).regs = s.regs := rfl
@[simp] theorem State.modLink_cone (i : Nat) (f : Link → Link) : (s.modLink i f).cone = s.cone := rfl
@[simp] theorem State.modLink_coneFrac (i : Nat) (f : Link → Link) : (s.modLink i f).coneFrac = s.coneFrac := rfl
@[simp] theorem State.modLink_coneSlew (i : Nat) (f : Link → Link) : (s.modLink i f).coneSlew = s.coneSlew := rfl
@[simp] theorem State.modLink_coneGood (i : Nat) (f : Link → Link) : (s.modLink i f).coneGood = s.coneGood := rfl
@[simp] theorem State.modLink_clusters (i : Nat) (f : Link → Link) : (s.modLink i f).clusters = s.clusters := rfl
@[simp] theorem State.modLink_mem (i : Nat) (f : Link → Link) : (s.modLink i f).mem = s.mem := rfl
@[simp] theorem State.modLink_memErr (i : Nat) (f : Link → Link) : (s.modLink i f).memErr = s.memErr := rfl
@[simp] theorem State.modLink_poolMem (i : Nat) (f : Link → Link) : (s.modLink i f).poolMem = s.poolMem := rfl
@[simp] theorem State.modLink_flash (i : Nat) (f : Link → Link) : (s.modLink i f).flash = s.flash := rfl
@[simp] theorem State.modLink_hbmKey (i : Nat) (f : Link → Link) : (s.modLink i f).hbmKey = s.hbmKey := rfl
@[simp] theorem State.modLink_acc (i : Nat) (f : Link → Link) : (s.modLink i f).acc = s.acc := rfl
@[simp] theorem State.modLink_tblErr (i : Nat) (f : Link → Link) : (s.modLink i f).tblErr = s.tblErr := rfl
@[simp] theorem State.modLink_accWait (i : Nat) (f : Link → Link) : (s.modLink i f).accWait = s.accWait := rfl
@[simp] theorem State.modLink_bankA (i : Nat) (f : Link → Link) : (s.modLink i f).bankA = s.bankA := rfl
@[simp] theorem State.modLink_bankB (i : Nat) (f : Link → Link) : (s.modLink i f).bankB = s.bankB := rfl
@[simp] theorem State.modLink_bankErr (i : Nat) (f : Link → Link) : (s.modLink i f).bankErr = s.bankErr := rfl
@[simp] theorem State.modLink_cellErr (i : Nat) (f : Link → Link) : (s.modLink i f).cellErr = s.cellErr := rfl
@[simp] theorem State.modLink_tagErr (i : Nat) (f : Link → Link) : (s.modLink i f).tagErr = s.tagErr := rfl
@[simp] theorem State.modLink_ctxErr (i : Nat) (f : Link → Link) : (s.modLink i f).ctxErr = s.ctxErr := rfl
@[simp] theorem State.modLink_dieErr (i : Nat) (f : Link → Link) : (s.modLink i f).dieErr = s.dieErr := rfl
@[simp] theorem State.modLink_meshErr (i : Nat) (f : Link → Link) : (s.modLink i f).meshErr = s.meshErr := rfl
@[simp] theorem State.modLink_flipMax (i : Nat) (f : Link → Link) : (s.modLink i f).flipMax = s.flipMax := rfl
@[simp] theorem State.modLink_topo (i : Nat) (f : Link → Link) : (s.modLink i f).topo = s.topo := rfl
@[simp] theorem State.modLink_plans (i : Nat) (f : Link → Link) : (s.modLink i f).plans = s.plans := rfl
@[simp] theorem State.modLink_poisoned (i : Nat) (f : Link → Link) : (s.modLink i f).poisoned = s.poisoned := rfl
@[simp] theorem State.modLink_colls (i : Nat) (f : Link → Link) : (s.modLink i f).colls = s.colls := rfl
@[simp] theorem State.modLink_ctx (i : Nat) (f : Link → Link) : (s.modLink i f).ctx = s.ctx := rfl
@[simp] theorem State.modLink_idDone (i : Nat) (f : Link → Link) : (s.modLink i f).idDone = s.idDone := rfl
@[simp] theorem State.modLink_landings (i : Nat) (f : Link → Link) : (s.modLink i f).landings = s.landings := rfl
@[simp] theorem State.modLink_kilnMiss (i : Nat) (f : Link → Link) : (s.modLink i f).kilnMiss = s.kilnMiss := rfl
@[simp] theorem State.modLink_links (i : Nat) (f : Link → Link) : (s.modLink i f).links = s.links.modify Link.reset i f := rfl
@[simp] theorem State.modLink_arrivals (i : Nat) (f : Link → Link) : (s.modLink i f).arrivals = s.arrivals := rfl
@[simp] theorem State.modLink_nextBody (i : Nat) (f : Link → Link) : (s.modLink i f).nextBody = s.nextBody := rfl
@[simp] theorem State.modLink_voqs (i : Nat) (f : Link → Link) : (s.modLink i f).voqs = s.voqs := rfl
@[simp] theorem State.modLink_voqHwm (i : Nat) (f : Link → Link) : (s.modLink i f).voqHwm = s.voqHwm := rfl
@[simp] theorem State.modLink_outs (i : Nat) (f : Link → Link) : (s.modLink i f).outs = s.outs := rfl
@[simp] theorem State.modLink_delivered (i : Nat) (f : Link → Link) : (s.modLink i f).delivered = s.delivered := rfl
@[simp] theorem State.modLink_injq (i : Nat) (f : Link → Link) : (s.modLink i f).injq = s.injq := rfl
@[simp] theorem State.modLink_throttles (i : Nat) (f : Link → Link) : (s.modLink i f).throttles = s.throttles := rfl
@[simp] theorem State.modLink_psq (i : Nat) (f : Link → Link) : (s.modLink i f).psq = s.psq := rfl
@[simp] theorem State.modLink_requests (i : Nat) (f : Link → Link) : (s.modLink i f).requests = s.requests := rfl
@[simp] theorem State.modLink_filter (i : Nat) (f : Link → Link) : (s.modLink i f).filter = s.filter := rfl
@[simp] theorem State.modLink_recov (i : Nat) (f : Link → Link) : (s.modLink i f).recov = s.recov := rfl
@[simp] theorem State.modLink_testCnt (i : Nat) (f : Link → Link) : (s.modLink i f).testCnt = s.testCnt := rfl
@[simp] theorem State.modLink_testBad (i : Nat) (f : Link → Link) : (s.modLink i f).testBad = s.testBad := rfl
@[simp] theorem State.modLink_spreadBad (i : Nat) (f : Link → Link) : (s.modLink i f).spreadBad = s.spreadBad := rfl
@[simp] theorem State.modLink_cells (i : Nat) (f : Link → Link) : (s.modLink i f).cells = s.cells := rfl
@[simp] theorem State.modLink_suspects (i : Nat) (f : Link → Link) : (s.modLink i f).suspects = s.suspects := rfl
@[simp] theorem State.modLink_notes (i : Nat) (f : Link → Link) : (s.modLink i f).notes = s.notes := rfl
@[simp] theorem State.modLink_rseq (i : Nat) (f : Link → Link) : (s.modLink i f).rseq = s.rseq := rfl
@[simp] theorem State.modLink_mirror (i : Nat) (f : Link → Link) : (s.modLink i f).mirror = s.mirror := rfl
@[simp] theorem State.modLink_stepTable (i : Nat) (f : Link → Link) : (s.modLink i f).stepTable = s.stepTable := rfl
@[simp] theorem State.modLink_queues (i : Nat) (f : Link → Link) : (s.modLink i f).queues = s.queues := rfl
@[simp] theorem State.modLink_subWords (i : Nat) (f : Link → Link) : (s.modLink i f).subWords = s.subWords := rfl
@[simp] theorem State.modLink_qOff (i : Nat) (f : Link → Link) : (s.modLink i f).qOff = s.qOff := rfl
@[simp] theorem State.modLink_runs (i : Nat) (f : Link → Link) : (s.modLink i f).runs = s.runs := rfl
@[simp] theorem State.modLink_rrq (i : Nat) (f : Link → Link) : (s.modLink i f).rrq = s.rrq := rfl
@[simp] theorem State.modLink_mgmtSeen (i : Nat) (f : Link → Link) : (s.modLink i f).mgmtSeen = s.mgmtSeen := rfl
@[simp] theorem State.modLink_ringWait (i : Nat) (f : Link → Link) : (s.modLink i f).ringWait = s.ringWait := rfl
@[simp] theorem State.modLink_ringSeq (i : Nat) (f : Link → Link) : (s.modLink i f).ringSeq = s.ringSeq := rfl
@[simp] theorem State.modLink_hbAt (i : Nat) (f : Link → Link) : (s.modLink i f).hbAt = s.hbAt := rfl
@[simp] theorem State.modLink_orphanStop (i : Nat) (f : Link → Link) : (s.modLink i f).orphanStop = s.orphanStop := rfl
@[simp] theorem State.modLink_started (i : Nat) (f : Link → Link) : (s.modLink i f).started = s.started := rfl
@[simp] theorem State.modLink_procs (i : Nat) (f : Link → Link) : (s.modLink i f).procs = s.procs := rfl
@[simp] theorem State.modLink_defers (i : Nat) (f : Link → Link) : (s.modLink i f).defers = s.defers := rfl
@[simp] theorem State.modLink_deferRuns (i : Nat) (f : Link → Link) : (s.modLink i f).deferRuns = s.deferRuns := rfl
@[simp] theorem State.modLink_clWait (i : Nat) (f : Link → Link) : (s.modLink i f).clWait = s.clWait := rfl
@[simp] theorem State.modLink_imgTimer (i : Nat) (f : Link → Link) : (s.modLink i f).imgTimer = s.imgTimer := rfl
@[simp] theorem State.modLink_imgAllow (i : Nat) (f : Link → Link) : (s.modLink i f).imgAllow = s.imgAllow := rfl
@[simp] theorem State.modLink_emergClearAt (i : Nat) (f : Link → Link) : (s.modLink i f).emergClearAt = s.emergClearAt := rfl
@[simp] theorem State.modLink_logQ (i : Nat) (f : Link → Link) : (s.modLink i f).logQ = s.logQ := rfl
@[simp] theorem State.modLink_logDrops (i : Nat) (f : Link → Link) : (s.modLink i f).logDrops = s.logDrops := rfl
@[simp] theorem State.modLink_held32 (i : Nat) (f : Link → Link) : (s.modLink i f).held32 = s.held32 := rfl
@[simp] theorem State.modLink_bus (i : Nat) (f : Link → Link) : (s.modLink i f).bus = s.bus := rfl
@[simp] theorem State.modLink_origin (i : Nat) (f : Link → Link) : (s.modLink i f).origin = s.origin := rfl
@[simp] theorem State.modLink_layers (i : Nat) (f : Link → Link) : (s.modLink i f).layers = s.layers := rfl
@[simp] theorem State.modLink_hbm (i : Nat) (f : Link → Link) : (s.modLink i f).hbm = s.hbm := rfl
@[simp] theorem State.modLink_sec (i : Nat) (f : Link → Link) : (s.modLink i f).sec = s.sec := rfl
@[simp] theorem State.modLink_mgmt (i : Nat) (f : Link → Link) : (s.modLink i f).mgmt = s.mgmt := rfl
@[simp] theorem State.modLink_img (i : Nat) (f : Link → Link) : (s.modLink i f).img = s.img := rfl
@[simp] theorem State.modLink_power (i : Nat) (f : Link → Link) : (s.modLink i f).power = s.power := rfl
@[simp] theorem State.modLink_fenceReq (i : Nat) (f : Link → Link) : (s.modLink i f).fenceReq = s.fenceReq := rfl

/-! ### State.modPwr -/

@[simp] theorem State.modPwr_pending (f : Power → Power) : (s.modPwr f).pending = s.pending := rfl
@[simp] theorem State.modPwr_free (f : Power → Power) : (s.modPwr f).free = s.free := rfl
@[simp] theorem State.modPwr_regs (f : Power → Power) : (s.modPwr f).regs = s.regs := rfl
@[simp] theorem State.modPwr_cone (f : Power → Power) : (s.modPwr f).cone = s.cone := rfl
@[simp] theorem State.modPwr_coneFrac (f : Power → Power) : (s.modPwr f).coneFrac = s.coneFrac := rfl
@[simp] theorem State.modPwr_coneSlew (f : Power → Power) : (s.modPwr f).coneSlew = s.coneSlew := rfl
@[simp] theorem State.modPwr_coneGood (f : Power → Power) : (s.modPwr f).coneGood = s.coneGood := rfl
@[simp] theorem State.modPwr_clusters (f : Power → Power) : (s.modPwr f).clusters = s.clusters := rfl
@[simp] theorem State.modPwr_mem (f : Power → Power) : (s.modPwr f).mem = s.mem := rfl
@[simp] theorem State.modPwr_memErr (f : Power → Power) : (s.modPwr f).memErr = s.memErr := rfl
@[simp] theorem State.modPwr_poolMem (f : Power → Power) : (s.modPwr f).poolMem = s.poolMem := rfl
@[simp] theorem State.modPwr_flash (f : Power → Power) : (s.modPwr f).flash = s.flash := rfl
@[simp] theorem State.modPwr_hbmKey (f : Power → Power) : (s.modPwr f).hbmKey = s.hbmKey := rfl
@[simp] theorem State.modPwr_acc (f : Power → Power) : (s.modPwr f).acc = s.acc := rfl
@[simp] theorem State.modPwr_tblErr (f : Power → Power) : (s.modPwr f).tblErr = s.tblErr := rfl
@[simp] theorem State.modPwr_accWait (f : Power → Power) : (s.modPwr f).accWait = s.accWait := rfl
@[simp] theorem State.modPwr_bankA (f : Power → Power) : (s.modPwr f).bankA = s.bankA := rfl
@[simp] theorem State.modPwr_bankB (f : Power → Power) : (s.modPwr f).bankB = s.bankB := rfl
@[simp] theorem State.modPwr_bankErr (f : Power → Power) : (s.modPwr f).bankErr = s.bankErr := rfl
@[simp] theorem State.modPwr_cellErr (f : Power → Power) : (s.modPwr f).cellErr = s.cellErr := rfl
@[simp] theorem State.modPwr_tagErr (f : Power → Power) : (s.modPwr f).tagErr = s.tagErr := rfl
@[simp] theorem State.modPwr_ctxErr (f : Power → Power) : (s.modPwr f).ctxErr = s.ctxErr := rfl
@[simp] theorem State.modPwr_dieErr (f : Power → Power) : (s.modPwr f).dieErr = s.dieErr := rfl
@[simp] theorem State.modPwr_meshErr (f : Power → Power) : (s.modPwr f).meshErr = s.meshErr := rfl
@[simp] theorem State.modPwr_flipMax (f : Power → Power) : (s.modPwr f).flipMax = s.flipMax := rfl
@[simp] theorem State.modPwr_topo (f : Power → Power) : (s.modPwr f).topo = s.topo := rfl
@[simp] theorem State.modPwr_plans (f : Power → Power) : (s.modPwr f).plans = s.plans := rfl
@[simp] theorem State.modPwr_poisoned (f : Power → Power) : (s.modPwr f).poisoned = s.poisoned := rfl
@[simp] theorem State.modPwr_colls (f : Power → Power) : (s.modPwr f).colls = s.colls := rfl
@[simp] theorem State.modPwr_ctx (f : Power → Power) : (s.modPwr f).ctx = s.ctx := rfl
@[simp] theorem State.modPwr_idDone (f : Power → Power) : (s.modPwr f).idDone = s.idDone := rfl
@[simp] theorem State.modPwr_landings (f : Power → Power) : (s.modPwr f).landings = s.landings := rfl
@[simp] theorem State.modPwr_kilnMiss (f : Power → Power) : (s.modPwr f).kilnMiss = s.kilnMiss := rfl
@[simp] theorem State.modPwr_links (f : Power → Power) : (s.modPwr f).links = s.links := rfl
@[simp] theorem State.modPwr_arrivals (f : Power → Power) : (s.modPwr f).arrivals = s.arrivals := rfl
@[simp] theorem State.modPwr_nextBody (f : Power → Power) : (s.modPwr f).nextBody = s.nextBody := rfl
@[simp] theorem State.modPwr_voqs (f : Power → Power) : (s.modPwr f).voqs = s.voqs := rfl
@[simp] theorem State.modPwr_voqHwm (f : Power → Power) : (s.modPwr f).voqHwm = s.voqHwm := rfl
@[simp] theorem State.modPwr_outs (f : Power → Power) : (s.modPwr f).outs = s.outs := rfl
@[simp] theorem State.modPwr_delivered (f : Power → Power) : (s.modPwr f).delivered = s.delivered := rfl
@[simp] theorem State.modPwr_injq (f : Power → Power) : (s.modPwr f).injq = s.injq := rfl
@[simp] theorem State.modPwr_throttles (f : Power → Power) : (s.modPwr f).throttles = s.throttles := rfl
@[simp] theorem State.modPwr_psq (f : Power → Power) : (s.modPwr f).psq = s.psq := rfl
@[simp] theorem State.modPwr_requests (f : Power → Power) : (s.modPwr f).requests = s.requests := rfl
@[simp] theorem State.modPwr_filter (f : Power → Power) : (s.modPwr f).filter = s.filter := rfl
@[simp] theorem State.modPwr_recov (f : Power → Power) : (s.modPwr f).recov = s.recov := rfl
@[simp] theorem State.modPwr_testCnt (f : Power → Power) : (s.modPwr f).testCnt = s.testCnt := rfl
@[simp] theorem State.modPwr_testBad (f : Power → Power) : (s.modPwr f).testBad = s.testBad := rfl
@[simp] theorem State.modPwr_spreadBad (f : Power → Power) : (s.modPwr f).spreadBad = s.spreadBad := rfl
@[simp] theorem State.modPwr_cells (f : Power → Power) : (s.modPwr f).cells = s.cells := rfl
@[simp] theorem State.modPwr_suspects (f : Power → Power) : (s.modPwr f).suspects = s.suspects := rfl
@[simp] theorem State.modPwr_notes (f : Power → Power) : (s.modPwr f).notes = s.notes := rfl
@[simp] theorem State.modPwr_rseq (f : Power → Power) : (s.modPwr f).rseq = s.rseq := rfl
@[simp] theorem State.modPwr_mirror (f : Power → Power) : (s.modPwr f).mirror = s.mirror := rfl
@[simp] theorem State.modPwr_stepTable (f : Power → Power) : (s.modPwr f).stepTable = s.stepTable := rfl
@[simp] theorem State.modPwr_queues (f : Power → Power) : (s.modPwr f).queues = s.queues := rfl
@[simp] theorem State.modPwr_subWords (f : Power → Power) : (s.modPwr f).subWords = s.subWords := rfl
@[simp] theorem State.modPwr_qOff (f : Power → Power) : (s.modPwr f).qOff = s.qOff := rfl
@[simp] theorem State.modPwr_runs (f : Power → Power) : (s.modPwr f).runs = s.runs := rfl
@[simp] theorem State.modPwr_rrq (f : Power → Power) : (s.modPwr f).rrq = s.rrq := rfl
@[simp] theorem State.modPwr_mgmtSeen (f : Power → Power) : (s.modPwr f).mgmtSeen = s.mgmtSeen := rfl
@[simp] theorem State.modPwr_ringWait (f : Power → Power) : (s.modPwr f).ringWait = s.ringWait := rfl
@[simp] theorem State.modPwr_ringSeq (f : Power → Power) : (s.modPwr f).ringSeq = s.ringSeq := rfl
@[simp] theorem State.modPwr_hbAt (f : Power → Power) : (s.modPwr f).hbAt = s.hbAt := rfl
@[simp] theorem State.modPwr_orphanStop (f : Power → Power) : (s.modPwr f).orphanStop = s.orphanStop := rfl
@[simp] theorem State.modPwr_started (f : Power → Power) : (s.modPwr f).started = s.started := rfl
@[simp] theorem State.modPwr_procs (f : Power → Power) : (s.modPwr f).procs = s.procs := rfl
@[simp] theorem State.modPwr_defers (f : Power → Power) : (s.modPwr f).defers = s.defers := rfl
@[simp] theorem State.modPwr_deferRuns (f : Power → Power) : (s.modPwr f).deferRuns = s.deferRuns := rfl
@[simp] theorem State.modPwr_clWait (f : Power → Power) : (s.modPwr f).clWait = s.clWait := rfl
@[simp] theorem State.modPwr_imgTimer (f : Power → Power) : (s.modPwr f).imgTimer = s.imgTimer := rfl
@[simp] theorem State.modPwr_imgAllow (f : Power → Power) : (s.modPwr f).imgAllow = s.imgAllow := rfl
@[simp] theorem State.modPwr_emergClearAt (f : Power → Power) : (s.modPwr f).emergClearAt = s.emergClearAt := rfl
@[simp] theorem State.modPwr_logQ (f : Power → Power) : (s.modPwr f).logQ = s.logQ := rfl
@[simp] theorem State.modPwr_logDrops (f : Power → Power) : (s.modPwr f).logDrops = s.logDrops := rfl
@[simp] theorem State.modPwr_held32 (f : Power → Power) : (s.modPwr f).held32 = s.held32 := rfl
@[simp] theorem State.modPwr_bus (f : Power → Power) : (s.modPwr f).bus = s.bus := rfl
@[simp] theorem State.modPwr_origin (f : Power → Power) : (s.modPwr f).origin = s.origin := rfl
@[simp] theorem State.modPwr_layers (f : Power → Power) : (s.modPwr f).layers = s.layers := rfl
@[simp] theorem State.modPwr_hbm (f : Power → Power) : (s.modPwr f).hbm = s.hbm := rfl
@[simp] theorem State.modPwr_sec (f : Power → Power) : (s.modPwr f).sec = s.sec := rfl
@[simp] theorem State.modPwr_mgmt (f : Power → Power) : (s.modPwr f).mgmt = s.mgmt := rfl
@[simp] theorem State.modPwr_img (f : Power → Power) : (s.modPwr f).img = s.img := rfl
@[simp] theorem State.modPwr_power (f : Power → Power) : (s.modPwr f).power = f s.power := rfl
@[simp] theorem State.modPwr_fenceReq (f : Power → Power) : (s.modPwr f).fenceReq = s.fenceReq := rfl

/-! ### State.modSec -/

@[simp] theorem State.modSec_pending (f : Sec → Sec) : (s.modSec f).pending = s.pending := rfl
@[simp] theorem State.modSec_free (f : Sec → Sec) : (s.modSec f).free = s.free := rfl
@[simp] theorem State.modSec_regs (f : Sec → Sec) : (s.modSec f).regs = s.regs := rfl
@[simp] theorem State.modSec_cone (f : Sec → Sec) : (s.modSec f).cone = s.cone := rfl
@[simp] theorem State.modSec_coneFrac (f : Sec → Sec) : (s.modSec f).coneFrac = s.coneFrac := rfl
@[simp] theorem State.modSec_coneSlew (f : Sec → Sec) : (s.modSec f).coneSlew = s.coneSlew := rfl
@[simp] theorem State.modSec_coneGood (f : Sec → Sec) : (s.modSec f).coneGood = s.coneGood := rfl
@[simp] theorem State.modSec_clusters (f : Sec → Sec) : (s.modSec f).clusters = s.clusters := rfl
@[simp] theorem State.modSec_mem (f : Sec → Sec) : (s.modSec f).mem = s.mem := rfl
@[simp] theorem State.modSec_memErr (f : Sec → Sec) : (s.modSec f).memErr = s.memErr := rfl
@[simp] theorem State.modSec_poolMem (f : Sec → Sec) : (s.modSec f).poolMem = s.poolMem := rfl
@[simp] theorem State.modSec_flash (f : Sec → Sec) : (s.modSec f).flash = s.flash := rfl
@[simp] theorem State.modSec_hbmKey (f : Sec → Sec) : (s.modSec f).hbmKey = s.hbmKey := rfl
@[simp] theorem State.modSec_acc (f : Sec → Sec) : (s.modSec f).acc = s.acc := rfl
@[simp] theorem State.modSec_tblErr (f : Sec → Sec) : (s.modSec f).tblErr = s.tblErr := rfl
@[simp] theorem State.modSec_accWait (f : Sec → Sec) : (s.modSec f).accWait = s.accWait := rfl
@[simp] theorem State.modSec_bankA (f : Sec → Sec) : (s.modSec f).bankA = s.bankA := rfl
@[simp] theorem State.modSec_bankB (f : Sec → Sec) : (s.modSec f).bankB = s.bankB := rfl
@[simp] theorem State.modSec_bankErr (f : Sec → Sec) : (s.modSec f).bankErr = s.bankErr := rfl
@[simp] theorem State.modSec_cellErr (f : Sec → Sec) : (s.modSec f).cellErr = s.cellErr := rfl
@[simp] theorem State.modSec_tagErr (f : Sec → Sec) : (s.modSec f).tagErr = s.tagErr := rfl
@[simp] theorem State.modSec_ctxErr (f : Sec → Sec) : (s.modSec f).ctxErr = s.ctxErr := rfl
@[simp] theorem State.modSec_dieErr (f : Sec → Sec) : (s.modSec f).dieErr = s.dieErr := rfl
@[simp] theorem State.modSec_meshErr (f : Sec → Sec) : (s.modSec f).meshErr = s.meshErr := rfl
@[simp] theorem State.modSec_flipMax (f : Sec → Sec) : (s.modSec f).flipMax = s.flipMax := rfl
@[simp] theorem State.modSec_topo (f : Sec → Sec) : (s.modSec f).topo = s.topo := rfl
@[simp] theorem State.modSec_plans (f : Sec → Sec) : (s.modSec f).plans = s.plans := rfl
@[simp] theorem State.modSec_poisoned (f : Sec → Sec) : (s.modSec f).poisoned = s.poisoned := rfl
@[simp] theorem State.modSec_colls (f : Sec → Sec) : (s.modSec f).colls = s.colls := rfl
@[simp] theorem State.modSec_ctx (f : Sec → Sec) : (s.modSec f).ctx = s.ctx := rfl
@[simp] theorem State.modSec_idDone (f : Sec → Sec) : (s.modSec f).idDone = s.idDone := rfl
@[simp] theorem State.modSec_landings (f : Sec → Sec) : (s.modSec f).landings = s.landings := rfl
@[simp] theorem State.modSec_kilnMiss (f : Sec → Sec) : (s.modSec f).kilnMiss = s.kilnMiss := rfl
@[simp] theorem State.modSec_links (f : Sec → Sec) : (s.modSec f).links = s.links := rfl
@[simp] theorem State.modSec_arrivals (f : Sec → Sec) : (s.modSec f).arrivals = s.arrivals := rfl
@[simp] theorem State.modSec_nextBody (f : Sec → Sec) : (s.modSec f).nextBody = s.nextBody := rfl
@[simp] theorem State.modSec_voqs (f : Sec → Sec) : (s.modSec f).voqs = s.voqs := rfl
@[simp] theorem State.modSec_voqHwm (f : Sec → Sec) : (s.modSec f).voqHwm = s.voqHwm := rfl
@[simp] theorem State.modSec_outs (f : Sec → Sec) : (s.modSec f).outs = s.outs := rfl
@[simp] theorem State.modSec_delivered (f : Sec → Sec) : (s.modSec f).delivered = s.delivered := rfl
@[simp] theorem State.modSec_injq (f : Sec → Sec) : (s.modSec f).injq = s.injq := rfl
@[simp] theorem State.modSec_throttles (f : Sec → Sec) : (s.modSec f).throttles = s.throttles := rfl
@[simp] theorem State.modSec_psq (f : Sec → Sec) : (s.modSec f).psq = s.psq := rfl
@[simp] theorem State.modSec_requests (f : Sec → Sec) : (s.modSec f).requests = s.requests := rfl
@[simp] theorem State.modSec_filter (f : Sec → Sec) : (s.modSec f).filter = s.filter := rfl
@[simp] theorem State.modSec_recov (f : Sec → Sec) : (s.modSec f).recov = s.recov := rfl
@[simp] theorem State.modSec_testCnt (f : Sec → Sec) : (s.modSec f).testCnt = s.testCnt := rfl
@[simp] theorem State.modSec_testBad (f : Sec → Sec) : (s.modSec f).testBad = s.testBad := rfl
@[simp] theorem State.modSec_spreadBad (f : Sec → Sec) : (s.modSec f).spreadBad = s.spreadBad := rfl
@[simp] theorem State.modSec_cells (f : Sec → Sec) : (s.modSec f).cells = s.cells := rfl
@[simp] theorem State.modSec_suspects (f : Sec → Sec) : (s.modSec f).suspects = s.suspects := rfl
@[simp] theorem State.modSec_notes (f : Sec → Sec) : (s.modSec f).notes = s.notes := rfl
@[simp] theorem State.modSec_rseq (f : Sec → Sec) : (s.modSec f).rseq = s.rseq := rfl
@[simp] theorem State.modSec_mirror (f : Sec → Sec) : (s.modSec f).mirror = s.mirror := rfl
@[simp] theorem State.modSec_stepTable (f : Sec → Sec) : (s.modSec f).stepTable = s.stepTable := rfl
@[simp] theorem State.modSec_queues (f : Sec → Sec) : (s.modSec f).queues = s.queues := rfl
@[simp] theorem State.modSec_subWords (f : Sec → Sec) : (s.modSec f).subWords = s.subWords := rfl
@[simp] theorem State.modSec_qOff (f : Sec → Sec) : (s.modSec f).qOff = s.qOff := rfl
@[simp] theorem State.modSec_runs (f : Sec → Sec) : (s.modSec f).runs = s.runs := rfl
@[simp] theorem State.modSec_rrq (f : Sec → Sec) : (s.modSec f).rrq = s.rrq := rfl
@[simp] theorem State.modSec_mgmtSeen (f : Sec → Sec) : (s.modSec f).mgmtSeen = s.mgmtSeen := rfl
@[simp] theorem State.modSec_ringWait (f : Sec → Sec) : (s.modSec f).ringWait = s.ringWait := rfl
@[simp] theorem State.modSec_ringSeq (f : Sec → Sec) : (s.modSec f).ringSeq = s.ringSeq := rfl
@[simp] theorem State.modSec_hbAt (f : Sec → Sec) : (s.modSec f).hbAt = s.hbAt := rfl
@[simp] theorem State.modSec_orphanStop (f : Sec → Sec) : (s.modSec f).orphanStop = s.orphanStop := rfl
@[simp] theorem State.modSec_started (f : Sec → Sec) : (s.modSec f).started = s.started := rfl
@[simp] theorem State.modSec_procs (f : Sec → Sec) : (s.modSec f).procs = s.procs := rfl
@[simp] theorem State.modSec_defers (f : Sec → Sec) : (s.modSec f).defers = s.defers := rfl
@[simp] theorem State.modSec_deferRuns (f : Sec → Sec) : (s.modSec f).deferRuns = s.deferRuns := rfl
@[simp] theorem State.modSec_clWait (f : Sec → Sec) : (s.modSec f).clWait = s.clWait := rfl
@[simp] theorem State.modSec_imgTimer (f : Sec → Sec) : (s.modSec f).imgTimer = s.imgTimer := rfl
@[simp] theorem State.modSec_imgAllow (f : Sec → Sec) : (s.modSec f).imgAllow = s.imgAllow := rfl
@[simp] theorem State.modSec_emergClearAt (f : Sec → Sec) : (s.modSec f).emergClearAt = s.emergClearAt := rfl
@[simp] theorem State.modSec_logQ (f : Sec → Sec) : (s.modSec f).logQ = s.logQ := rfl
@[simp] theorem State.modSec_logDrops (f : Sec → Sec) : (s.modSec f).logDrops = s.logDrops := rfl
@[simp] theorem State.modSec_held32 (f : Sec → Sec) : (s.modSec f).held32 = s.held32 := rfl
@[simp] theorem State.modSec_bus (f : Sec → Sec) : (s.modSec f).bus = s.bus := rfl
@[simp] theorem State.modSec_origin (f : Sec → Sec) : (s.modSec f).origin = s.origin := rfl
@[simp] theorem State.modSec_layers (f : Sec → Sec) : (s.modSec f).layers = s.layers := rfl
@[simp] theorem State.modSec_hbm (f : Sec → Sec) : (s.modSec f).hbm = s.hbm := rfl
@[simp] theorem State.modSec_sec (f : Sec → Sec) : (s.modSec f).sec = f s.sec := rfl
@[simp] theorem State.modSec_mgmt (f : Sec → Sec) : (s.modSec f).mgmt = s.mgmt := rfl
@[simp] theorem State.modSec_img (f : Sec → Sec) : (s.modSec f).img = s.img := rfl
@[simp] theorem State.modSec_power (f : Sec → Sec) : (s.modSec f).power = s.power := rfl
@[simp] theorem State.modSec_fenceReq (f : Sec → Sec) : (s.modSec f).fenceReq = s.fenceReq := rfl

/-! ### State.modMgmt -/

@[simp] theorem State.modMgmt_pending (f : Mgmt → Mgmt) : (s.modMgmt f).pending = s.pending := rfl
@[simp] theorem State.modMgmt_free (f : Mgmt → Mgmt) : (s.modMgmt f).free = s.free := rfl
@[simp] theorem State.modMgmt_regs (f : Mgmt → Mgmt) : (s.modMgmt f).regs = s.regs := rfl
@[simp] theorem State.modMgmt_cone (f : Mgmt → Mgmt) : (s.modMgmt f).cone = s.cone := rfl
@[simp] theorem State.modMgmt_coneFrac (f : Mgmt → Mgmt) : (s.modMgmt f).coneFrac = s.coneFrac := rfl
@[simp] theorem State.modMgmt_coneSlew (f : Mgmt → Mgmt) : (s.modMgmt f).coneSlew = s.coneSlew := rfl
@[simp] theorem State.modMgmt_coneGood (f : Mgmt → Mgmt) : (s.modMgmt f).coneGood = s.coneGood := rfl
@[simp] theorem State.modMgmt_clusters (f : Mgmt → Mgmt) : (s.modMgmt f).clusters = s.clusters := rfl
@[simp] theorem State.modMgmt_mem (f : Mgmt → Mgmt) : (s.modMgmt f).mem = s.mem := rfl
@[simp] theorem State.modMgmt_memErr (f : Mgmt → Mgmt) : (s.modMgmt f).memErr = s.memErr := rfl
@[simp] theorem State.modMgmt_poolMem (f : Mgmt → Mgmt) : (s.modMgmt f).poolMem = s.poolMem := rfl
@[simp] theorem State.modMgmt_flash (f : Mgmt → Mgmt) : (s.modMgmt f).flash = s.flash := rfl
@[simp] theorem State.modMgmt_hbmKey (f : Mgmt → Mgmt) : (s.modMgmt f).hbmKey = s.hbmKey := rfl
@[simp] theorem State.modMgmt_acc (f : Mgmt → Mgmt) : (s.modMgmt f).acc = s.acc := rfl
@[simp] theorem State.modMgmt_tblErr (f : Mgmt → Mgmt) : (s.modMgmt f).tblErr = s.tblErr := rfl
@[simp] theorem State.modMgmt_accWait (f : Mgmt → Mgmt) : (s.modMgmt f).accWait = s.accWait := rfl
@[simp] theorem State.modMgmt_bankA (f : Mgmt → Mgmt) : (s.modMgmt f).bankA = s.bankA := rfl
@[simp] theorem State.modMgmt_bankB (f : Mgmt → Mgmt) : (s.modMgmt f).bankB = s.bankB := rfl
@[simp] theorem State.modMgmt_bankErr (f : Mgmt → Mgmt) : (s.modMgmt f).bankErr = s.bankErr := rfl
@[simp] theorem State.modMgmt_cellErr (f : Mgmt → Mgmt) : (s.modMgmt f).cellErr = s.cellErr := rfl
@[simp] theorem State.modMgmt_tagErr (f : Mgmt → Mgmt) : (s.modMgmt f).tagErr = s.tagErr := rfl
@[simp] theorem State.modMgmt_ctxErr (f : Mgmt → Mgmt) : (s.modMgmt f).ctxErr = s.ctxErr := rfl
@[simp] theorem State.modMgmt_dieErr (f : Mgmt → Mgmt) : (s.modMgmt f).dieErr = s.dieErr := rfl
@[simp] theorem State.modMgmt_meshErr (f : Mgmt → Mgmt) : (s.modMgmt f).meshErr = s.meshErr := rfl
@[simp] theorem State.modMgmt_flipMax (f : Mgmt → Mgmt) : (s.modMgmt f).flipMax = s.flipMax := rfl
@[simp] theorem State.modMgmt_topo (f : Mgmt → Mgmt) : (s.modMgmt f).topo = s.topo := rfl
@[simp] theorem State.modMgmt_plans (f : Mgmt → Mgmt) : (s.modMgmt f).plans = s.plans := rfl
@[simp] theorem State.modMgmt_poisoned (f : Mgmt → Mgmt) : (s.modMgmt f).poisoned = s.poisoned := rfl
@[simp] theorem State.modMgmt_colls (f : Mgmt → Mgmt) : (s.modMgmt f).colls = s.colls := rfl
@[simp] theorem State.modMgmt_ctx (f : Mgmt → Mgmt) : (s.modMgmt f).ctx = s.ctx := rfl
@[simp] theorem State.modMgmt_idDone (f : Mgmt → Mgmt) : (s.modMgmt f).idDone = s.idDone := rfl
@[simp] theorem State.modMgmt_landings (f : Mgmt → Mgmt) : (s.modMgmt f).landings = s.landings := rfl
@[simp] theorem State.modMgmt_kilnMiss (f : Mgmt → Mgmt) : (s.modMgmt f).kilnMiss = s.kilnMiss := rfl
@[simp] theorem State.modMgmt_links (f : Mgmt → Mgmt) : (s.modMgmt f).links = s.links := rfl
@[simp] theorem State.modMgmt_arrivals (f : Mgmt → Mgmt) : (s.modMgmt f).arrivals = s.arrivals := rfl
@[simp] theorem State.modMgmt_nextBody (f : Mgmt → Mgmt) : (s.modMgmt f).nextBody = s.nextBody := rfl
@[simp] theorem State.modMgmt_voqs (f : Mgmt → Mgmt) : (s.modMgmt f).voqs = s.voqs := rfl
@[simp] theorem State.modMgmt_voqHwm (f : Mgmt → Mgmt) : (s.modMgmt f).voqHwm = s.voqHwm := rfl
@[simp] theorem State.modMgmt_outs (f : Mgmt → Mgmt) : (s.modMgmt f).outs = s.outs := rfl
@[simp] theorem State.modMgmt_delivered (f : Mgmt → Mgmt) : (s.modMgmt f).delivered = s.delivered := rfl
@[simp] theorem State.modMgmt_injq (f : Mgmt → Mgmt) : (s.modMgmt f).injq = s.injq := rfl
@[simp] theorem State.modMgmt_throttles (f : Mgmt → Mgmt) : (s.modMgmt f).throttles = s.throttles := rfl
@[simp] theorem State.modMgmt_psq (f : Mgmt → Mgmt) : (s.modMgmt f).psq = s.psq := rfl
@[simp] theorem State.modMgmt_requests (f : Mgmt → Mgmt) : (s.modMgmt f).requests = s.requests := rfl
@[simp] theorem State.modMgmt_filter (f : Mgmt → Mgmt) : (s.modMgmt f).filter = s.filter := rfl
@[simp] theorem State.modMgmt_recov (f : Mgmt → Mgmt) : (s.modMgmt f).recov = s.recov := rfl
@[simp] theorem State.modMgmt_testCnt (f : Mgmt → Mgmt) : (s.modMgmt f).testCnt = s.testCnt := rfl
@[simp] theorem State.modMgmt_testBad (f : Mgmt → Mgmt) : (s.modMgmt f).testBad = s.testBad := rfl
@[simp] theorem State.modMgmt_spreadBad (f : Mgmt → Mgmt) : (s.modMgmt f).spreadBad = s.spreadBad := rfl
@[simp] theorem State.modMgmt_cells (f : Mgmt → Mgmt) : (s.modMgmt f).cells = s.cells := rfl
@[simp] theorem State.modMgmt_suspects (f : Mgmt → Mgmt) : (s.modMgmt f).suspects = s.suspects := rfl
@[simp] theorem State.modMgmt_notes (f : Mgmt → Mgmt) : (s.modMgmt f).notes = s.notes := rfl
@[simp] theorem State.modMgmt_rseq (f : Mgmt → Mgmt) : (s.modMgmt f).rseq = s.rseq := rfl
@[simp] theorem State.modMgmt_mirror (f : Mgmt → Mgmt) : (s.modMgmt f).mirror = s.mirror := rfl
@[simp] theorem State.modMgmt_stepTable (f : Mgmt → Mgmt) : (s.modMgmt f).stepTable = s.stepTable := rfl
@[simp] theorem State.modMgmt_queues (f : Mgmt → Mgmt) : (s.modMgmt f).queues = s.queues := rfl
@[simp] theorem State.modMgmt_subWords (f : Mgmt → Mgmt) : (s.modMgmt f).subWords = s.subWords := rfl
@[simp] theorem State.modMgmt_qOff (f : Mgmt → Mgmt) : (s.modMgmt f).qOff = s.qOff := rfl
@[simp] theorem State.modMgmt_runs (f : Mgmt → Mgmt) : (s.modMgmt f).runs = s.runs := rfl
@[simp] theorem State.modMgmt_rrq (f : Mgmt → Mgmt) : (s.modMgmt f).rrq = s.rrq := rfl
@[simp] theorem State.modMgmt_mgmtSeen (f : Mgmt → Mgmt) : (s.modMgmt f).mgmtSeen = s.mgmtSeen := rfl
@[simp] theorem State.modMgmt_ringWait (f : Mgmt → Mgmt) : (s.modMgmt f).ringWait = s.ringWait := rfl
@[simp] theorem State.modMgmt_ringSeq (f : Mgmt → Mgmt) : (s.modMgmt f).ringSeq = s.ringSeq := rfl
@[simp] theorem State.modMgmt_hbAt (f : Mgmt → Mgmt) : (s.modMgmt f).hbAt = s.hbAt := rfl
@[simp] theorem State.modMgmt_orphanStop (f : Mgmt → Mgmt) : (s.modMgmt f).orphanStop = s.orphanStop := rfl
@[simp] theorem State.modMgmt_started (f : Mgmt → Mgmt) : (s.modMgmt f).started = s.started := rfl
@[simp] theorem State.modMgmt_procs (f : Mgmt → Mgmt) : (s.modMgmt f).procs = s.procs := rfl
@[simp] theorem State.modMgmt_defers (f : Mgmt → Mgmt) : (s.modMgmt f).defers = s.defers := rfl
@[simp] theorem State.modMgmt_deferRuns (f : Mgmt → Mgmt) : (s.modMgmt f).deferRuns = s.deferRuns := rfl
@[simp] theorem State.modMgmt_clWait (f : Mgmt → Mgmt) : (s.modMgmt f).clWait = s.clWait := rfl
@[simp] theorem State.modMgmt_imgTimer (f : Mgmt → Mgmt) : (s.modMgmt f).imgTimer = s.imgTimer := rfl
@[simp] theorem State.modMgmt_imgAllow (f : Mgmt → Mgmt) : (s.modMgmt f).imgAllow = s.imgAllow := rfl
@[simp] theorem State.modMgmt_emergClearAt (f : Mgmt → Mgmt) : (s.modMgmt f).emergClearAt = s.emergClearAt := rfl
@[simp] theorem State.modMgmt_logQ (f : Mgmt → Mgmt) : (s.modMgmt f).logQ = s.logQ := rfl
@[simp] theorem State.modMgmt_logDrops (f : Mgmt → Mgmt) : (s.modMgmt f).logDrops = s.logDrops := rfl
@[simp] theorem State.modMgmt_held32 (f : Mgmt → Mgmt) : (s.modMgmt f).held32 = s.held32 := rfl
@[simp] theorem State.modMgmt_bus (f : Mgmt → Mgmt) : (s.modMgmt f).bus = s.bus := rfl
@[simp] theorem State.modMgmt_origin (f : Mgmt → Mgmt) : (s.modMgmt f).origin = s.origin := rfl
@[simp] theorem State.modMgmt_layers (f : Mgmt → Mgmt) : (s.modMgmt f).layers = s.layers := rfl
@[simp] theorem State.modMgmt_hbm (f : Mgmt → Mgmt) : (s.modMgmt f).hbm = s.hbm := rfl
@[simp] theorem State.modMgmt_sec (f : Mgmt → Mgmt) : (s.modMgmt f).sec = s.sec := rfl
@[simp] theorem State.modMgmt_mgmt (f : Mgmt → Mgmt) : (s.modMgmt f).mgmt = f s.mgmt := rfl
@[simp] theorem State.modMgmt_img (f : Mgmt → Mgmt) : (s.modMgmt f).img = s.img := rfl
@[simp] theorem State.modMgmt_power (f : Mgmt → Mgmt) : (s.modMgmt f).power = s.power := rfl
@[simp] theorem State.modMgmt_fenceReq (f : Mgmt → Mgmt) : (s.modMgmt f).fenceReq = s.fenceReq := rfl

/-! ### State.modMirror -/

@[simp] theorem State.modMirror_pending (f : MirrorEng → MirrorEng) : (s.modMirror f).pending = s.pending := rfl
@[simp] theorem State.modMirror_free (f : MirrorEng → MirrorEng) : (s.modMirror f).free = s.free := rfl
@[simp] theorem State.modMirror_regs (f : MirrorEng → MirrorEng) : (s.modMirror f).regs = s.regs := rfl
@[simp] theorem State.modMirror_cone (f : MirrorEng → MirrorEng) : (s.modMirror f).cone = s.cone := rfl
@[simp] theorem State.modMirror_coneFrac (f : MirrorEng → MirrorEng) : (s.modMirror f).coneFrac = s.coneFrac := rfl
@[simp] theorem State.modMirror_coneSlew (f : MirrorEng → MirrorEng) : (s.modMirror f).coneSlew = s.coneSlew := rfl
@[simp] theorem State.modMirror_coneGood (f : MirrorEng → MirrorEng) : (s.modMirror f).coneGood = s.coneGood := rfl
@[simp] theorem State.modMirror_clusters (f : MirrorEng → MirrorEng) : (s.modMirror f).clusters = s.clusters := rfl
@[simp] theorem State.modMirror_mem (f : MirrorEng → MirrorEng) : (s.modMirror f).mem = s.mem := rfl
@[simp] theorem State.modMirror_memErr (f : MirrorEng → MirrorEng) : (s.modMirror f).memErr = s.memErr := rfl
@[simp] theorem State.modMirror_poolMem (f : MirrorEng → MirrorEng) : (s.modMirror f).poolMem = s.poolMem := rfl
@[simp] theorem State.modMirror_flash (f : MirrorEng → MirrorEng) : (s.modMirror f).flash = s.flash := rfl
@[simp] theorem State.modMirror_hbmKey (f : MirrorEng → MirrorEng) : (s.modMirror f).hbmKey = s.hbmKey := rfl
@[simp] theorem State.modMirror_acc (f : MirrorEng → MirrorEng) : (s.modMirror f).acc = s.acc := rfl
@[simp] theorem State.modMirror_tblErr (f : MirrorEng → MirrorEng) : (s.modMirror f).tblErr = s.tblErr := rfl
@[simp] theorem State.modMirror_accWait (f : MirrorEng → MirrorEng) : (s.modMirror f).accWait = s.accWait := rfl
@[simp] theorem State.modMirror_bankA (f : MirrorEng → MirrorEng) : (s.modMirror f).bankA = s.bankA := rfl
@[simp] theorem State.modMirror_bankB (f : MirrorEng → MirrorEng) : (s.modMirror f).bankB = s.bankB := rfl
@[simp] theorem State.modMirror_bankErr (f : MirrorEng → MirrorEng) : (s.modMirror f).bankErr = s.bankErr := rfl
@[simp] theorem State.modMirror_cellErr (f : MirrorEng → MirrorEng) : (s.modMirror f).cellErr = s.cellErr := rfl
@[simp] theorem State.modMirror_tagErr (f : MirrorEng → MirrorEng) : (s.modMirror f).tagErr = s.tagErr := rfl
@[simp] theorem State.modMirror_ctxErr (f : MirrorEng → MirrorEng) : (s.modMirror f).ctxErr = s.ctxErr := rfl
@[simp] theorem State.modMirror_dieErr (f : MirrorEng → MirrorEng) : (s.modMirror f).dieErr = s.dieErr := rfl
@[simp] theorem State.modMirror_meshErr (f : MirrorEng → MirrorEng) : (s.modMirror f).meshErr = s.meshErr := rfl
@[simp] theorem State.modMirror_flipMax (f : MirrorEng → MirrorEng) : (s.modMirror f).flipMax = s.flipMax := rfl
@[simp] theorem State.modMirror_topo (f : MirrorEng → MirrorEng) : (s.modMirror f).topo = s.topo := rfl
@[simp] theorem State.modMirror_plans (f : MirrorEng → MirrorEng) : (s.modMirror f).plans = s.plans := rfl
@[simp] theorem State.modMirror_poisoned (f : MirrorEng → MirrorEng) : (s.modMirror f).poisoned = s.poisoned := rfl
@[simp] theorem State.modMirror_colls (f : MirrorEng → MirrorEng) : (s.modMirror f).colls = s.colls := rfl
@[simp] theorem State.modMirror_ctx (f : MirrorEng → MirrorEng) : (s.modMirror f).ctx = s.ctx := rfl
@[simp] theorem State.modMirror_idDone (f : MirrorEng → MirrorEng) : (s.modMirror f).idDone = s.idDone := rfl
@[simp] theorem State.modMirror_landings (f : MirrorEng → MirrorEng) : (s.modMirror f).landings = s.landings := rfl
@[simp] theorem State.modMirror_kilnMiss (f : MirrorEng → MirrorEng) : (s.modMirror f).kilnMiss = s.kilnMiss := rfl
@[simp] theorem State.modMirror_links (f : MirrorEng → MirrorEng) : (s.modMirror f).links = s.links := rfl
@[simp] theorem State.modMirror_arrivals (f : MirrorEng → MirrorEng) : (s.modMirror f).arrivals = s.arrivals := rfl
@[simp] theorem State.modMirror_nextBody (f : MirrorEng → MirrorEng) : (s.modMirror f).nextBody = s.nextBody := rfl
@[simp] theorem State.modMirror_voqs (f : MirrorEng → MirrorEng) : (s.modMirror f).voqs = s.voqs := rfl
@[simp] theorem State.modMirror_voqHwm (f : MirrorEng → MirrorEng) : (s.modMirror f).voqHwm = s.voqHwm := rfl
@[simp] theorem State.modMirror_outs (f : MirrorEng → MirrorEng) : (s.modMirror f).outs = s.outs := rfl
@[simp] theorem State.modMirror_delivered (f : MirrorEng → MirrorEng) : (s.modMirror f).delivered = s.delivered := rfl
@[simp] theorem State.modMirror_injq (f : MirrorEng → MirrorEng) : (s.modMirror f).injq = s.injq := rfl
@[simp] theorem State.modMirror_throttles (f : MirrorEng → MirrorEng) : (s.modMirror f).throttles = s.throttles := rfl
@[simp] theorem State.modMirror_psq (f : MirrorEng → MirrorEng) : (s.modMirror f).psq = s.psq := rfl
@[simp] theorem State.modMirror_requests (f : MirrorEng → MirrorEng) : (s.modMirror f).requests = s.requests := rfl
@[simp] theorem State.modMirror_filter (f : MirrorEng → MirrorEng) : (s.modMirror f).filter = s.filter := rfl
@[simp] theorem State.modMirror_recov (f : MirrorEng → MirrorEng) : (s.modMirror f).recov = s.recov := rfl
@[simp] theorem State.modMirror_testCnt (f : MirrorEng → MirrorEng) : (s.modMirror f).testCnt = s.testCnt := rfl
@[simp] theorem State.modMirror_testBad (f : MirrorEng → MirrorEng) : (s.modMirror f).testBad = s.testBad := rfl
@[simp] theorem State.modMirror_spreadBad (f : MirrorEng → MirrorEng) : (s.modMirror f).spreadBad = s.spreadBad := rfl
@[simp] theorem State.modMirror_cells (f : MirrorEng → MirrorEng) : (s.modMirror f).cells = s.cells := rfl
@[simp] theorem State.modMirror_suspects (f : MirrorEng → MirrorEng) : (s.modMirror f).suspects = s.suspects := rfl
@[simp] theorem State.modMirror_notes (f : MirrorEng → MirrorEng) : (s.modMirror f).notes = s.notes := rfl
@[simp] theorem State.modMirror_rseq (f : MirrorEng → MirrorEng) : (s.modMirror f).rseq = s.rseq := rfl
@[simp] theorem State.modMirror_mirror (f : MirrorEng → MirrorEng) : (s.modMirror f).mirror = f s.mirror := rfl
@[simp] theorem State.modMirror_stepTable (f : MirrorEng → MirrorEng) : (s.modMirror f).stepTable = s.stepTable := rfl
@[simp] theorem State.modMirror_queues (f : MirrorEng → MirrorEng) : (s.modMirror f).queues = s.queues := rfl
@[simp] theorem State.modMirror_subWords (f : MirrorEng → MirrorEng) : (s.modMirror f).subWords = s.subWords := rfl
@[simp] theorem State.modMirror_qOff (f : MirrorEng → MirrorEng) : (s.modMirror f).qOff = s.qOff := rfl
@[simp] theorem State.modMirror_runs (f : MirrorEng → MirrorEng) : (s.modMirror f).runs = s.runs := rfl
@[simp] theorem State.modMirror_rrq (f : MirrorEng → MirrorEng) : (s.modMirror f).rrq = s.rrq := rfl
@[simp] theorem State.modMirror_mgmtSeen (f : MirrorEng → MirrorEng) : (s.modMirror f).mgmtSeen = s.mgmtSeen := rfl
@[simp] theorem State.modMirror_ringWait (f : MirrorEng → MirrorEng) : (s.modMirror f).ringWait = s.ringWait := rfl
@[simp] theorem State.modMirror_ringSeq (f : MirrorEng → MirrorEng) : (s.modMirror f).ringSeq = s.ringSeq := rfl
@[simp] theorem State.modMirror_hbAt (f : MirrorEng → MirrorEng) : (s.modMirror f).hbAt = s.hbAt := rfl
@[simp] theorem State.modMirror_orphanStop (f : MirrorEng → MirrorEng) : (s.modMirror f).orphanStop = s.orphanStop := rfl
@[simp] theorem State.modMirror_started (f : MirrorEng → MirrorEng) : (s.modMirror f).started = s.started := rfl
@[simp] theorem State.modMirror_procs (f : MirrorEng → MirrorEng) : (s.modMirror f).procs = s.procs := rfl
@[simp] theorem State.modMirror_defers (f : MirrorEng → MirrorEng) : (s.modMirror f).defers = s.defers := rfl
@[simp] theorem State.modMirror_deferRuns (f : MirrorEng → MirrorEng) : (s.modMirror f).deferRuns = s.deferRuns := rfl
@[simp] theorem State.modMirror_clWait (f : MirrorEng → MirrorEng) : (s.modMirror f).clWait = s.clWait := rfl
@[simp] theorem State.modMirror_imgTimer (f : MirrorEng → MirrorEng) : (s.modMirror f).imgTimer = s.imgTimer := rfl
@[simp] theorem State.modMirror_imgAllow (f : MirrorEng → MirrorEng) : (s.modMirror f).imgAllow = s.imgAllow := rfl
@[simp] theorem State.modMirror_emergClearAt (f : MirrorEng → MirrorEng) : (s.modMirror f).emergClearAt = s.emergClearAt := rfl
@[simp] theorem State.modMirror_logQ (f : MirrorEng → MirrorEng) : (s.modMirror f).logQ = s.logQ := rfl
@[simp] theorem State.modMirror_logDrops (f : MirrorEng → MirrorEng) : (s.modMirror f).logDrops = s.logDrops := rfl
@[simp] theorem State.modMirror_held32 (f : MirrorEng → MirrorEng) : (s.modMirror f).held32 = s.held32 := rfl
@[simp] theorem State.modMirror_bus (f : MirrorEng → MirrorEng) : (s.modMirror f).bus = s.bus := rfl
@[simp] theorem State.modMirror_origin (f : MirrorEng → MirrorEng) : (s.modMirror f).origin = s.origin := rfl
@[simp] theorem State.modMirror_layers (f : MirrorEng → MirrorEng) : (s.modMirror f).layers = s.layers := rfl
@[simp] theorem State.modMirror_hbm (f : MirrorEng → MirrorEng) : (s.modMirror f).hbm = s.hbm := rfl
@[simp] theorem State.modMirror_sec (f : MirrorEng → MirrorEng) : (s.modMirror f).sec = s.sec := rfl
@[simp] theorem State.modMirror_mgmt (f : MirrorEng → MirrorEng) : (s.modMirror f).mgmt = s.mgmt := rfl
@[simp] theorem State.modMirror_img (f : MirrorEng → MirrorEng) : (s.modMirror f).img = s.img := rfl
@[simp] theorem State.modMirror_power (f : MirrorEng → MirrorEng) : (s.modMirror f).power = s.power := rfl
@[simp] theorem State.modMirror_fenceReq (f : MirrorEng → MirrorEng) : (s.modMirror f).fenceReq = s.fenceReq := rfl

/-! ### State.setOut -/

@[simp] theorem State.setOut_pending (o : Nat) (p : OutPort) : (s.setOut o p).pending = s.pending := rfl
@[simp] theorem State.setOut_free (o : Nat) (p : OutPort) : (s.setOut o p).free = s.free := rfl
@[simp] theorem State.setOut_regs (o : Nat) (p : OutPort) : (s.setOut o p).regs = s.regs := rfl
@[simp] theorem State.setOut_cone (o : Nat) (p : OutPort) : (s.setOut o p).cone = s.cone := rfl
@[simp] theorem State.setOut_coneFrac (o : Nat) (p : OutPort) : (s.setOut o p).coneFrac = s.coneFrac := rfl
@[simp] theorem State.setOut_coneSlew (o : Nat) (p : OutPort) : (s.setOut o p).coneSlew = s.coneSlew := rfl
@[simp] theorem State.setOut_coneGood (o : Nat) (p : OutPort) : (s.setOut o p).coneGood = s.coneGood := rfl
@[simp] theorem State.setOut_clusters (o : Nat) (p : OutPort) : (s.setOut o p).clusters = s.clusters := rfl
@[simp] theorem State.setOut_mem (o : Nat) (p : OutPort) : (s.setOut o p).mem = s.mem := rfl
@[simp] theorem State.setOut_memErr (o : Nat) (p : OutPort) : (s.setOut o p).memErr = s.memErr := rfl
@[simp] theorem State.setOut_poolMem (o : Nat) (p : OutPort) : (s.setOut o p).poolMem = s.poolMem := rfl
@[simp] theorem State.setOut_flash (o : Nat) (p : OutPort) : (s.setOut o p).flash = s.flash := rfl
@[simp] theorem State.setOut_hbmKey (o : Nat) (p : OutPort) : (s.setOut o p).hbmKey = s.hbmKey := rfl
@[simp] theorem State.setOut_acc (o : Nat) (p : OutPort) : (s.setOut o p).acc = s.acc := rfl
@[simp] theorem State.setOut_tblErr (o : Nat) (p : OutPort) : (s.setOut o p).tblErr = s.tblErr := rfl
@[simp] theorem State.setOut_accWait (o : Nat) (p : OutPort) : (s.setOut o p).accWait = s.accWait := rfl
@[simp] theorem State.setOut_bankA (o : Nat) (p : OutPort) : (s.setOut o p).bankA = s.bankA := rfl
@[simp] theorem State.setOut_bankB (o : Nat) (p : OutPort) : (s.setOut o p).bankB = s.bankB := rfl
@[simp] theorem State.setOut_bankErr (o : Nat) (p : OutPort) : (s.setOut o p).bankErr = s.bankErr := rfl
@[simp] theorem State.setOut_cellErr (o : Nat) (p : OutPort) : (s.setOut o p).cellErr = s.cellErr := rfl
@[simp] theorem State.setOut_tagErr (o : Nat) (p : OutPort) : (s.setOut o p).tagErr = s.tagErr := rfl
@[simp] theorem State.setOut_ctxErr (o : Nat) (p : OutPort) : (s.setOut o p).ctxErr = s.ctxErr := rfl
@[simp] theorem State.setOut_dieErr (o : Nat) (p : OutPort) : (s.setOut o p).dieErr = s.dieErr := rfl
@[simp] theorem State.setOut_meshErr (o : Nat) (p : OutPort) : (s.setOut o p).meshErr = s.meshErr := rfl
@[simp] theorem State.setOut_flipMax (o : Nat) (p : OutPort) : (s.setOut o p).flipMax = s.flipMax := rfl
@[simp] theorem State.setOut_topo (o : Nat) (p : OutPort) : (s.setOut o p).topo = s.topo := rfl
@[simp] theorem State.setOut_plans (o : Nat) (p : OutPort) : (s.setOut o p).plans = s.plans := rfl
@[simp] theorem State.setOut_poisoned (o : Nat) (p : OutPort) : (s.setOut o p).poisoned = s.poisoned := rfl
@[simp] theorem State.setOut_colls (o : Nat) (p : OutPort) : (s.setOut o p).colls = s.colls := rfl
@[simp] theorem State.setOut_ctx (o : Nat) (p : OutPort) : (s.setOut o p).ctx = s.ctx := rfl
@[simp] theorem State.setOut_idDone (o : Nat) (p : OutPort) : (s.setOut o p).idDone = s.idDone := rfl
@[simp] theorem State.setOut_landings (o : Nat) (p : OutPort) : (s.setOut o p).landings = s.landings := rfl
@[simp] theorem State.setOut_kilnMiss (o : Nat) (p : OutPort) : (s.setOut o p).kilnMiss = s.kilnMiss := rfl
@[simp] theorem State.setOut_links (o : Nat) (p : OutPort) : (s.setOut o p).links = s.links := rfl
@[simp] theorem State.setOut_arrivals (o : Nat) (p : OutPort) : (s.setOut o p).arrivals = s.arrivals := rfl
@[simp] theorem State.setOut_nextBody (o : Nat) (p : OutPort) : (s.setOut o p).nextBody = s.nextBody := rfl
@[simp] theorem State.setOut_voqs (o : Nat) (p : OutPort) : (s.setOut o p).voqs = s.voqs := rfl
@[simp] theorem State.setOut_voqHwm (o : Nat) (p : OutPort) : (s.setOut o p).voqHwm = s.voqHwm := rfl
@[simp] theorem State.setOut_outs (o : Nat) (p : OutPort) : (s.setOut o p).outs = s.outs.set OutPort.reset o p := rfl
@[simp] theorem State.setOut_delivered (o : Nat) (p : OutPort) : (s.setOut o p).delivered = s.delivered := rfl
@[simp] theorem State.setOut_injq (o : Nat) (p : OutPort) : (s.setOut o p).injq = s.injq := rfl
@[simp] theorem State.setOut_throttles (o : Nat) (p : OutPort) : (s.setOut o p).throttles = s.throttles := rfl
@[simp] theorem State.setOut_psq (o : Nat) (p : OutPort) : (s.setOut o p).psq = s.psq := rfl
@[simp] theorem State.setOut_requests (o : Nat) (p : OutPort) : (s.setOut o p).requests = s.requests := rfl
@[simp] theorem State.setOut_filter (o : Nat) (p : OutPort) : (s.setOut o p).filter = s.filter := rfl
@[simp] theorem State.setOut_recov (o : Nat) (p : OutPort) : (s.setOut o p).recov = s.recov := rfl
@[simp] theorem State.setOut_testCnt (o : Nat) (p : OutPort) : (s.setOut o p).testCnt = s.testCnt := rfl
@[simp] theorem State.setOut_testBad (o : Nat) (p : OutPort) : (s.setOut o p).testBad = s.testBad := rfl
@[simp] theorem State.setOut_spreadBad (o : Nat) (p : OutPort) : (s.setOut o p).spreadBad = s.spreadBad := rfl
@[simp] theorem State.setOut_cells (o : Nat) (p : OutPort) : (s.setOut o p).cells = s.cells := rfl
@[simp] theorem State.setOut_suspects (o : Nat) (p : OutPort) : (s.setOut o p).suspects = s.suspects := rfl
@[simp] theorem State.setOut_notes (o : Nat) (p : OutPort) : (s.setOut o p).notes = s.notes := rfl
@[simp] theorem State.setOut_rseq (o : Nat) (p : OutPort) : (s.setOut o p).rseq = s.rseq := rfl
@[simp] theorem State.setOut_mirror (o : Nat) (p : OutPort) : (s.setOut o p).mirror = s.mirror := rfl
@[simp] theorem State.setOut_stepTable (o : Nat) (p : OutPort) : (s.setOut o p).stepTable = s.stepTable := rfl
@[simp] theorem State.setOut_queues (o : Nat) (p : OutPort) : (s.setOut o p).queues = s.queues := rfl
@[simp] theorem State.setOut_subWords (o : Nat) (p : OutPort) : (s.setOut o p).subWords = s.subWords := rfl
@[simp] theorem State.setOut_qOff (o : Nat) (p : OutPort) : (s.setOut o p).qOff = s.qOff := rfl
@[simp] theorem State.setOut_runs (o : Nat) (p : OutPort) : (s.setOut o p).runs = s.runs := rfl
@[simp] theorem State.setOut_rrq (o : Nat) (p : OutPort) : (s.setOut o p).rrq = s.rrq := rfl
@[simp] theorem State.setOut_mgmtSeen (o : Nat) (p : OutPort) : (s.setOut o p).mgmtSeen = s.mgmtSeen := rfl
@[simp] theorem State.setOut_ringWait (o : Nat) (p : OutPort) : (s.setOut o p).ringWait = s.ringWait := rfl
@[simp] theorem State.setOut_ringSeq (o : Nat) (p : OutPort) : (s.setOut o p).ringSeq = s.ringSeq := rfl
@[simp] theorem State.setOut_hbAt (o : Nat) (p : OutPort) : (s.setOut o p).hbAt = s.hbAt := rfl
@[simp] theorem State.setOut_orphanStop (o : Nat) (p : OutPort) : (s.setOut o p).orphanStop = s.orphanStop := rfl
@[simp] theorem State.setOut_started (o : Nat) (p : OutPort) : (s.setOut o p).started = s.started := rfl
@[simp] theorem State.setOut_procs (o : Nat) (p : OutPort) : (s.setOut o p).procs = s.procs := rfl
@[simp] theorem State.setOut_defers (o : Nat) (p : OutPort) : (s.setOut o p).defers = s.defers := rfl
@[simp] theorem State.setOut_deferRuns (o : Nat) (p : OutPort) : (s.setOut o p).deferRuns = s.deferRuns := rfl
@[simp] theorem State.setOut_clWait (o : Nat) (p : OutPort) : (s.setOut o p).clWait = s.clWait := rfl
@[simp] theorem State.setOut_imgTimer (o : Nat) (p : OutPort) : (s.setOut o p).imgTimer = s.imgTimer := rfl
@[simp] theorem State.setOut_imgAllow (o : Nat) (p : OutPort) : (s.setOut o p).imgAllow = s.imgAllow := rfl
@[simp] theorem State.setOut_emergClearAt (o : Nat) (p : OutPort) : (s.setOut o p).emergClearAt = s.emergClearAt := rfl
@[simp] theorem State.setOut_logQ (o : Nat) (p : OutPort) : (s.setOut o p).logQ = s.logQ := rfl
@[simp] theorem State.setOut_logDrops (o : Nat) (p : OutPort) : (s.setOut o p).logDrops = s.logDrops := rfl
@[simp] theorem State.setOut_held32 (o : Nat) (p : OutPort) : (s.setOut o p).held32 = s.held32 := rfl
@[simp] theorem State.setOut_bus (o : Nat) (p : OutPort) : (s.setOut o p).bus = s.bus := rfl
@[simp] theorem State.setOut_origin (o : Nat) (p : OutPort) : (s.setOut o p).origin = s.origin := rfl
@[simp] theorem State.setOut_layers (o : Nat) (p : OutPort) : (s.setOut o p).layers = s.layers := rfl
@[simp] theorem State.setOut_hbm (o : Nat) (p : OutPort) : (s.setOut o p).hbm = s.hbm := rfl
@[simp] theorem State.setOut_sec (o : Nat) (p : OutPort) : (s.setOut o p).sec = s.sec := rfl
@[simp] theorem State.setOut_mgmt (o : Nat) (p : OutPort) : (s.setOut o p).mgmt = s.mgmt := rfl
@[simp] theorem State.setOut_img (o : Nat) (p : OutPort) : (s.setOut o p).img = s.img := rfl
@[simp] theorem State.setOut_power (o : Nat) (p : OutPort) : (s.setOut o p).power = s.power := rfl
@[simp] theorem State.setOut_fenceReq (o : Nat) (p : OutPort) : (s.setOut o p).fenceReq = s.fenceReq := rfl

/-! ### State.setProc -/

@[simp] theorem State.setProc_pending (p : Proc) (v : ProcSt) : (s.setProc p v).pending = s.pending := rfl
@[simp] theorem State.setProc_free (p : Proc) (v : ProcSt) : (s.setProc p v).free = s.free := rfl
@[simp] theorem State.setProc_regs (p : Proc) (v : ProcSt) : (s.setProc p v).regs = s.regs := rfl
@[simp] theorem State.setProc_cone (p : Proc) (v : ProcSt) : (s.setProc p v).cone = s.cone := rfl
@[simp] theorem State.setProc_coneFrac (p : Proc) (v : ProcSt) : (s.setProc p v).coneFrac = s.coneFrac := rfl
@[simp] theorem State.setProc_coneSlew (p : Proc) (v : ProcSt) : (s.setProc p v).coneSlew = s.coneSlew := rfl
@[simp] theorem State.setProc_coneGood (p : Proc) (v : ProcSt) : (s.setProc p v).coneGood = s.coneGood := rfl
@[simp] theorem State.setProc_clusters (p : Proc) (v : ProcSt) : (s.setProc p v).clusters = s.clusters := rfl
@[simp] theorem State.setProc_mem (p : Proc) (v : ProcSt) : (s.setProc p v).mem = s.mem := rfl
@[simp] theorem State.setProc_memErr (p : Proc) (v : ProcSt) : (s.setProc p v).memErr = s.memErr := rfl
@[simp] theorem State.setProc_poolMem (p : Proc) (v : ProcSt) : (s.setProc p v).poolMem = s.poolMem := rfl
@[simp] theorem State.setProc_flash (p : Proc) (v : ProcSt) : (s.setProc p v).flash = s.flash := rfl
@[simp] theorem State.setProc_hbmKey (p : Proc) (v : ProcSt) : (s.setProc p v).hbmKey = s.hbmKey := rfl
@[simp] theorem State.setProc_acc (p : Proc) (v : ProcSt) : (s.setProc p v).acc = s.acc := rfl
@[simp] theorem State.setProc_tblErr (p : Proc) (v : ProcSt) : (s.setProc p v).tblErr = s.tblErr := rfl
@[simp] theorem State.setProc_accWait (p : Proc) (v : ProcSt) : (s.setProc p v).accWait = s.accWait := rfl
@[simp] theorem State.setProc_bankA (p : Proc) (v : ProcSt) : (s.setProc p v).bankA = s.bankA := rfl
@[simp] theorem State.setProc_bankB (p : Proc) (v : ProcSt) : (s.setProc p v).bankB = s.bankB := rfl
@[simp] theorem State.setProc_bankErr (p : Proc) (v : ProcSt) : (s.setProc p v).bankErr = s.bankErr := rfl
@[simp] theorem State.setProc_cellErr (p : Proc) (v : ProcSt) : (s.setProc p v).cellErr = s.cellErr := rfl
@[simp] theorem State.setProc_tagErr (p : Proc) (v : ProcSt) : (s.setProc p v).tagErr = s.tagErr := rfl
@[simp] theorem State.setProc_ctxErr (p : Proc) (v : ProcSt) : (s.setProc p v).ctxErr = s.ctxErr := rfl
@[simp] theorem State.setProc_dieErr (p : Proc) (v : ProcSt) : (s.setProc p v).dieErr = s.dieErr := rfl
@[simp] theorem State.setProc_meshErr (p : Proc) (v : ProcSt) : (s.setProc p v).meshErr = s.meshErr := rfl
@[simp] theorem State.setProc_flipMax (p : Proc) (v : ProcSt) : (s.setProc p v).flipMax = s.flipMax := rfl
@[simp] theorem State.setProc_topo (p : Proc) (v : ProcSt) : (s.setProc p v).topo = s.topo := rfl
@[simp] theorem State.setProc_plans (p : Proc) (v : ProcSt) : (s.setProc p v).plans = s.plans := rfl
@[simp] theorem State.setProc_poisoned (p : Proc) (v : ProcSt) : (s.setProc p v).poisoned = s.poisoned := rfl
@[simp] theorem State.setProc_colls (p : Proc) (v : ProcSt) : (s.setProc p v).colls = s.colls := rfl
@[simp] theorem State.setProc_ctx (p : Proc) (v : ProcSt) : (s.setProc p v).ctx = s.ctx := rfl
@[simp] theorem State.setProc_idDone (p : Proc) (v : ProcSt) : (s.setProc p v).idDone = s.idDone := rfl
@[simp] theorem State.setProc_landings (p : Proc) (v : ProcSt) : (s.setProc p v).landings = s.landings := rfl
@[simp] theorem State.setProc_kilnMiss (p : Proc) (v : ProcSt) : (s.setProc p v).kilnMiss = s.kilnMiss := rfl
@[simp] theorem State.setProc_links (p : Proc) (v : ProcSt) : (s.setProc p v).links = s.links := rfl
@[simp] theorem State.setProc_arrivals (p : Proc) (v : ProcSt) : (s.setProc p v).arrivals = s.arrivals := rfl
@[simp] theorem State.setProc_nextBody (p : Proc) (v : ProcSt) : (s.setProc p v).nextBody = s.nextBody := rfl
@[simp] theorem State.setProc_voqs (p : Proc) (v : ProcSt) : (s.setProc p v).voqs = s.voqs := rfl
@[simp] theorem State.setProc_voqHwm (p : Proc) (v : ProcSt) : (s.setProc p v).voqHwm = s.voqHwm := rfl
@[simp] theorem State.setProc_outs (p : Proc) (v : ProcSt) : (s.setProc p v).outs = s.outs := rfl
@[simp] theorem State.setProc_delivered (p : Proc) (v : ProcSt) : (s.setProc p v).delivered = s.delivered := rfl
@[simp] theorem State.setProc_injq (p : Proc) (v : ProcSt) : (s.setProc p v).injq = s.injq := rfl
@[simp] theorem State.setProc_throttles (p : Proc) (v : ProcSt) : (s.setProc p v).throttles = s.throttles := rfl
@[simp] theorem State.setProc_psq (p : Proc) (v : ProcSt) : (s.setProc p v).psq = s.psq := rfl
@[simp] theorem State.setProc_requests (p : Proc) (v : ProcSt) : (s.setProc p v).requests = s.requests := rfl
@[simp] theorem State.setProc_filter (p : Proc) (v : ProcSt) : (s.setProc p v).filter = s.filter := rfl
@[simp] theorem State.setProc_recov (p : Proc) (v : ProcSt) : (s.setProc p v).recov = s.recov := rfl
@[simp] theorem State.setProc_testCnt (p : Proc) (v : ProcSt) : (s.setProc p v).testCnt = s.testCnt := rfl
@[simp] theorem State.setProc_testBad (p : Proc) (v : ProcSt) : (s.setProc p v).testBad = s.testBad := rfl
@[simp] theorem State.setProc_spreadBad (p : Proc) (v : ProcSt) : (s.setProc p v).spreadBad = s.spreadBad := rfl
@[simp] theorem State.setProc_cells (p : Proc) (v : ProcSt) : (s.setProc p v).cells = s.cells := rfl
@[simp] theorem State.setProc_suspects (p : Proc) (v : ProcSt) : (s.setProc p v).suspects = s.suspects := rfl
@[simp] theorem State.setProc_notes (p : Proc) (v : ProcSt) : (s.setProc p v).notes = s.notes := rfl
@[simp] theorem State.setProc_rseq (p : Proc) (v : ProcSt) : (s.setProc p v).rseq = s.rseq := rfl
@[simp] theorem State.setProc_mirror (p : Proc) (v : ProcSt) : (s.setProc p v).mirror = s.mirror := rfl
@[simp] theorem State.setProc_stepTable (p : Proc) (v : ProcSt) : (s.setProc p v).stepTable = s.stepTable := rfl
@[simp] theorem State.setProc_queues (p : Proc) (v : ProcSt) : (s.setProc p v).queues = s.queues := rfl
@[simp] theorem State.setProc_subWords (p : Proc) (v : ProcSt) : (s.setProc p v).subWords = s.subWords := rfl
@[simp] theorem State.setProc_qOff (p : Proc) (v : ProcSt) : (s.setProc p v).qOff = s.qOff := rfl
@[simp] theorem State.setProc_runs (p : Proc) (v : ProcSt) : (s.setProc p v).runs = s.runs := rfl
@[simp] theorem State.setProc_rrq (p : Proc) (v : ProcSt) : (s.setProc p v).rrq = s.rrq := rfl
@[simp] theorem State.setProc_mgmtSeen (p : Proc) (v : ProcSt) : (s.setProc p v).mgmtSeen = s.mgmtSeen := rfl
@[simp] theorem State.setProc_ringWait (p : Proc) (v : ProcSt) : (s.setProc p v).ringWait = s.ringWait := rfl
@[simp] theorem State.setProc_ringSeq (p : Proc) (v : ProcSt) : (s.setProc p v).ringSeq = s.ringSeq := rfl
@[simp] theorem State.setProc_hbAt (p : Proc) (v : ProcSt) : (s.setProc p v).hbAt = s.hbAt := rfl
@[simp] theorem State.setProc_orphanStop (p : Proc) (v : ProcSt) : (s.setProc p v).orphanStop = s.orphanStop := rfl
@[simp] theorem State.setProc_started (p : Proc) (v : ProcSt) : (s.setProc p v).started = s.started := rfl
@[simp] theorem State.setProc_procs (p : Proc) (v : ProcSt) : (s.setProc p v).procs = s.procs.set ProcSt.reset (procKey p) v := rfl
@[simp] theorem State.setProc_defers (p : Proc) (v : ProcSt) : (s.setProc p v).defers = s.defers := rfl
@[simp] theorem State.setProc_deferRuns (p : Proc) (v : ProcSt) : (s.setProc p v).deferRuns = s.deferRuns := rfl
@[simp] theorem State.setProc_clWait (p : Proc) (v : ProcSt) : (s.setProc p v).clWait = s.clWait := rfl
@[simp] theorem State.setProc_imgTimer (p : Proc) (v : ProcSt) : (s.setProc p v).imgTimer = s.imgTimer := rfl
@[simp] theorem State.setProc_imgAllow (p : Proc) (v : ProcSt) : (s.setProc p v).imgAllow = s.imgAllow := rfl
@[simp] theorem State.setProc_emergClearAt (p : Proc) (v : ProcSt) : (s.setProc p v).emergClearAt = s.emergClearAt := rfl
@[simp] theorem State.setProc_logQ (p : Proc) (v : ProcSt) : (s.setProc p v).logQ = s.logQ := rfl
@[simp] theorem State.setProc_logDrops (p : Proc) (v : ProcSt) : (s.setProc p v).logDrops = s.logDrops := rfl
@[simp] theorem State.setProc_held32 (p : Proc) (v : ProcSt) : (s.setProc p v).held32 = s.held32 := rfl
@[simp] theorem State.setProc_bus (p : Proc) (v : ProcSt) : (s.setProc p v).bus = s.bus := rfl
@[simp] theorem State.setProc_origin (p : Proc) (v : ProcSt) : (s.setProc p v).origin = s.origin := rfl
@[simp] theorem State.setProc_layers (p : Proc) (v : ProcSt) : (s.setProc p v).layers = s.layers := rfl
@[simp] theorem State.setProc_hbm (p : Proc) (v : ProcSt) : (s.setProc p v).hbm = s.hbm := rfl
@[simp] theorem State.setProc_sec (p : Proc) (v : ProcSt) : (s.setProc p v).sec = s.sec := rfl
@[simp] theorem State.setProc_mgmt (p : Proc) (v : ProcSt) : (s.setProc p v).mgmt = s.mgmt := rfl
@[simp] theorem State.setProc_img (p : Proc) (v : ProcSt) : (s.setProc p v).img = s.img := rfl
@[simp] theorem State.setProc_power (p : Proc) (v : ProcSt) : (s.setProc p v).power = s.power := rfl
@[simp] theorem State.setProc_fenceReq (p : Proc) (v : ProcSt) : (s.setProc p v).fenceReq = s.fenceReq := rfl

end Sys2Proof.Machine
end

