-- ==== Sys2Proof/Laws/Tab.lean ====
section
/-!
SUPPORT. Laws/Tab.lean: the laws of tables: every operation keeps the canonical form, a read after a write gives what was
written, and a write leaves every other key alone.
-/
namespace Sys2Proof.Machine

variable {α : Type} {d : Nat → α} {t : Tab α}

/-- Every key of `t` is at least `b`. -/
def Tab.above (b : Nat) (t : Tab α) : Prop := ∀ e ∈ t, b ≤ e.1

@[simp] theorem Tab.get_nil (x : α) (k : Nat) : Tab.get x [] k = x := rfl

/-- A key below every listed one reads as the default. -/
theorem Tab.get_above {b k : Nat} (x : α) (h : Tab.above b t) (hk : k < b) : t.get x k = x := by
  cases t with
  | nil => rfl
  | cons e t =>
    have := h e (by simp)
    unfold Tab.get
    rw [if_neg (by omega), if_pos (by omega)]

theorem Tab.above_mono {a b : Nat} (h : Tab.above b t) (hab : a ≤ b) : Tab.above a t :=
  fun e he => Nat.le_trans hab (h e he)

theorem Tab.above_erase {b : Nat} (h : Tab.above b t) (k : Nat) : Tab.above b (t.erase k) := by
  induction t with
  | nil => exact h
  | cons e t ih =>
    have h2 : Tab.above b t := fun x hx => h x (List.mem_cons_of_mem _ hx)
    unfold Tab.erase
    split
    · exact h2
    split
    · exact h
    · intro x hx
      rcases List.mem_cons.mp hx with rfl | hx
      · exact h _ (by simp)
      · exact ih h2 x hx

theorem Tab.above_insert {b k : Nat} (h : Tab.above b t) (hb : b ≤ k) (v : α) : Tab.above b (t.insert k v) := by
  induction t with
  | nil => intro x hx; simp [Tab.insert] at hx; subst hx; exact hb
  | cons e t ih =>
    have h2 : Tab.above b t := fun x hx => h x (List.mem_cons_of_mem _ hx)
    have he := h e (by simp)
    unfold Tab.insert
    split
    · intro x hx
      rcases List.mem_cons.mp hx with rfl | hx
      · exact hb
      · exact h2 x hx
    split
    · intro x hx
      rcases List.mem_cons.mp hx with rfl | hx
      · exact hb
      · exact h x hx
    · intro x hx
      rcases List.mem_cons.mp hx with rfl | hx
      · exact he
      · exact ih h2 x hx

theorem Tab.above_filter {b : Nat} (h : Tab.above b t) (p : Nat × α → Bool) : Tab.above b (t.filter p) :=
  fun x hx => h x ((List.mem_filter.mp hx).1)

variable [DecidableEq α]

/-- The canonical form of a table with a first entry. -/
theorem Tab.wf_cons {j : Nat} {v : α} :
    Tab.wf d ((j, v) :: t) = true ↔ v ≠ d j ∧ Tab.above (j + 1) t ∧ Tab.wf d t = true := by
  induction t generalizing j v with
  | nil => simp [Tab.wf, Tab.above]
  | cons e t ih =>
    obtain ⟨k, w⟩ := e
    simp only [Tab.wf, Bool.and_eq_true, Bool.not_eq_true', decide_eq_false_iff_not, decide_eq_true_eq, Tab.above,
      List.mem_cons, forall_eq_or_imp]
    constructor
    · rintro ⟨⟨hv, hj⟩, h⟩
      refine ⟨hv, ⟨hj, fun e he => ?_⟩, h⟩
      have := (ih.mp h).2.1 e he
      omega
    · rintro ⟨hv, ⟨hj, -⟩, h⟩
      exact ⟨⟨hv, hj⟩, h⟩

@[simp] theorem Tab.wf_nil : Tab.wf d ([] : Tab α) = true := rfl

/-- Erasing keeps the canonical form. -/
theorem Tab.erase_wf (h : Tab.wf d t = true) (k : Nat) : Tab.wf d (t.erase k) = true := by
  induction t with
  | nil => rfl
  | cons e t ih =>
    obtain ⟨j, w⟩ := e
    have h' := Tab.wf_cons.mp h
    unfold Tab.erase
    split
    · exact h'.2.2
    split
    · exact h
    · exact Tab.wf_cons.mpr ⟨h'.1, Tab.above_erase h'.2.1 k, ih h'.2.2⟩

/-- Putting a value that is not the default keeps the canonical form. -/
theorem Tab.insert_wf (h : Tab.wf d t = true) {k : Nat} {v : α} (hv : v ≠ d k) : Tab.wf d (t.insert k v) = true := by
  induction t with
  | nil => simp [Tab.insert, Tab.wf, hv]
  | cons e t ih =>
    obtain ⟨j, w⟩ := e
    have h' := Tab.wf_cons.mp h
    unfold Tab.insert
    split
    · rename_i hk; subst hk
      exact Tab.wf_cons.mpr ⟨hv, h'.2.1, h'.2.2⟩
    split
    · rename_i hk
      refine Tab.wf_cons.mpr ⟨hv, ?_, h⟩
      intro x hx
      rcases List.mem_cons.mp hx with rfl | hx
      · exact hk
      · have := h'.2.1 x hx; omega
    · rename_i h1 h2
      exact Tab.wf_cons.mpr ⟨h'.1, Tab.above_insert h'.2.1 (by omega) v, ih h'.2.2⟩

/-- Writing keeps the canonical form. -/
theorem Tab.set_wf (h : Tab.wf d t = true) (k : Nat) (v : α) : Tab.wf d (t.set (d k) k v) = true := by
  unfold Tab.set
  split
  · exact Tab.erase_wf h k
  · rename_i hv; exact Tab.insert_wf h hv

/-- Updating keeps the canonical form. -/
theorem Tab.modify_wf (h : Tab.wf d t = true) (k : Nat) (f : α → α) : Tab.wf d (t.modify (d k) k f) = true :=
  Tab.set_wf h k _

/-- Filtering keeps the canonical form. -/
theorem Tab.filter_wf (h : Tab.wf d t = true) (p : Nat × α → Bool) : Tab.wf d (t.filter p) = true := by
  induction t with
  | nil => rfl
  | cons e t ih =>
    obtain ⟨j, w⟩ := e
    have h' := Tab.wf_cons.mp h
    rw [List.filter_cons]
    split
    · exact Tab.wf_cons.mpr ⟨h'.1, Tab.above_filter h'.2.1 p, ih h'.2.2⟩
    · exact ih h'.2.2

/-- Removing a range of keys keeps the canonical form. -/
theorem Tab.eraseRange_wf (h : Tab.wf d t = true) (lo hi : Nat) : Tab.wf d (t.eraseRange lo hi) = true := Tab.filter_wf h _

/-! ## Reading -/

theorem Tab.get_erase (h : Tab.wf d t = true) (x : α) (k j : Nat) : (t.erase k).get x j = if j = k then x else t.get x j := by
  induction t with
  | nil => simp [Tab.erase]
  | cons e t ih =>
    obtain ⟨i, w⟩ := e
    have h' := Tab.wf_cons.mp h
    unfold Tab.erase
    split
    · rename_i hk; subst hk
      by_cases hj : j = k
      · subst hj; rw [if_pos rfl]; exact Tab.get_above x h'.2.1 (by omega)
      · rw [if_neg hj]
        by_cases hl : j < k
        · rw [Tab.get_above x h'.2.1 (by omega)]; simp [Tab.get, hj, hl]
        · simp [Tab.get, hj, hl]
    split
    · rename_i hk hl
      by_cases hj : j = k
      · subst hj; simp [Tab.get, hk, hl]
      · rw [if_neg hj]
    · rename_i hk hl
      by_cases hj : j = k
      · subst hj; simp only [Tab.get, if_neg hk, if_neg hl, ih h'.2.2, if_true]
      · simp only [Tab.get, ih h'.2.2, if_neg hj]

theorem Tab.get_insert (h : Tab.wf d t = true) (x v : α) (k j : Nat) :
    (t.insert k v).get x j = if j = k then v else t.get x j := by
  induction t with
  | nil =>
    by_cases hj : j = k
    · simp [Tab.insert, Tab.get, hj]
    · by_cases hl : j < k <;> simp [Tab.insert, Tab.get, hj]
  | cons e t ih =>
    obtain ⟨i, w⟩ := e
    have h' := Tab.wf_cons.mp h
    unfold Tab.insert
    split
    · rename_i hk; subst hk
      by_cases hj : j = k
      · simp [Tab.get, hj]
      · simp [Tab.get, hj]
    split
    · rename_i hk hl
      by_cases hj : j = k
      · simp [Tab.get, hj]
      · by_cases hl2 : j < k
        · simp [Tab.get, hj, hl2, show j ≠ i by omega, show j < i by omega]
        · simp [Tab.get, hj, hl2]
    · rename_i hk hl
      by_cases hj : j = k
      · subst hj; simp only [Tab.get, if_neg hk, if_neg hl, ih h'.2.2, if_true]
      · simp only [Tab.get, ih h'.2.2, if_neg hj]

/-- A read after a write: the value written at that key, what was there at every other. -/
theorem Tab.get_set (h : Tab.wf d t = true) (k j : Nat) (v : α) :
    (t.set (d k) k v).get (d j) j = if j = k then v else t.get (d j) j := by
  unfold Tab.set
  split
  · rename_i hv
    rw [Tab.get_erase h]
    by_cases hj : j = k
    · subst hj; simp [hv]
    · simp [hj]
  · rw [Tab.get_insert h]

theorem Tab.get_set_same (h : Tab.wf d t = true) (k : Nat) (v : α) : (t.set (d k) k v).get (d k) k = v := by
  rw [Tab.get_set h, if_pos rfl]

theorem Tab.get_set_other (h : Tab.wf d t = true) {k j : Nat} (hj : j ≠ k) (v : α) :
    (t.set (d k) k v).get (d j) j = t.get (d j) j := by
  rw [Tab.get_set h, if_neg hj]

theorem Tab.get_modify (h : Tab.wf d t = true) (k j : Nat) (f : α → α) :
    (t.modify (d k) k f).get (d j) j = if j = k then f (t.get (d k) k) else t.get (d j) j := Tab.get_set h k j _

/-- A read after a range of keys was removed. -/
theorem Tab.get_eraseRange (h : Tab.wf d t = true) (lo hi j : Nat) :
    (t.eraseRange lo hi).get (d j) j = if lo ≤ j ∧ j < hi then d j else t.get (d j) j := by
  induction t with
  | nil => simp [Tab.eraseRange]
  | cons e t ih =>
    obtain ⟨i, w⟩ := e
    have h' := Tab.wf_cons.mp h
    have ih := ih h'.2.2
    simp only [Tab.eraseRange] at ih ⊢
    rw [List.filter_cons]
    split
    · rename_i hp
      simp only [Bool.or_eq_true, decide_eq_true_eq] at hp
      simp only [Tab.get]
      by_cases hj : j = i
      · subst hj; simp; omega
      · by_cases hl : j < i
        · simp [hj, hl]
        · simp only [if_neg hj, if_neg hl, ih]
    · rename_i hp
      simp only [Bool.or_eq_true, decide_eq_true_eq, not_or, Nat.not_lt, Nat.not_le] at hp
      rw [ih]
      simp only [Tab.get]
      by_cases hj : j = i
      · subst hj; simp [hp]
      · by_cases hl : j < i
        · rw [Tab.get_above _ h'.2.1 (by omega)]
          simp [hj, hl]
        · simp [hj, hl]

/-- Two canonical tables that read alike are equal. -/
theorem Tab.ext {t u : Tab α} (ht : Tab.wf d t = true) (hu : Tab.wf d u = true) (h : ∀ k, t.get (d k) k = u.get (d k) k) :
    t = u := by
  induction t generalizing u with
  | nil =>
    cases u with
    | nil => rfl
    | cons e u =>
      obtain ⟨j, v⟩ := e
      have := h j
      simp [Tab.get] at this
      exact absurd this.symm (Tab.wf_cons.mp hu).1
  | cons e t ih =>
    obtain ⟨j, v⟩ := e
    have h1 := Tab.wf_cons.mp ht
    cases u with
    | nil => exact absurd (by simpa [Tab.get] using h j) h1.1
    | cons e u =>
      obtain ⟨k, w⟩ := e
      have h2 := Tab.wf_cons.mp hu
      have hjk : j = k := by
        rcases Nat.lt_trichotomy j k with hl | he | hg
        · have := h j
          simp only [Tab.get, if_true, if_neg (Nat.ne_of_lt hl), if_pos hl] at this
          exact absurd this h1.1
        · exact he
        · have := h k
          simp only [Tab.get, if_true, if_neg (Nat.ne_of_lt hg), if_pos hg] at this
          exact absurd this.symm h2.1
      subst hjk
      have hv : v = w := by simpa [Tab.get] using h j
      subst hv
      congr 1
      refine ih h1.2.2 h2.2.2 fun m => ?_
      have := h m
      by_cases hm : m = j
      · subst hm
        rw [Tab.get_above _ h1.2.1 (Nat.lt_succ_self _), Tab.get_above _ h2.2.1 (Nat.lt_succ_self _)]
      · by_cases hl : m < j
        · rw [Tab.get_above _ h1.2.1 (by omega), Tab.get_above _ h2.2.1 (by omega)]
        · simpa [Tab.get, hm, hl] using this

end Sys2Proof.Machine
end

