-- ==== Sys2Proof/Laws/Regs.lean ====
section
/-!
SUPPORT. Laws/Regs.lean: the laws of registers, their fields, clusters and memory bytes: a read after a write, what a write leaves
alone, and that every one of these operations keeps its table canonical.
-/
namespace Sys2Proof.Machine

/-! ## Fields of a word -/

/-- The bits of a field. -/
theorem testBit_bitsOf (w : W64) (lo wid i : Nat) : (bitsOf w lo wid).testBit i = (decide (i < wid) && w.toNat.testBit (lo + i)) := by
  unfold bitsOf
  rw [Nat.testBit_mod_two_pow, Nat.testBit_div_two_pow, Nat.add_comm]

/-- A field fits its width. -/
theorem bitsOf_lt (w : W64) (lo wid : Nat) : bitsOf w lo wid < 2 ^ wid := Nat.mod_lt _ (Nat.two_pow_pos wid)

/-- A word with a field replaced, as a number. -/
theorem setBits_split (w : W64) (lo wid v : Nat) (h : lo + wid ≤ 64) :
    (setBits w lo wid v).toNat = 2 ^ lo * (2 ^ wid * (w.toNat / 2 ^ lo / 2 ^ wid) + v % 2 ^ wid) + w.toNat % 2 ^ lo := by
  unfold setBits bitsOf
  have hw := w.isLt
  generalize w.toNat = n at hw
  obtain ⟨c, hc⟩ : 2 ^ lo * 2 ^ wid ∣ 2 ^ 64 := by rw [← Nat.pow_add]; exact Nat.pow_dvd_pow 2 h
  have hA : 0 < 2 ^ lo := Nat.two_pow_pos lo
  have hB : 0 < 2 ^ wid := Nat.two_pow_pos wid
  rw [BitVec.toNat_ofNat, hc]
  rw [hc] at hw
  generalize 2 ^ lo = A at *
  generalize 2 ^ wid = B at *
  clear hc h
  have e0 : n % A + A * (n / A % B + B * (n / A / B)) = n := by rw [Nat.mod_add_div, Nat.mod_add_div]
  have e1 : A * (n / A % B + B * (n / A / B)) = n / A % B * A + A * (B * (n / A / B)) := by rw [Nat.mul_add, Nat.mul_comm A (n / A % B)]
  have e2 : A * (B * (n / A / B) + v % B) = v % B * A + A * (B * (n / A / B)) := by rw [Nat.mul_add, Nat.mul_comm A (v % B), Nat.add_comm]
  have e3 : n - n / A % B * A + v % B * A = A * (B * (n / A / B) + v % B) + n % A := by omega
  rw [e3]
  apply Nat.mod_eq_of_lt
  have hr := Nat.mod_lt n hA
  have hv := Nat.mod_lt v hB
  have hq : n / A / B < c := by
    rw [Nat.div_div_eq_div_mul]
    exact Nat.div_lt_of_lt_mul hw
  calc A * (B * (n / A / B) + v % B) + n % A < A * (B * (n / A / B) + v % B) + A := by omega
    _ = A * (B * (n / A / B) + v % B + 1) := by rw [Nat.mul_add A _ 1, Nat.mul_one]
    _ ≤ A * (B * (n / A / B) + B) := Nat.mul_le_mul_left _ (by omega)
    _ = A * (B * (n / A / B + 1)) := by rw [Nat.mul_add B, Nat.mul_one]
    _ ≤ A * (B * c) := Nat.mul_le_mul_left _ (Nat.mul_le_mul_left _ hq)
    _ = A * B * c := by rw [Nat.mul_assoc]

/-- Bit `i` of a word whose field was replaced. -/
theorem testBit_setBits (w : W64) (lo wid v i : Nat) (h : lo + wid ≤ 64) :
    (setBits w lo wid v).toNat.testBit i = if lo ≤ i ∧ i < lo + wid then v.testBit (i - lo) else w.toNat.testBit i := by
  rw [setBits_split w lo wid v h, Nat.testBit_two_pow_mul_add _ (Nat.mod_lt _ (Nat.two_pow_pos lo)),
    Nat.testBit_two_pow_mul_add _ (Nat.mod_lt _ (Nat.two_pow_pos wid)), Nat.testBit_mod_two_pow, Nat.testBit_mod_two_pow,
    Nat.testBit_div_two_pow, Nat.testBit_div_two_pow]
  by_cases h1 : i < lo
  · simp [h1, show ¬ lo ≤ i by omega]
  · by_cases h2 : i < lo + wid
    · simp [h1, h2, show lo ≤ i by omega, show i - lo < wid by omega]
    · rw [if_neg h1, if_neg (by omega), if_neg (by omega)]
      congr 1; omega

/-- A field after it was replaced. -/
theorem bitsOf_setBits_same (w : W64) (lo wid v : Nat) (h : lo + wid ≤ 64) : bitsOf (setBits w lo wid v) lo wid = v % 2 ^ wid := by
  apply Nat.eq_of_testBit_eq
  intro i
  rw [testBit_bitsOf, testBit_setBits _ _ _ _ _ h, Nat.testBit_mod_two_pow]
  by_cases hi : i < wid
  · simp [hi]
  · simp [hi]

/-- A field after another was replaced. -/
theorem bitsOf_setBits_other (w : W64) (lo wid v a b : Nat) (h : lo + wid ≤ 64) (hd : a + b ≤ lo ∨ lo + wid ≤ a) :
    bitsOf (setBits w lo wid v) a b = bitsOf w a b := by
  apply Nat.eq_of_testBit_eq
  intro i
  rw [testBit_bitsOf, testBit_bitsOf, testBit_setBits _ _ _ _ _ h]
  by_cases hi : i < b
  · rw [if_neg (by omega)]
  · simp [hi]

/-! ## Registers -/

variable {s : State}

/-- Every write of a register keeps the registers canonical. -/
theorem State.wr_regs_wf (h : Tab.wf regReset s.regs = true) (k : Nat) (v : W64) : Tab.wf regReset (s.wr k v).regs = true :=
  Tab.set_wf h k v

/-- Every write of a field keeps the registers canonical. -/
theorem State.put_regs_wf (h : Tab.wf regReset s.regs = true) (f : Field) (v : Nat) : Tab.wf regReset (s.put f v).regs = true :=
  Tab.set_wf h _ _

/-- A register after a write: the value written at that key, what was there at every other. -/
theorem State.rd_wr (h : Tab.wf regReset s.regs = true) (k j : Nat) (v : W64) : (s.wr k v).rd j = if j = k then v else s.rd j :=
  Tab.get_set h k j v

theorem State.rd_wr_same (h : Tab.wf regReset s.regs = true) (k : Nat) (v : W64) : (s.wr k v).rd k = v := by
  rw [State.rd_wr h, if_pos rfl]

theorem State.rd_wr_other (h : Tab.wf regReset s.regs = true) {k j : Nat} (v : W64) (hj : j ≠ k) : (s.wr k v).rd j = s.rd j := by
  rw [State.rd_wr h, if_neg hj]

/-- A register after a write of a field. -/
theorem State.rd_put (h : Tab.wf regReset s.regs = true) (f : Field) (v j : Nat) :
    (s.put f v).rd j = if j = f.key then setBits (s.rd f.key) f.lo f.wid v else s.rd j := State.rd_wr h _ j _

theorem State.rd_put_other (h : Tab.wf regReset s.regs = true) {f : Field} {j : Nat} (v : Nat) (hj : j ≠ f.key) :
    (s.put f v).rd j = s.rd j := by
  rw [State.rd_put h, if_neg hj]

/-- A field after it was written. -/
theorem State.get_put_same (h : Tab.wf regReset s.regs = true) (f : Field) (v : Nat) (hf : f.lo + f.wid ≤ 64) :
    (s.put f v).get f = v % 2 ^ f.wid := by
  unfold State.get
  rw [State.rd_put h, if_pos rfl]
  exact bitsOf_setBits_same _ _ _ _ hf

/-- A field of another register after a write. -/
theorem State.get_put_reg (h : Tab.wf regReset s.regs = true) {f g : Field} (v : Nat) (hk : g.key ≠ f.key) :
    (s.put f v).get g = s.get g := by
  unfold State.get
  rw [State.rd_put_other h v hk]

/-- Another field of the same register after a write. -/
theorem State.get_put_field (h : Tab.wf regReset s.regs = true) {f g : Field} (v : Nat) (hk : g.key = f.key) (hf : f.lo + f.wid ≤ 64)
    (hd : g.lo + g.wid ≤ f.lo ∨ f.lo + f.wid ≤ g.lo) : (s.put f v).get g = s.get g := by
  unfold State.get
  rw [State.rd_put h, if_pos hk, hk]
  exact bitsOf_setBits_other _ _ _ _ _ _ hf hd

/-- A register that no write has changed reads its reset value. -/
@[simp] theorem State.rd_reset (k : Nat) : State.reset.rd k = regReset k := rfl

/-! ## Clusters -/

/-- An update of a cluster keeps the table of clusters canonical. -/
theorem State.modCl_clusters_wf (h : Tab.wf (fun _ => Cluster.reset) s.clusters = true) (n : Nat) (f : Cluster → Cluster) :
    Tab.wf (fun _ => Cluster.reset) (s.modCl n f).clusters = true := Tab.modify_wf h n f

/-- A cluster after an update. -/
theorem State.cl_modCl (h : Tab.wf (fun _ => Cluster.reset) s.clusters = true) (n m : Nat) (f : Cluster → Cluster) :
    (s.modCl n f).cl m = if m = n then f (s.cl n) else s.cl m :=
  Tab.get_modify (d := fun _ => Cluster.reset) h n m f

theorem State.cl_modCl_same (h : Tab.wf (fun _ => Cluster.reset) s.clusters = true) (n : Nat) (f : Cluster → Cluster) :
    (s.modCl n f).cl n = f (s.cl n) := by rw [State.cl_modCl h, if_pos rfl]

theorem State.cl_modCl_other (h : Tab.wf (fun _ => Cluster.reset) s.clusters = true) {n m : Nat} (f : Cluster → Cluster)
    (hm : m ≠ n) : (s.modCl n f).cl m = s.cl m := by rw [State.cl_modCl h, if_neg hm]

/-- A write of a register leaves every cluster alone. -/
@[simp] theorem State.cl_wr (k : Nat) (v : W64) (n : Nat) : (s.wr k v).cl n = s.cl n := rfl

@[simp] theorem State.cl_put (f : Field) (v n : Nat) : (s.put f v).cl n = s.cl n := rfl

@[simp] theorem State.cl_fresh (w n : Nat) : (s.fresh w).2.cl n = s.cl n := rfl

@[simp] theorem State.rd_modCl (n : Nat) (f : Cluster → Cluster) (k : Nat) : (s.modCl n f).rd k = s.rd k := rfl

@[simp] theorem State.get_modCl (n : Nat) (f : Cluster → Cluster) (g : Field) : (s.modCl n f).get g = s.get g := rfl

@[simp] theorem State.rd_fresh (w k : Nat) : (s.fresh w).2.rd k = s.rd k := rfl

@[simp] theorem State.get_fresh (w : Nat) (g : Field) : (s.fresh w).2.get g = s.get g := rfl

/-! ## Memory -/

variable {d : Byte} {m : Memory}

/-- Writing a byte string keeps a memory canonical. -/
theorem writeBytes_wf (h : Memory.wf d m = true) (a : Nat) (b : List Byte) : Memory.wf d (writeBytes d m a b) = true := by
  induction b generalizing m a with
  | nil => exact h
  | cons x b ih => exact ih (Tab.set_wf (d := fun _ => d) h a x) _

/-- A byte after a byte string was written: the string's byte inside it, what was there outside it. -/
theorem get_writeBytes (h : Memory.wf d m = true) (a : Nat) (b : List Byte) (i : Nat) :
    Tab.get d (writeBytes d m a b) i = if a ≤ i ∧ i < a + b.length then b.getD (i - a) d else Tab.get d m i := by
  induction b generalizing m a with
  | nil =>
    rw [if_neg (by simp only [List.length_nil]; omega)]
    rfl
  | cons x b ih =>
    have hs : Memory.wf d (Tab.set d m a x) = true := Tab.set_wf (d := fun _ => d) h a x
    have hg := Tab.get_set (d := fun _ => d) h a i x
    rw [writeBytes, ih hs, hg]
    simp only [List.length_cons]
    by_cases h1 : i = a
    · subst h1; rw [if_neg (by omega), if_pos rfl, if_pos (by omega)]; simp
    · by_cases h2 : a ≤ i ∧ i < a + (b.length + 1)
      · rw [if_pos (by omega), if_pos h2]
        obtain ⟨k, hk⟩ : ∃ k, i - a = k + 1 := ⟨i - a - 1, by omega⟩
        rw [hk, show i - (a + 1) = k by omega]; simp
      · rw [if_neg (by omega), if_neg h2, if_neg h1]

/-- Bytes outside a write are as before. -/
theorem get_writeBytes_other (h : Memory.wf d m = true) (a : Nat) (b : List Byte) {i : Nat} (hi : i < a ∨ a + b.length ≤ i) :
    Tab.get d (writeBytes d m a b) i = Tab.get d m i := by
  rw [get_writeBytes h, if_neg (by omega)]

@[simp] theorem length_readBytes (a n : Nat) : (readBytes d m a n).length = n := by
  induction n generalizing a with
  | zero => rfl
  | succ n ih => simp [readBytes, ih]

/-- A byte of a byte string that was read. -/
theorem getD_readBytes (a n i : Nat) (x : Byte) (hi : i < n) : (readBytes d m a n).getD i x = Tab.get d m (a + i) := by
  induction n generalizing a i with
  | zero => omega
  | succ n ih =>
    cases i with
    | zero => rfl
    | succ i => rw [readBytes, List.getD_cons_succ, ih (a + 1) i (by omega), show a + 1 + i = a + (i + 1) by omega]

/-- A read of the bytes that were written gives them. -/
theorem readBytes_writeBytes (h : Memory.wf d m = true) (a : Nat) (b : List Byte) :
    readBytes d (writeBytes d m a b) a b.length = b := by
  apply List.ext_getElem (by simp)
  intro i h1 h2
  have h3 := getD_readBytes (d := d) (m := writeBytes d m a b) a b.length i d h2
  rw [get_writeBytes h, if_pos (by omega), show a + i - a = i by omega] at h3
  simpa [List.getD_eq_getElem?_getD, h1, h2] using h3

/-- A read outside a write gives what it gave before. -/
theorem readBytes_writeBytes_other (h : Memory.wf d m = true) (a n c : Nat) (b : List Byte) (hd : c + n ≤ a ∨ a + b.length ≤ c) :
    readBytes d (writeBytes d m a b) c n = readBytes d m c n := by
  apply List.ext_getElem (by simp)
  intro i h1 h2
  have hi : i < n := by simpa using h1
  have e1 := getD_readBytes (d := d) (m := writeBytes d m a b) c n i d hi
  have e2 := getD_readBytes (d := d) (m := m) c n i d hi
  rw [get_writeBytes_other h a b (by omega), ← e2] at e1
  simpa [List.getD_eq_getElem?_getD, h1, h2, hi] using e1

/-- The bytes of a number give it back, modulo what they hold. -/
@[simp] theorem length_bytesLE (n v : Nat) : (bytesLE n v).length = n := by
  induction n generalizing v with
  | zero => rfl
  | succ n ih => simp [bytesLE, ih]

theorem natLE_bytesLE (n v : Nat) : natLE (bytesLE n v) = v % 256 ^ n := by
  induction n generalizing v with
  | zero => simp [bytesLE, natLE, Nat.mod_one]
  | succ n ih =>
    rw [bytesLE, natLE, ih, BitVec.toNat_ofNat, Nat.pow_succ' (n := n), Nat.mod_mul]

/-- The memories of the state after reset are canonical. -/
theorem reset_mem_wf : Memory.wf 0 State.reset.mem = true ∧ Memory.wf 0 State.reset.poolMem = true ∧ Memory.wf 0xFF State.reset.flash = true :=
  ⟨rfl, rfl, rfl⟩

end Sys2Proof.Machine
end

