-- ==== Sys2Proof/Laws/Sch.lean ====
section
/-!
SUPPORT. Laws/Sch.lean: what the frame of a control-processor command does (R397, R398): once for every row.
-/
namespace Sys2Proof.Machine

/-- A queue that SCH picks is not in progress. -/
theorem schPick_canTake {s : State} {k : Nat} (h : s.schPick = some k) : s.canTake k = true := by
  unfold State.schPick at h
  split at h
  · cases h
  · dsimp only at h
    split at h
    · rename_i q hq
      have hm := List.mem_of_find?_eq_some hq
      cases h
      exact (List.mem_filter.mp hm).2
    · have hm := List.mem_of_head? h
      exact (List.mem_filter.mp hm).2

/-- A queue that SCH picks has no run at its head. -/
theorem schPick_runAt {s : State} {k : Nat} (h : s.schPick = some k) : s.runAt k = none := by
  have hc := schPick_canTake h
  simp only [State.canTake, State.inRun, Bool.and_eq_true, Bool.not_eq_true', List.any_eq_false] at hc
  exact List.find?_eq_none.mpr hc.1

/-- The row of the command that SCH takes next answers the command's checks and effect. -/
theorem schRow_takes {s : State} {q : Fin 64} {c : Cmd} {want : Cmd → Bool} {body : State → Cmd → CmdEnd}
    (h : s.schPick = some q.val) (hc : (s.queue q.val).head? = some c) (hw : want c = true) :
    schRow q want body s = done ((({ s with rrq := q.val }).checked c body).settle q.val c.op).schReady := by
  unfold schRow
  cases hq : s.queue q.val with
  | nil => simp [hq] at hc
  | cons d l =>
    rw [hq] at hc
    cases hc
    simp [h, hw]

/-- A row that is not the next command leaves the state alone. -/
theorem schRow_other {s : State} {q : Fin 64} {want : Cmd → Bool} {body : State → Cmd → CmdEnd} (h : s.schPick ≠ some q.val) :
    schRow q want body s = .next s := by
  unfold schRow
  split
  · rename_i hk _
    rw [if_neg]
    rintro hb
    simp only [Bool.and_eq_true, decide_eq_true_eq] at hb
    exact h (by rw [hk, hb.1])
  · rfl

/-- The checks of R397 in their order. -/
theorem checked_access {s : State} {c : Cmd} {body : State → Cmd → CmdEnd} (h : s.mayExecute c = false) :
    s.checked c body = .fin s eACCESS 0 := by simp [State.checked, h]

/-- E_PARAM comes second. -/
theorem checked_params {s : State} {c : Cmd} {body : State → Cmd → CmdEnd} (h : s.mayExecute c = true) (hp : s.badParam c = true) :
    s.checked c body = .fin s ePARAM 0 := by simp [State.checked, h, hp]

/-- E_STATE comes third. -/
theorem checked_state {s : State} {c : Cmd} {body : State → Cmd → CmdEnd} (h : s.mayExecute c = true) (hp : s.badParam c = false)
    (hl : c.legal s.mstate = false) : s.checked c body = .fin s eSTATE 0 := by simp [State.checked, h, hp, hl]

/-- A command that passes has its effect. -/
theorem checked_passes {s : State} {c : Cmd} {body : State → Cmd → CmdEnd} (h : s.mayExecute c = true) (hp : s.badParam c = false)
    (hl : c.legal s.mstate = true) : s.checked c body = body s c := by simp [State.checked, h, hp, hl]

/-- A command that ends completes with its CODE and RESULT. -/
@[simp] theorem settle_fin (s : State) (code : Nat) (res : W64) (q op : Nat) :
    (CmdEnd.fin s code res).settle q op = s.finishCmd q code res := rfl

/-- A command that goes on stands in progress. -/
@[simp] theorem settle_run (s : State) (k : RunKind) (f : State → State) (q op : Nat) :
    (CmdEnd.run s k f).settle q op = f { s with runs := s.runs.filter (·.q ≠ q) ++ [⟨q, op, k⟩] } := rfl

/-- A read for a command goes on with the bytes where it is OK. -/
theorem cmdReadThen_ok {s : State} {mid a n : Nat} {f : State → List Byte → CmdEnd} (h : (s.cmdRead mid a n).2.1 = eOK) :
    s.cmdReadThen mid a n f = f (s.cmdRead mid a n).1 (s.cmdRead mid a n).2.2 := by simp [State.cmdReadThen, h]

/-- A read for a command that is not OK ends the command with its status. -/
theorem cmdReadThen_bad {s : State} {mid a n : Nat} {f : State → List Byte → CmdEnd} (h : (s.cmdRead mid a n).2.1 ≠ eOK) :
    s.cmdReadThen mid a n f = .fin (s.cmdRead mid a n).1 (s.cmdRead mid a n).2.1 0 := by simp [State.cmdReadThen, h]

/-- A write for a command goes on where it is OK. -/
theorem cmdWriteThen_ok {s : State} {mid a : Nat} {b : List Byte} {f : State → CmdEnd} (h : (s.cmdWrite mid a b).2 = eOK) :
    s.cmdWriteThen mid a b f = f (s.cmdWrite mid a b).1 := by simp [State.cmdWriteThen, h]

/-- A write for a command that is not OK ends the command with its status. -/
theorem cmdWriteThen_bad {s : State} {mid a : Nat} {b : List Byte} {f : State → CmdEnd} (h : (s.cmdWrite mid a b).2 ≠ eOK) :
    s.cmdWriteThen mid a b f = .fin (s.cmdWrite mid a b).1 (s.cmdWrite mid a b).2 0 := by simp [State.cmdWriteThen, h]

end Sys2Proof.Machine
end

