-- ==== Sys2Proof/WellFormed.lean ====
section
/-!
DEFINITION. WellFormed.lean: when a command is one that a sender of the spec can send.
-/
namespace Sys2Proof

/-- The master IDs of R37; no other ID is issued. -/
def assignedMid (m : BitVec 10) : Bool :=
  let n := m.toNat
  n < 0x123 || (0x130 ≤ n && n ≤ 0x132) || (0x200 ≤ n && n ≤ 0x203) || n == 0x3FF

/-- A register access has size 4 or 8 on the wire, or another size the block refuses; at most 8 bytes of data (R34). -/
def accessSizeOk (size : BitVec 8) : Bool := 1 ≤ size.toNat && size.toNat ≤ 8

/-- A command is well formed: its master ID is issued (R37), a sensor sample holds 160 readings (R453), a boundary-scan
command fits the port, and a PLDM transfer fits one I3C write (R491). -/
def Instr.wf : Instr → Bool
  | .registerWrite m _ s _ => assignedMid m && accessSizeOk s
  | .registerReadClear m _ s => assignedMid m && accessSizeOk s
  | .commandSubmit m _ _ => assignedMid m
  | .clStart m _ | .clResume m _ | .clSkip m _ | .clStop m _ | .clPause m _ => assignedMid m
  | .klnTouchClr m | .secChalGen m | .secDbgClose m | .imgCalSave m => assignedMid m
  | .lnkEnable m _ | .lnkDisable m _ | .lnkRetrain m _ => assignedMid m
  | .lnkLoopSet m _ _ => assignedMid m
  | .lnkEyeStart m _ _ _ _ => assignedMid m
  | .routeEntWrite m _ | .coneSet m _ | .hringTailWrite m _ => assignedMid m
  | .routeKeyWrite m _ _ => assignedMid m
  | .coneAlarmEnable m _ _ => assignedMid m
  | .hbmAccess m _ _ _ => assignedMid m
  | .hbmInjectArm m _ _ => assignedMid m
  | .apcRunWrite m _ => assignedMid m
  | .imgErase m _ _ | .imgProgram m _ _ => assignedMid m
  | .sensorSample t _ _ _ => t.length == 160
  | .pldmFirmwareTransfer _ d _ => d.length ≤ 256
  | _ => true

end Sys2Proof
end

