-- ==== Sys2Proof/Tests/Slice0.lean ====
section
/-!
SUPPORT. Tests/Slice0.lean: small checks of the model against the spec's own examples and tables, the well-formedness checks, and, for
the statements with hypotheses, states and operands that meet them.
-/
namespace Sys2Proof.Tests

open Sys2Proof Sys2Proof.Machine Sys2Proof.Claims

set_option Elab.async false

/-! ## Well-formed commands: each check refuses a term -/

theorem test_wf_unissued_master : (Instr.registerWrite 0x123 0 8 0).wf = false := by decide

theorem test_wf_engine_master : (Instr.registerWrite 0x130 0 8 0).wf = true := by decide

theorem test_wf_access_of_no_bytes : (Instr.registerWrite 0x120 0 0 0).wf = false := by decide

theorem test_wf_access_of_nine_bytes : (Instr.registerReadClear 0x120 0 9).wf = false := by decide

theorem test_wf_fabric_master_past_the_last : (Instr.clStart 0x204 5).wf = false := by decide

theorem test_wf_sample_of_one_reading : (Instr.sensorSample [300] 0 0 0).wf = false := by decide

theorem test_wf_transfer_of_256_bytes : (Instr.pldmFirmwareTransfer .i3c (List.replicate 256 0) true).wf = true := by decide +kernel

theorem test_wf_transfer_of_257_bytes : (Instr.pldmFirmwareTransfer .i3c (List.replicate 257 0) true).wf = false := by decide +kernel

/-! ## Small states -/

/-- Whether a cluster's tables are canonical. -/
def clusterOk (c : Cluster) : Bool :=
  Tab.wf (fun _ => (0 : BitVec 8192)) c.v && Tab.wf (fun _ => (0 : BitVec 512)) c.p && Tab.wf (fun _ => (0 : BitVec 128)) c.t
    && Tab.wf (fun _ => AccSet.reset) c.a && Tab.wf (fun _ => MoveSlot.reset) c.slots && Tab.wf (fun _ => DigSlot.reset) c.digs

/-- Whether the tables that `Canon` names are canonical. -/
def canonOk (s : State) : Bool :=
  Tab.wf regReset s.regs && Tab.wf (fun _ => Cluster.reset) s.clusters && Memory.wf 0 s.mem
    && Tab.wf (fun _ => (0 : BitVec 72)) s.memErr && Memory.wf 0 s.poolMem && Memory.wf 0xFF s.flash
    && s.clusters.all fun e => clusterOk e.2

theorem get_of_all {α : Type} (d : α) (p : α → Bool) (hd : p d = true) (t : Tab α) (h : t.all (fun e => p e.2) = true) (n : Nat) :
    p (t.get d n) = true := by
  induction t with
  | nil => exact hd
  | cons e t ih =>
    simp only [List.all_cons, Bool.and_eq_true] at h
    unfold Tab.get
    split
    · exact h.1
    split
    · exact hd
    · exact ih h.2

/-- A state that the check accepts is canonical. -/
theorem canon_of_ok {s : State} (h : canonOk s = true) : Canon s := by
  simp only [canonOk, Bool.and_eq_true] at h
  obtain ⟨⟨⟨⟨⟨⟨h1, h2⟩, h3⟩, h4⟩, h5⟩, h6⟩, h7⟩ := h
  refine ⟨h1, fun n => ?_, h2, h3, h4, h5, h6⟩
  have := get_of_all Cluster.reset clusterOk rfl s.clusters h7 n
  simp only [clusterOk, Bool.and_eq_true] at this
  exact ⟨this.1.1.1.1.1, this.1.1.1.1.2, this.1.1.1.2, this.1.1.2, this.1.2, this.2⟩

/-- Cluster 0 is RUNNING at offset 0 of its store, in a module that is RUNNING. -/
def running : State := (State.reset.put sysState_STATE mRUNNING).put (clState_STATE 0) clRUNNING

/-- An instruction without an extension word and with every field zero. -/
def word0 : Issue := ⟨0, 0, 0, 0, 0, 0, 0, 0, false, 0, false, false, 0, 0, false⟩

/-- The fields of a word that most instructions read. -/
def wordOf (dst src1 src2 aux : BitVec 6) (imm : BitVec 8 := 0) (fa fb fd : BitVec 4 := 0) : Issue :=
  { word0 with
    dst := dst
    src1 := src1
    src2 := src2
    aux := aux
    imm8 := imm
    fmta := fa
    fmtb := fb
    fmtd := fd }

/-- A word with an extension word. -/
def withExt (i : Issue) (e : BitVec 64) : Issue :=
  { i with
    x := true
    ext := e }

/-- The conditions of `Issues` as a check. -/
def issuesOk (s : State) (cl : Fin 128) (i : Issue) : Bool :=
  decide (s.clSt cl = clRUNNING) && (s.cl cl).wait.isNone && !s.pauseDue cl && decide (s.pc cl < storeSize)
    && (!i.x || decide (s.pc cl + 8 < storeSize))

theorem issues_of_ok {s : State} {cl : Fin 128} {i : Issue} (h : issuesOk s cl i = true) : Issues s cl i := by
  simp only [issuesOk, Bool.and_eq_true, decide_eq_true_eq, Bool.not_eq_true', Option.isNone_iff_eq_none, Bool.or_eq_true] at h
  exact ⟨h.1.1.1.1, h.1.1.1.2, h.1.1.2, h.1.2, fun hx => by rcases h.2 with h2 | h2 <;> simp_all⟩

/-- The conditions of `MayWrite` as a check. -/
def mayOk (s : State) (mid : BitVec 10) (b : Nat) (right : Nat := aCFG) : Bool :=
  s.masterOn mid.toNat && !s.accHeld mid.toNat && !(decide (0x130 ≤ mid.toNat) && decide (mid.toNat ≤ 0x132))
    && s.granted b mid.toNat right

theorem may_of_ok {s : State} {mid : BitVec 10} {b r : Nat} (h : mayOk s mid b r = true) : MayWrite s mid b r := by
  simp only [mayOk, Bool.and_eq_true, Bool.not_eq_true', Bool.and_eq_false_imp, decide_eq_true_eq, decide_eq_false_iff_not] at h
  exact ⟨h.1.1.1, h.1.1.2, fun hx => h.1.2 hx.1 hx.2, h.2⟩

theorem test_wit_reset : Canon State.reset ∧ State.reset.pending = [] ∧ State.reset.coneFrac < 256 :=
  ⟨canon_of_ok (by decide +kernel), rfl, by decide⟩

theorem test_wit_running_state : Canon running := canon_of_ok (by decide +kernel)

/-- What a next state shows; none where the answer is no next state. -/
def shows {α : Type} (o : Answer) (f : State → α) : Option α :=
  match o with
  | .next t => some (f t)
  | _ => none

/-! ## The control and scalar classes -/

/-- `running` with S1 = `a` and S2 = `b`. -/
def with12 (a b : W64) : State := (running.setS 0 1 a).setS 0 2 b

theorem test_wit_cx_flow : Issues running 0 word0 ∧ On running 0 word0 ∧ TargetOk (running.target 0 word0)
    ∧ TargetOk (running.target 0 (withExt word0 0x5FFFF8)) ∧ ¬ TargetOk (running.target 0 (withExt word0 0x600000))
    ∧ ¬ TargetOk (running.target 0 (withExt word0 4)) :=
  ⟨issues_of_ok (by decide +kernel), by unfold On; decide +kernel, by unfold TargetOk; decide +kernel, by unfold TargetOk; decide +kernel,
    by unfold TargetOk; decide +kernel, by unfold TargetOk; decide +kernel⟩

theorem test_wit_branch_taken_and_not : (with12 0 5).sReg 0 1 = 0 ∧ (with12 7 5).sReg 0 1 ≠ 0
    ∧ ((with12 (-1) 0).sReg 0 1).toInt < ((with12 (-1) 0).sReg 0 2).toInt ∧ sAfter 1 ((with12 1 0).sReg 0 1 - 1) = 0
    ∧ sAfter 1 ((with12 2 0).sReg 0 1 - 1) ≠ 0 ∧ Canon (with12 2 0) ∧ (∀ c ∈ (with12 2 0).colls, c.cl ≠ 0) :=
  ⟨by decide +kernel, by decide +kernel, by decide +kernel, by decide +kernel, by decide +kernel, canon_of_ok (by decide +kernel),
    by decide +kernel⟩

theorem test_wit_cx_waits : (State.reset.now < (5 : W64).toNat) ∧ (0 : W64).toNat ≤ State.reset.now
    ∧ running.asyncRunning 0 = false ∧ running.asyncFailed 0 = none ∧ bitsOf (running.sReg 0 0) 4 2 ≠ 3
    ∧ running.get digDet_DETERMINISTIC = 0 := by decide +kernel

/-- `running` whose cluster 0 waits for cone count 0. -/
def waiting : State :=
  running.modCl 0 fun c => { c with wait := some ⟨.cone 0, withExt word0 0, 0, 0x08, 0, 16, 0⟩ }

theorem test_wit_waitcone_due : ∃ w, (waiting.cl 0).wait = some w ∧ w.kind = .cone 0 ∧ (0 : W64).toNat ≤ waiting.now :=
  ⟨_, rfl, rfl, by decide⟩

/-- R78, R97: a taken branch over sixteen instructions. -/
theorem test_jmp_moves_the_pc : shows (exec (.cxJmp 0 { word0 with imm8 := 16 }) running) (·.pc 0) = some 128 := by decide +kernel

/-- R97: the branch falls through where Ss1 is not zero. -/
theorem test_bz_falls_through : shows (exec (.cxBz 0 { wordOf 0 1 0 0 with imm8 := 16 }) (with12 1 0)) (·.pc 0) = some 8 := by
  decide +kernel

/-- R78: a branch to an offset that is no multiple of 8 raises FETCH at the branch. -/
theorem test_jmp_misaligned : shows (exec (.cxJmp 0 (withExt word0 4)) running) (fun t => (t.get (clExc_CAUSE 0), t.pc 0, t.clSt 0)) =
    some (2, 0, clEXCEPTION) := by decide +kernel

/-- R97: the return address of a call with an extension word. -/
theorem test_call_saves_next : shows (exec (.cxCall 0 { withExt (wordOf 9 0 0 0) 0x80 with pred := 0 }) running)
    (fun t => (t.sReg 0 9, t.pc 0)) = some (16, 0x80) := by decide +kernel

/-- R74: a write to S0 is discarded and LOOP on it goes on for ever. -/
theorem test_loop_on_s0 : shows (exec (.cxLoop 0 { wordOf 0 0 0 0 with imm8 := 0xFF }) (running.put (clState_PC 0) 16))
    (fun t => (t.sReg 0 0, t.pc 0)) = some (0, 24) := by decide +kernel

/-- R97, R98: a WAITCONE that is late completes. -/
theorem test_waitcone_late : shows (exec (.cxWaitcone 0 (withExt word0 0)) running) (fun t => (t.pc 0, (t.cl 0).wait.isSome)) =
    some (16, false) := by decide +kernel

/-- R97: BREAK is cause 7. -/
theorem test_brk : shows (exec (.cxBrk 0 word0) running) (fun t => (t.get (clExc_CAUSE 0), t.clSt 0)) = some (7, clEXCEPTION) := by
  decide +kernel

theorem test_wit_exception_entry : (Exc.plain xBREAK).cause < 256 ∧ (0 : Nat) < 2 ^ 23 ∧ running.pc 0 < 2 ^ 23 := by decide +kernel

theorem test_wit_completion_record : running.get (clCtrl_CREC 0) ≠ 1 ∧ (fOF ≠ 0) ∧ recOff running 0 + 16 ≤ storeSize := by decide +kernel

/-- R99: SX arithmetic wraps. -/
theorem test_add_wraps : shows (exec (.sxAdd 0 (wordOf 3 1 2 0)) (with12 0xFFFFFFFFFFFFFFFF 2)) (·.sReg 0 3) = some 1 := by decide +kernel

/-- R99: the high half of a signed product: (-1) * 2 has high half -1. -/
theorem test_mulh_signed : shows (exec (.sxMulh 0 (wordOf 3 1 2 0)) (with12 (-1) 2)) (·.sReg 0 3) = some 0xFFFFFFFFFFFFFFFF := by
  decide +kernel

/-- R99: shifts take the low six bits of Ss2. -/
theorem test_shl_modulo_64 : shows (exec (.sxShl 0 (wordOf 3 1 2 0)) (with12 1 65)) (·.sReg 0 3) = some 2 := by decide +kernel

/-- R99: an arithmetic shift keeps the sign. -/
theorem test_sra_sign : shows (exec (.sxSra 0 (wordOf 3 1 2 0)) (with12 0x8000000000000000 63)) (·.sReg 0 3) = some 0xFFFFFFFFFFFFFFFF := by
  decide +kernel

/-- R99: the comparison is signed. -/
theorem test_slt_signed : shows (exec (.sxSlt 0 (wordOf 3 1 2 0)) (with12 (-1) 1)) (·.sReg 0 3) = some 1 := by decide +kernel

/-- R99: LDI takes the extension word where it has one. -/
theorem test_ldi_extended : shows (exec (.sxLdi 0 (withExt (wordOf 5 0 0 0) 0x123456789ABCDEF0)) running) (·.sReg 0 5) =
    some 0x123456789ABCDEF0 := by decide +kernel

/-- R33, R99: a load from an address that is no multiple of 8 raises ALIGN. -/
theorem test_ld_misaligned : shows (exec (.sxLd 0 (wordOf 3 1 0 0)) (with12 4 0)) (fun t => t.get (clExc_CAUSE 0)) = some 4 := by
  decide +kernel

/-- R325: STEPCHK raises STEP_SKEW where the steps differ. -/
theorem test_stepchk_skew : shows (exec (.sxStepchk 0 (wordOf 0 1 0 0)) (with12 7 0)) (fun t => t.get (clExc_CAUSE 0)) = some 9 := by
  decide +kernel

/-- R75: an index beyond the register file is a reserved encoding. -/
theorem test_reserved_register : shows (exec (.sxAdd 0 (wordOf 40 1 2 0)) running) (fun t => t.get (clExc_CAUSE 0)) = some 1 := by
  decide +kernel

/-- R80: an instruction whose predicate bit is 0 completes without effect. -/
theorem test_predicated_off : shows (exec (.sxAdd 0 { wordOf 3 1 2 0 with pred := 1 }) (with12 3 4)) (fun t => (t.sReg 0 3, t.pc 0)) =
    some (0, 8) := by decide +kernel

/-- `running` with S1 = an address in the store of cluster 0, on which the cluster has rights. -/
def atStore : State := (with12 (BitVec.ofNat 64 (storeAddr 0 0x1000)) 0x1122334455667788).setRights 0x200 0 15

theorem test_wit_sx_memory : atStore.accHeld 0 = false ∧ atStore.hazard 0 [] [] [] = false
    ∧ (atStore.sReg 0 1).toNat % 8 = 0 ∧ (atStore.sReg 0 1).toNat < 2 ^ 48
    ∧ (atStore.busRead 0 (storeAddr 0 0x1000) 8).2.1 = rOK
    ∧ (atStore.busWrite 0 (storeAddr 0 0x1000) (bytesLE 8 (atStore.sReg 0 2).toNat)).2.1 = rOK
    ∧ (with12 0 0).sReg 0 1 = (with12 0 0).rd (clJstep 0) ∧ (with12 1 0).sReg 0 1 ≠ (with12 1 0).rd (clJstep 0) := by decide +kernel

/-- R9, R99: a store is little-endian. -/
theorem test_st_little_endian : shows (exec (.sxSt 0 (wordOf 0 1 2 0)) atStore)
    (fun t => (Tab.get 0 t.mem (storeAddr 0 0x1000), Tab.get 0 t.mem (storeAddr 0 0x1007))) = some (0x88, 0x11) := by decide +kernel

/-! ## Number formats: the worked examples of R60 -/

/-- The code and flags of `m * 2^e` converted to format `f`, ties to even. -/
def narrow (f : Nat) (sat : Bool) (m : Nat) (e : Int) : Nat × Nat :=
  let r := convert f .rne sat (.fin false m e)
  (r.code, r.fl)

/-- R60: 400, 432, 456 and 464 in E4M3: 384, 448, 448 and 448, inexact. -/
theorem test_e4m3_examples : (narrow 5 false 400 0, narrow 5 false 432 0, narrow 5 false 456 0, narrow 5 false 464 0) =
    ((0x7C, fNX), (0x7E, fNX), (0x7E, fNX), (0x7E, fNX)) := by decide +kernel

/-- R60: 465 in E4M3 overflows: NaN under SAT = 0, 448 under SAT = 1; toward zero it is 448, inexact. -/
theorem test_e4m3_overflow : (narrow 5 false 465 0, narrow 5 true 465 0, (convert 5 .rz false (.fin false 465 0)).code,
    (convert 5 .rz false (.fin false 465 0)).fl) = ((0x7F, fOF ||| fNX), (0x7E, fOF ||| fNX), 0x7E, fNX) := by decide +kernel

/-- R60: 0.25, 0.75, 2.5, 3.5, 5, a value below 0.25 and 7 in E2M1: 0, 1, 2, 4, 4, 0 and 6. -/
theorem test_e2m1_examples : [narrow 8 false 1 (-2), narrow 8 false 3 (-2), narrow 8 false 5 (-1), narrow 8 false 7 (-1), narrow 8 false 5 0,
    narrow 8 false 69 (-10), narrow 8 false 7 0] =
    [(0, fUF ||| fNX), (2, fNX), (4, fNX), (6, fNX), (6, fNX), (0, fUF ||| fNX), (7, fOF ||| fNX)] := by decide +kernel

/-- R60: -9 in E2M1 is clamped to -6. -/
theorem test_e2m1_negative : (convert 8 .rne false (.fin true 9 0)).code = 15 := by decide

/-- R62: 0.75 in E8M0 is 2^-1, with exponent code 126. -/
theorem test_e8m0_floor : (narrow 9 false 3 (-2)).1 = 126 := by decide

theorem test_wit_conversions : isNanCode 3 0x7C01 = true ∧ decodeNum 1 0x7F800001 = .nan true ∧ (ExNum.nan true).isSnan = true
    ∧ decodeNum 5 0x7E = .fin false 14 5 ∧ 0x7E < 2 ^ fmtBits 5 := by decide +kernel

/-! ## The vector class -/

/-- `running` with V1 and V2 holding the FP32 codes `a` and `b` in lane 0. -/
def lane0 (a b : Nat) : State := (running.setV 0 1 (BitVec.ofNat 8192 a)).setV 0 2 (BitVec.ofNat 8192 b)

/-- The FP32 word of an instruction V3 := V1 op V2. -/
def vec : Issue := wordOf 3 1 2 0 0 1 1 1

theorem test_wit_vector : Issues running 0 vec ∧ On running 0 vec ∧ Canon (lane0 1 2) ∧ (∀ op, op < 64 → VxFree (lane0 1 2) 0 op vec) :=
  ⟨issues_of_ok (by decide +kernel), by unfold On; decide +kernel, canon_of_ok (by decide +kernel), fun _ _ => rfl⟩

theorem test_wit_vector_formats : elemFmt 0 = true ∧ elemFmt 8 = true ∧ isInt 10 = true ∧ isInt 13 = true ∧ elemOrScale 9 = true
    ∧ vec.src2.toNat < 32 ∧ vec.upset = false := by decide

/-- R100: 1.0 - 2.0 = -1.0: the operand order. -/
theorem test_vsub : shows (exec (.vxSub 0 vec) (lane0 0x3F800000 0x40000000)) (fun t => (t.vReg 0 3).toNat % 2 ^ 32) =
    some 0xBF800000 := by decide +kernel

/-- R48: the maximum of a number and a NaN is NaN, the maximumNumber is the number. -/
theorem test_max_nan : ((nMinMax true false (decodeNum 1 0x7FC00000) (decodeNum 1 0x40000000)).val,
    (nMinMax true true (decodeNum 1 0x7FC00000) (decodeNum 1 0x40000000)).val) = (.nan false, decodeNum 1 0x40000000) := by decide +kernel

/-- R102: SCANBITS finds the set bits from Ss2 on, in ascending order, and counts them. -/
theorem test_scanbits : shows (exec (.vxScanbits 0 (wordOf 3 1 2 5)) ((running.setV 0 1 0b101001).setS 0 2 1))
    (fun t => ((t.vReg 0 3).toNat % 2 ^ 96, t.sReg 0 5)) = some (0xFFFFFFFF0000000500000003, 2) := by decide +kernel

/-- R80: PMASK sets the bits below Ss1. -/
theorem test_pmask : shows (exec (.vxPmask 0 (wordOf 1 1 0 0)) (with12 3 0)) (fun t => (t.pReg 0 1).toNat % 2 ^ 8) = some 7 := by
  decide +kernel

/-- R101: the sum of 1.0 in lane 0 and zeros. -/
theorem test_red_sum : shows (exec (.vxRed 0 (wordOf 4 1 0 0 0 1 1 1)) (lane0 0x3F800000 0)) (·.sReg 0 4) = some 0x3F800000 := by
  decide +kernel

theorem test_wit_vector_store : (with12 0x80 0).sReg 0 1 = 0x80 ∧ ((with12 0x80 0).rawRead 0 (storeAddr 0 0x80) 1024).2.1 = rOK
    ∧ ((with12 0x80 0).rawWrite 0 (storeAddr 0 0x80) (bytesLE 1024 0)).2 = rOK ∧ denOf (withExt word0 0) = false
    ∧ (∀ k, k < 256 → ((running.setP 0 1 0).pReg 0 1).getLsbD k = false) := by decide +kernel

theorem test_wit_vector_den : denOf (withExt word0 (2 ^ 57)) = true := by decide

/-! ## Tensors: the matrix, move, digest and queue classes -/

/-- A descriptor of LAYOUT 0 with one plane. -/
def desc (addr fmt dim0 dim1 stride : Nat) : BitVec 128 :=
  BitVec.ofNat 128 (addr / 16 + fmt * 2 ^ 44 + 2 ^ 52 + dim0 * 2 ^ 64 + dim1 * 2 ^ 80 + stride / 16 * 2 ^ 96)

/-- `running` with a 1 x 2 FP32 tensor [1, 2] in T1, a 2 x 1 tensor [3, 4] in T2, both in the store, and a 1 x 1 place in T3. -/
def tensors : State :=
  let s := ((running.setT 0 1 (desc (storeAddr 0 0x1000) 1 2 1 16)).setT 0 2 (desc (storeAddr 0 0x2000) 1 1 2 16)).setT 0 3
    (desc (storeAddr 0 0x3000) 1 1 1 16)
  let m := writeBytes 0 [] (storeAddr 0 0x1000) (bytesLE 8 0x400000003F800000)
  { s with mem := writeBytes 0 m (storeAddr 0 0x2000) (bytesLE 20 (0x40400000 + 0x40800000 * 2 ^ 128)) }

/-- The word of an MMA of T1 and T2. -/
def mma (dst : BitVec 6) (imm : BitVec 8) : Issue := wordOf dst 1 2 0 imm 1 1 1

/-- R53, R103: 1 * 3 + 2 * 4 = 11 in the accumulator form. -/
theorem test_mma : shows (exec (.mxMma 0 (mma 0 0)) tensors)
    (fun t => ((convert 1 .rne false ((t.aSet 0 0).elems.get ExNum.zero 0)).code, (t.aSet 0 0).tag)) = some (0x41300000, AccTag.f32) := by
  decide +kernel

/-- R103: the tensor form stores the result. -/
theorem test_mma_to_tensor : shows (exec (.mxMma 0 (mma 3 4)) tensors)
    (fun t => natLE (readBytes 0 t.mem (storeAddr 0 0x3000) 4)) = some 0x41300000 := by decide +kernel

/-- R103: a mismatch in K raises ILLEGAL. -/
theorem test_mma_mismatch : shows (exec (.mxMma 0 (wordOf 0 1 1 0 0 1 1 1)) tensors) (fun t => t.get (clExc_CAUSE 0)) = some 1 := by
  decide +kernel

theorem test_wit_mma : mmaLegal tensors 0 1 2 1 1 = true ∧ inStore 0 (tensors.mPair 0 1) = true ∧ inStore 0 (tensors.mPair 0 2) = true
    ∧ inStore 0 (tensors.mPair 0 3) = true ∧ (readPair 0 tensors (tensors.mPair 0 1) (tensors.mPair 0 2)).2.1 = rOK
    ∧ tensors.tensorOk 0 3 1 true = true ∧ (tensors.mPair 0 3).1.dim1 = 1 ∧ mxBlocks 1 1 ≤ 8
    ∧ (tensors.aSet 0 0).tag = .empty ∧ Tab.wf (fun _ => ExNum.zero) (tensors.aSet 0 0).elems = true
    ∧ (tensors.mPair 0 1).1.empty = false ∧ (tensors.mPair 0 5).1.empty = true ∧ mxFmt 1 = true := by decide +kernel

theorem test_wit_matrix_moves : Canon tensors ∧ Issues tensors 0 (mma 0 0) ∧ (∀ sets rng, (∀ a ∈ sets, a < 8) → MxFree tensors 0 sets rng)
    ∧ (readScaled (ownPort 0) tensors (tensors.mPair 0 1).1 (tensors.mPair 0 1).2).2.1 = rOK ∧ (mma 0 0).imm8.toNat % 4 ≠ 3 :=
  ⟨canon_of_ok (by decide +kernel), issues_of_ok (by decide +kernel),
    fun sets rng h => ⟨fun a ha => by
      have : ∀ k, k < 8 → (tensors.aSet 0 k).held = false := by decide +kernel
      exact this a (h a ha), rfl⟩, by decide +kernel, by decide +kernel⟩

/-- R103: RMAX of [1, 2] is 2. -/
theorem test_rmax : shows (exec (.mxRmax 0 (wordOf 3 1 0 0 0 1 1 1)) tensors)
    (fun t => natLE (readBytes 0 t.mem (storeAddr 0 0x3000) 4)) = some 0x40000000 := by decide +kernel

theorem test_wit_async : (tensors.freeSlotOf 0 = some 0) ∧ movFmts 1 1 = true ∧ tensors.tensorOk 0 1 1 true = true
    ∧ tensors.tensorOk 0 2 1 false = true ∧ spansMeet (tensors.tPair 0 1) (tensors.tPair 0 2) = false
    ∧ sameDims (tensors.tPair 0 1).1 (tensors.tPair 0 1).1 = true ∧ (tensors.tPair 0 1).1.totalBytes ≤ 4096
    ∧ tensors.accHeld 0 = false := by decide +kernel

/-- `tensors` with a move of T2 to T4 running in slot 0 of cluster 0, its ring of completion records past the end of the store. -/
def moving : State :=
  match exec (.txMov 0 (wordOf 4 4 2 0 0 1 0 1)) (((tensors.setRights 0x200 0 15).put (clCring_BASE 0) 2047).setT 0 4 (desc (storeAddr 0 0x4000) 1 1 2 16)) with
  | .next t => t
  | _ => tensors

/-- R90, R105: the move is accepted with handle 0x1000, and its end copies the elements and frees the slot. -/
theorem test_mov_moves : (moving.sReg 0 4, shows (exec (.asyncOpFinish 0 0) moving)
    (fun t => (natLE (readBytes 0 t.mem (storeAddr 0 0x4010) 4), (t.slot 0 0).op.isNone, (t.slot 0 0).gen))) =
    (0x1000, some (0x40800000, true, 1)) := by decide +kernel

theorem test_wit_async_finish : ((moving.slot 0 0).op.map fun o => (o.kind, o.st, o.waiting)) = some (.mov, .running, 0)
    ∧ moving.accHeld 0 = false ∧ (tensors.slot 0 0).op = none := by decide +kernel

theorem test_wit_descriptors : ((with12 0x100 0).rawRead 0 (storeAddr 0 0x100) 16).2.1 = rOK
    ∧ ((with12 0x100 0).rawWrite 0 (storeAddr 0 0x100) (bytesLE 16 0)).2 = rOK ∧ (tsetField 0).2.2 ≤ 16
    ∧ 0x1000 ≤ ((with12 0x1000 0).sReg 0 1).toNat ∧ ((with12 0x1000 0).slot 0 0).op = none ∧ ((with12 0x11FF 0).sReg 0 1).toNat < 0x1200 := by
  decide +kernel

/-- R90: TX.WAIT on a value that is no move handle raises HANDLE. -/
theorem test_wait_no_handle : shows (exec (.txWait 0 (wordOf 0 1 0 0)) (with12 0x1200 0)) (fun t => t.get (clExc_CAUSE 0)) = some 10 := by
  decide +kernel

theorem test_wit_digest : ((tensors.setRights 0x200 0 15).tensorOk 0 2 1 false) = true ∧ (TD.of (tensors.tReg 0 2)).empty = false
    ∧ (readTensor (busPort 0) (tensors.setRights 0x200 0 15) (TD.of (tensors.tReg 0 2))).2.1 = rOK := by decide +kernel

/-- R345: the digest of two elements counts both, and NANS stays 0. -/
theorem test_digest_counts : shows (exec (.dxDigest 0 (wordOf 0 0 2 0 0 1 0 0)) (tensors.setRights 0x200 0 15))
    (fun t => (((t.cl 0).digs.get DigSlot.reset 0).count, ((t.cl 0).digs.get DigSlot.reset 0).nans)) = some (2, 0) := by decide +kernel

theorem test_wit_queue : (with12 0x40 0).accHeld 0 = false ∧ 0x40 + 64 ≤ storeSize ∧ ((with12 0x40 0).rawRead 0 (storeAddr 0 0x40) 64).2.1 = rOK
    ∧ ((with12 0x40 0).rawRead 0 (storeAddr 0 0x40) 64).1.granted 0x004 0 aXQ = false
    ∧ (((with12 0x40 0).setRights 4 0 15).rawRead 0 (storeAddr 0 0x40) 64).1.granted 0x004 0 aXQ = true
    ∧ (∀ e ∈ (running.cl 0).qready, e.1 ≠ 0) := by decide +kernel

/-- `tensors` in which slot 0 of queue 0 of cluster 0 holds a message of 8 bytes. -/
def messaged : State := (tensors.setRights 0x200 0 15).modCl 0 fun c => { c with qready := [(0, 0, 8)] }

theorem test_wit_recv : (messaged.cl 0).qready.find? (fun e => e.1 = 0) = some (0, 0, 8)
    ∧ (messaged.rawRead 0 (storeAddr 0 0) 8).2.1 = rOK
    ∧ (writePieces (busPort 0) messaged ((TD.of (messaged.tReg 0 1)).bytePieces (List.replicate 8 0))).2.1 = rOK := by decide +kernel

/-- R108: POLL counts the ready slots of its queue only. -/
theorem test_poll : shows (exec (.qxPoll 0 (wordOf 5 0 0 0 0)) (messaged.modCl 0 fun c => { c with qready := [(0, 0, 8), (1, 0, 8), (0, 1, 4)] }))
    (·.sReg 0 5) = some 2 := by decide +kernel

/-! ## Plans and collectives -/

/-- `with12` in a machine whose X axis has two members, this one the first. -/
def two (a b : W64) : State := { with12 a b with topo := { State.reset.topo with ex := 2 } }

/-- A LINE plan of two members with one phase and CTXQ 96: words 0 and 1 of its descriptor, ALG `alg`, member `idx`. -/
def planWords (alg idx : Nat) : Nat × Nat := (1 + alg * 4 + 96 * 2 ^ 32 + 96 * 2 ^ 48, 4 + idx * 128 + 2 ^ 17)

/-- The plan of `planWords`. -/
def lineOf (alg idx : Nat) : Plan := planOf (planWords alg idx).1 (planWords alg idx).2 0

/-- `two` with that descriptor at offset 0x100 of the store of cluster 0. -/
def planned (a : W64) : State :=
  let m := writeBytes 0 [] (storeAddr 0 0x100) (bytesLE 8 (planWords 0 0).1)
  { two a 0 with mem := writeBytes 0 m (storeAddr 0 0x108) (bytesLE 8 (planWords 0 0).2) }

theorem test_wit_plan : planned 0x100 |>.hazard 0 [] [] [(storeAddr 0 0x100, storeAddr 0 0x120, false)] |> (· = false) := by decide +kernel

theorem test_wit_plan_ok : (planned 0x100).planOk (lineOf 0 0) 1 = true ∧ (planned 0x100).planOk (lineOf 0 0) 2 = true
    ∧ (planned 0x100).planBusy 0 0 = false
    ∧ (planned 0x100).quotaOk 0 0 (lineOf 0 0) = true ∧ ((planned 0x100).put klnCtxAllow_ALLOW 95).quotaOk 0 0 (lineOf 0 0) = false
    ∧ ((planned 0x100).rawRead 0 (storeAddr 0 0x100) 32).2.1 = rOK := by decide +kernel

/-- R121, R123: FX.PLAN makes its register valid. -/
theorem test_plan_loads : shows (exec (.fxPlan 0 (wordOf 5 1 0 0)) (planned 0x100)) (fun t => ((t.plan 0 5).map (·.plan), t.pc 0)) =
    some (some (lineOf 0 0), 8) := by decide +kernel

/-- R121: a plan that is not at a multiple of 32 raises ALIGN. -/
theorem test_plan_misaligned : shows (exec (.fxPlan 0 (wordOf 5 1 0 0)) (planned 0x108)) (fun t => t.get (clExc_CAUSE 0)) = some 4 := by
  decide +kernel

/-- `two` with the plan of `lineOf` valid in register 1 of cluster 0. -/
def loaded (alg idx : Nat) (a : W64) : State := (two a 0).loadPlan 0 1 (lineOf alg idx) false

/-- The word of a fused instruction under plan register 1. -/
def fused (dst src1 src2 aux : BitVec 6) (imm : BitVec 8 := 0) (fa fb fd : BitVec 4 := 0) : Issue :=
  withExt (wordOf dst src1 src2 aux imm fa fb fd) (2 ^ 58)

/-- A VX.RED.AR of zeros issued on cluster 0. -/
def reducing : State :=
  match exec (.vxRedAr 0 (fused 3 1 0 5 0 1 0 1)) (loaded 0 0 0x40) with
  | .next t => t
  | _ => running

theorem test_wit_fused_word : xfPlan (fused 0 0 0 0) = 1 ∧ (fused 0 0 0 0).x = true ∧ (loaded 0 0 0).plan 0 1 ≠ none := by decide +kernel

/-- R134, R136: the first collective of plan register 1 has ID 0x40 and is in flight, with four chunks of its contribution queued. -/
theorem test_red_ar_issues : (reducing.colls.map fun c => (c.id, c.kind, c.nchunks)) = [(0x40, .redAr, 4)]
    ∧ reducing.sReg 0 5 = 0x40 ∧ ((reducing.plan 0 1).map fun a => a.queue.length) = some 4 := by decide +kernel

theorem test_wit_waits : (reducing.sReg 0 1).toNat = 0x40 ∧ (∃ c, reducing.coll 0 0x40 = some c ∧ c.fail = none ∧ c.fired = none)
    ∧ (loaded 0 0 0x40).coll 0 0x40 = none ∧ (∀ c ∈ (loaded 0 0 0x40).colls, c.cl ≠ 0)
    ∧ (∃ c ∈ reducing.colls, c.cl = 0) ∧ (∀ c ∈ reducing.colls, c.cl = 0 → c.fail = none ∧ c.fired = none)
    ∧ Issues reducing 0 (wordOf 6 1 0 0) := by
  refine ⟨by decide +kernel, ⟨reducing.colls.headD (reducing.newColl 0 word0 .ag ⟨lineOf 0 0, false, 0, 0, [], [], [], [], []⟩), ?_⟩, by decide +kernel,
    by decide +kernel, by decide +kernel, by decide +kernel, issues_of_ok (by decide +kernel)⟩
  decide +kernel

/-- R136: TEST answers 0 while its collective is in flight, and WAIT waits. -/
theorem test_fx_test_and_wait : shows (exec (.fxTest 0 (wordOf 6 1 0 0)) reducing) (·.sReg 0 6) = some 0
    ∧ shows (exec (.fxWait 0 (wordOf 0 1 0 0)) reducing) (fun t => ((t.cl 0).wait.map (·.kind), t.pc 0)) = some (some (.fxWait 0x40), 16) := by
  decide +kernel

/-- R123: a plan with a collective in flight is not freed. -/
theorem test_pfree_busy : shows (exec (.fxPfree 0 (wordOf 1 0 0 0)) reducing) (fun t => t.get (clExc_CAUSE 0)) = some 1 := by
  decide +kernel

/-- `tensors` in a machine of two members with a plan in register 1 and T3 the place of the result of T1 * T2. -/
def mmaLoaded (alg idx : Nat) : State := ({ tensors.setRights 0x200 0 15 with topo := { State.reset.topo with ex := 2 } }).loadPlan 0 1 (lineOf alg idx) false

theorem test_wit_fused_mma : mmaLegal (mmaLoaded 0 0) 0 1 2 1 1 = true ∧ (mmaLoaded 0 0).tensorOk 0 3 1 true = true
    ∧ (TD.of ((mmaLoaded 0 0).tReg 0 3)).count = 1 ∧ (mmaLoaded 0 0).countOk 0 3 0 = true ∧ (mmaLoaded 0 0).accHeld 0 = false
    ∧ ((mmaLoaded 0 0).mPair 0 5).1.empty = true := by decide +kernel

/-- R126, R131, R134: MMA.AR holds its accumulator set and sends one chunk. -/
theorem test_mma_ar : shows (exec (.mxMmaAr 0 (fused 4 1 2 3 0 1 1 1)) (mmaLoaded 0 0))
    (fun t => (t.sReg 0 4, (t.aSet 0 0).held, (t.colls.map fun c => (c.nchunks, c.vals)))) = some (0x40, true, [(1, [0x41300000])]) := by
  decide +kernel

/-- R126, R130: TX.AG of a tensor of one element from each of two members. -/
def gathering : State :=
  (((mmaLoaded 0 0).setT 0 4 (desc (storeAddr 0 0x4000) 1 1 1 16)).setT 0 5 (desc (storeAddr 0 0x5000) 1 2 1 16))

theorem test_wit_gathers : gathering.tensorOk 0 5 1 true = true ∧ gathering.tensorOk 0 4 1 false = true
    ∧ (TD.of (gathering.tReg 0 5)).bytes = (TD.of (gathering.tReg 0 4)).bytes * (lineOf 0 0).members
    ∧ (readTensor (busPort 0) gathering (TD.of (gathering.tReg 0 4))).2.1 = rOK
    ∧ gathering.hazard 0 [] [] ((TD.of (gathering.tReg 0 4)).hz false ++ (TD.of (gathering.tReg 0 5)).hz true) = false
    ∧ (TD.of (gathering.tReg 0 6)).empty = true ∧ (TD.of (gathering.tReg 0 1)).bytes % (lineOf 0 0).n 0 = 0
    ∧ ((lineOf 0 0).ph 0).idx = 0 ∧ ((lineOf 0 0).ph 0).nm = 1 ∧ ((lineOf 0 1).ph 0).idx = 1 := by decide +kernel

theorem test_ag_issues : shows (exec (.txAg 0 (fused 9 5 4 0 0 1 0 1)) gathering)
    (fun t => (t.sReg 0 9, t.colls.map fun c => (c.nchunks, c.kind), (t.plan 0 1).map fun a => a.queue.length)) =
    some (0x40, [(2, .ag)], some 1) := by decide +kernel
/-! ## Register accesses and cluster commands -/

/-- A module in READY with its processors SEC, PWR, SCH and CCC 0 running. -/
def served : State :=
  (((((State.reset.put sysState_STATE mREADY).setProc .sec ⟨.running, []⟩).setProc .pwr ⟨.running, []⟩).setProc .sch ⟨.running, []⟩).setProc
    (.ccc 0) ⟨.running, []⟩)

/-- `served` with cluster 0 in state `st`. -/
def clIn (st : Nat) : State := served.put (clState_STATE 0) st

theorem test_wit_registers : blkOf 8 = some (.kln, 0) ∧ (regDesc .kln 8).isSome = true ∧ served.masterOn 0x122 = true
    ∧ (served.put accCtrl_HOLD 1).accHeld 0x200 = true ∧ served.accHeld 0x200 = false
    ∧ served.granted 8 0x122 aCFG = true ∧ served.granted 3 0x200 aCFG = false := by decide +kernel

/-- R34, R379: a write without the right is DENIED and recorded. -/
theorem test_denied_write : shows (exec (.registerWrite 0x200 (BitVec.ofNat 48 (regBase + 0x800000)) 8 0) served)
    (fun t => (t.bus.1, t.get accDeny_VALID, t.get accDeny_MID)) = some (rDENIED, 1, 0x200) := by decide +kernel

theorem test_wit_hbm : ((List.range 8).foldl (fun s k => s.put (hbmStatus_STATE k) 1) served).hbmUp 0 64 = true
    ∧ served.granted (served.hbmTarget 0) 0x122 aRD = true ∧ served.granted (served.hbmTarget 0) 0x122 aWR = true := by decide +kernel

theorem test_wit_cluster_commands : MayWrite (clIn clIDLE) 0x122 0x100 ∧ (clIn clIDLE).clSt 0 = clIDLE ∧ (clIn clHALTED).clSt 0 = clHALTED
    ∧ (clIn clRUNNING).clSt 0 = clRUNNING ∧ (clIn clEXCEPTION).clSt 0 = clEXCEPTION ∧ (clIn clPAUSED).clSt 0 = clPAUSED
    ∧ (clIn clIDLE).mstate ≠ mFENCED ∧ ((clIn clIDLE).put sysState_STATE mFENCED).mstate = mFENCED ∧ Canon (clIn clPAUSED)
    ∧ (clIn clEXCEPTION).get (clState_PAUSE_PEND 0) = 0 :=
  ⟨may_of_ok (by decide +kernel), by decide +kernel, by decide +kernel, by decide +kernel, by decide +kernel, by decide +kernel,
    by decide +kernel, by decide +kernel, canon_of_ok (by decide +kernel), by decide +kernel⟩

/-- R114: START takes the PC from ENTRY, and is ignored in RUNNING. -/
theorem test_start : shows (exec (.clStart 0x122 0) ((clIn clIDLE).put (clCtrl_ENTRY 0) 0x40)) (fun t => (t.clSt 0, t.pc 0)) =
    some (clRUNNING, 0x40)
    ∧ shows (exec (.clStart 0x122 0) ((clIn clRUNNING).put (clCtrl_ENTRY 0) 0x40)) (fun t => (t.clSt 0, t.pc 0)) = some (clRUNNING, 0) := by
  decide +kernel

/-- Cluster 0 in an exception of cause `c` that its CCC has not answered. -/
def excepted (c : Nat) : State := ((clIn clEXCEPTION).put (clExc_CAUSE 0) c).modCl 0 fun k => { k with faulted := true }

theorem test_wit_ccc : (excepted xMXCHK).clSt 0 = clEXCEPTION ∧ ((excepted xMXCHK).cl 0).faulted = true
    ∧ (excepted xMXCHK).procRuns (.ccc 0) = true ∧ (excepted xMXCHK).accHeld (cccMid 0) = false
    ∧ (excepted xMXCHK).get (clExc_CAUSE 0) = xMXCHK ∧ ((excepted xMXCHK).cl 0).retry = none
    ∧ (excepted xSERVICE).get (clExc_CAUSE 0) = xSERVICE ∧ (excepted xSTEPSKEW).get (clExc_CAUSE 0) = xSTEPSKEW
    ∧ (excepted 1).get (clExc_CAUSE 0) ∉ [xMXCHK, xRESCHK, xSERVICE, xSTEPSKEW]
    ∧ (((excepted 5).modCl 0 fun k => { k with selftest := some (0, 5) }).cl 0).selftest ≠ none
    ∧ ((clIn clRUNNING).put (clCtrl_PAT_EN 0) 1).get (clCtrl_PAT_EN 0) ≠ 0
    ∧ ((clIn clRUNNING).rd (clPauseAt 0)).toNat ≤ (clIn clRUNNING).now := by decide +kernel

/-- R94: the CCC answers a service trap with SKIP. -/
theorem test_ccc_skips_a_service : shows (exec (.cccExceptionResponse 0) (excepted xSERVICE)) (·.clSt 0) = some clRUNNING := by
  decide +kernel

/-- `served` with every expert bit set. -/
def expert : State := served.put sysExpertEn_EN 0xFF

theorem test_wit_link_registers : MayWrite expert 0x122 0x13 ∧ (served.put (lnkCtrl_EN 3) 0).get (lnkCtrl_EN 3) = 0
    ∧ served.get (lnkCtrl_EN 3) = 1 ∧ (2 : BitVec 2).toNat ≠ expert.get (lnkCtrl_LOOP 3) ∧ expert.expert 5 = true
    ∧ lkBISQUE ≤ (served.put (lnkStatus_STATE 3) lkBISQUE).lnk 3 ∧ (served.put (lnkStatus_STATE 3) lkMISWIRED).lnk 3 ≤ lkMISWIRED
    ∧ (expert.put (lnkStatus_STATE 3) lkTEST).lnk 3 = lkTEST ∧ Canon expert :=
  ⟨may_of_ok (by decide +kernel), by decide +kernel, by decide +kernel, by decide +kernel, by decide +kernel, by decide +kernel,
    by decide +kernel, by decide +kernel, canon_of_ok (by decide +kernel)⟩

theorem test_wit_fabric_registers : MayWrite served 0x122 4 aXQ ∧ MayWrite served 0x122 0xD ∧ MayWrite served 0x122 6 ∧ MayWrite served 0x122 1
    ∧ MayWrite served 0x122 0x27 ∧ served.get klnTouchCtrl_BUSY = 0 ∧ expert.expert 2 = true ∧ expert.expert 6 = true
    ∧ expert.bankOpen (expert.flag routeEntSel_BANK) = true ∧ served.isRoot = true ∧ served.mstate = mREADY
    ∧ (∀ k < 8, served.get (coneAlarmCtrl_EN k) = 0) ∧ (keyDesc (hbmInject 7)).isSome = true
    ∧ ¬ (0 < ((5 : BitVec 64).toNat + (2 ^ 32 - (served.put schHringHead_HEAD 9).get schHringHead_HEAD)) % 2 ^ 32
      ∧ ((5 : BitVec 64).toNat + (2 ^ 32 - (served.put schHringHead_HEAD 9).get schHringHead_HEAD)) % 2 ^ 32 < 2 ^ 31) :=
  ⟨may_of_ok (by decide +kernel), may_of_ok (by decide +kernel), may_of_ok (by decide +kernel), may_of_ok (by decide +kernel),
    may_of_ok (by decide +kernel), by decide +kernel, by decide +kernel, by decide +kernel, by decide +kernel, by decide +kernel,
    by decide +kernel, by decide +kernel, by decide +kernel, by decide +kernel⟩

/-- `served` with an erase of flash in progress, held for EMERGENCY or not. -/
def erasing (h : Bool) : State := { served with img := some ⟨1, 1, 0, 4096, 0, 0x122, h⟩ }

theorem test_wit_sec_image_acc : MayWrite served 0x122 3 ∧ MayWrite served 0x122 0xB ∧ served.secServes = true ∧ served.img = none
    ∧ served.mgmt.update = none ∧ served.get sysState_EMERG = 0 ∧ (∃ o, (erasing true).img = some o ∧ o.held = true)
    ∧ (∃ o, (erasing false).img = some o ∧ o.held = false) ∧ served.mstate ≠ mOFF ∧ (served.put accCtrl_HOLD 1).get accCtrl_HOLD = 1 :=
  ⟨may_of_ok (by decide +kernel), may_of_ok (by decide +kernel), by decide +kernel, rfl, rfl, by decide +kernel, ⟨_, rfl, rfl⟩, ⟨_, rfl, rfl⟩,
    by decide +kernel, by decide +kernel⟩

/-! ## The kiln complex -/

/-- `s` in which `port` has delivered the packet `p`. -/
def sent (s : State) (port : Nat) (p : Pkt) (inPort : Nat := 0) (mid : Nat := 0x131) : State :=
  { s with delivered := s.delivered.set [] port [⟨p, none, [], 32, inPort, mid, false, 0⟩] }

/-- Whether a unit takes a packet of a kind from a port, and what is left then has a property. -/
def takes (s : State) (port : Nat) (ok : Pkt → Bool) (f : Pkt → State → Bool := fun _ _ => true) : Bool :=
  (s.takeHead port ok).any fun x => f x.1.pkt x.2

/-- `reducing` once its first contribution has left the source queue. -/
def contributed : State :=
  match exec (.contributionInject 0 1) reducing with
  | .next t => t
  | _ => reducing

/-- The packet of member 1 about chunk `chunk` of the collective of `reducing`. -/
def fromOther (typ : BitVec 6) (chunk mask low : Nat) : Pkt := { collPkt typ 0 0x40 chunk 1 0 mask 0x131 low [] with src := 512 }

/-- What the result clauses ask of the plan and of the collective that a packet names. -/
def collHas (s : State) (p : Pkt) (f : PlanAcct → Coll → Bool) : Bool :=
  match s.kilnPlan p, s.coll (ckCl p.chunk) p.coll with
  | some a, some c => f a c
  | _, _ => false

theorem test_wit_kiln_operands : takes (sent contributed 18 (fromOther tRED 0 2 0)) 18 (fun p => p.typ == tRED) = true
    ∧ takes (sent contributed 18 (fromOther tREDPART 0 2 0)) 18 (fun p => p.typ == tREDPART) = true := by decide +kernel

/-- R159: the other member's operand completes chunk 0, and the context is HELD or on its way there: no OPEN context is left. -/
theorem test_red_completes : shows (exec (.red .ok) (sent contributed 18 { fromOther tRED 0 2 0 with payload := List.replicate 256 0 }))
    (fun t => (t.findAcc 0x40 0).map fun x => (x.2.rmask, decide (x.2.st = .opened))) = some (some (3, false)) := by decide +kernel

/-- R158: an operand of a plan that is not valid is stale. -/
theorem test_red_stale : shows (exec (.red .ok) (sent served 18 (fromOther tRED 0 2 0))) (·.get klnCntStale_COUNT) = some 1 := by
  decide +kernel

/-- `contributed` under a plan with agreed exponents. -/
def agreeing : State := contributed.modPlan 0 1 fun a => { a with plan := { a.plan with bfx := true } }

theorem test_wit_kiln_results :
    takes (sent contributed 18 (fromOther tREDRES 5000 3 0)) 18 (fun p => p.typ == tREDRES)
      (fun p t => collHas t p fun a c => !c.hasChunk a.plan p.chunk) = true
    ∧ takes (sent agreeing 18 (fromOther tREDRES (2 ^ 16) 3 0)) 18 (fun p => p.typ == tREDRES)
      (fun p t => collHas t p fun a c => c.hasChunk a.plan p.chunk && ckP1 p.chunk == 1) = true
    ∧ takes (sent contributed 18 (fromOther tREDRES 3 3 0)) 18 (fun p => p.typ == tREDRES)
      (fun p t => collHas t p fun a c => c.hasChunk a.plan p.chunk && ckP1 p.chunk != 1) = true
    ∧ takes (sent contributed 18 (fromOther tDONE 3 3 0)) 18 (fun p => p.typ == tDONE && !p.cred)
      (fun p t => collHas (t.release 0x131 []) p fun a c => c.hasChunk a.plan p.chunk) = true := by decide +kernel

/-- Whether a credit is taken by its age and has the given difference. -/
def credits (s : State) (p : Pkt) (old : Bool) (delta : Nat) : Bool :=
  takes (sent s 18 p) 18 (fun p => p.typ == tDONE && p.cred) fun p t =>
    match (t.release 0x131 []).plan 0 1 with
    | some a =>
      decide (ckPh p.chunk < a.plan.nph) && t.memberOf (a.plan.ph 0) p.src.toNat == some 1
        && creditDir a.plan.alg (a.plan.n 0) (a.plan.ph 0).idx 1 == some 1
        && ageBefore p.age.toNat a.loadedAt == old && (p.cmask + 2 ^ 32 - a.ret.get 0 1 % 2 ^ 32) % 2 ^ 32 == delta
    | none => false

theorem test_wit_kiln_credits : credits contributed (fromOther tDONE 0 1 (2 ^ 13)) false 1 = true
    ∧ credits contributed (fromOther tDONE 0 (2 ^ 31 - 1) (2 ^ 13)) false (2 ^ 31 - 1) = true
    ∧ credits contributed (fromOther tDONE 0 (2 ^ 31) (2 ^ 13)) false (2 ^ 31) = true
    ∧ credits contributed (fromOther tDONE 0 0 (2 ^ 13)) false 0 = true
    ∧ credits contributed { fromOther tDONE 0 1 (2 ^ 13) with age := 2 ^ 24 - 1 } true 1 = true := by decide +kernel

/-- R173: a credit moves RET to the count that it carries. -/
theorem test_credit_taken : shows (exec .doneCredit (sent contributed 18 (fromOther tDONE 0 1 (2 ^ 13))))
    (fun t => (t.plan 0 1).map fun a => a.ret.get 0 1) = some (some 1) := by decide +kernel

/-- `contributed` whose context of chunk 0 is HELD with its result. -/
def holding : State :=
  match contributed.accAt 1 with
  | some c => contributed.setAcc 1 { c with st := .held, hres := true, len := 256 }
  | none => contributed

theorem test_wit_kiln_repairs :
    takes (sent contributed 18 (fromOther tREPAIR 0 1 0)) 18 (fun p => p.typ == tREPAIR && p.cmask != 0)
      (fun p t => collHas (t.release 0x131 []) p fun a c => ckPh p.chunk == 0 && p.cmask == 2 ^ (a.plan.ph 0).idx
        && ((t.release 0x131 []).heldContribution 0 1 a p.coll p.chunk).isSome && c.plan == 1) = true
    ∧ takes (sent holding 18 (fromOther tREPAIR 0 0 0)) 18 (fun p => p.typ == tREPAIR && p.cmask == 0)
      (fun p t => collHas (t.release 0x131 []) p fun _ _ => ((t.release 0x131 []).findAcc p.coll p.chunk).any fun x =>
        x.2.st == .held && x.2.hres && !((t.release 0x131 []).accData x.2).isEmpty) = true := by decide +kernel

/-- R168: a repair for this member's contribution is answered with a RED. -/
theorem test_repair_answered : shows (exec .repairContribution (sent contributed 18 (fromOther tREPAIR 0 1 0)))
    (fun t => (t.injq.get [] 0).map fun i => (i.pkt.typ, i.pkt.dst, i.pkt.cmask)) = some [(tRED, 512, 1)] := by decide +kernel

theorem test_wit_operand_masks : (contributed.accAt 1).any (fun c => c.st == .opened && !c.fix && c.parked.isEmpty && c.link.isNone
      && 1 &&& c.rmask != 0 && 1 &&& c.rmask == 1) = true
    ∧ (contributed.accAt 1).any (fun c => 3 &&& c.rmask != 0 && 3 &&& c.rmask != 3) = true
    ∧ (contributed.accAt 1).any (fun c => 2 &&& c.rmask == 0 && c.issued && c.rmask ||| 2 == c.emask) = true
    ∧ (contributed.accAt 1).any (fun c => 4 &&& c.rmask == 0 && c.rmask ||| 4 != c.emask) = true := by decide +kernel

/-- `s` at cone count `n`. -/
def atTime (s : State) (n : Nat) : State := { s with cone := BitVec.ofNat 64 n }

theorem test_wit_kiln_timers :
    ((atTime contributed 2000000).accAt 1).any (fun c => c.st == .opened && !c.comp && decide (c.deadline ≤ (atTime contributed 2000000).now)
      && ((atTime contributed 2000000).plan (ckCl c.chunk) (c.coll / 64)).isSome) = true
    ∧ ((atTime holding 8000000).accAt 1).any (fun c => c.st == .held && c.hres
      && decide (c.heldAt + (atTime holding 8000000).resHold ≤ (atTime holding 8000000).now)) = true
    ∧ ((atTime contributed 2000000).ctx.find 0).any (fun e => match e with
      | .watch w => decide (w.deadline ≤ (atTime contributed 2000000).now) && w.res != BitVec.allOnes 64
        && ((atTime contributed 2000000).coll (ckCl w.chunk) w.coll).isSome
        && ((atTime contributed 2000000).plan (ckCl w.chunk) (w.coll / 64)).isSome
      | .acc _ => false) = true
    ∧ ((atTime contributed 50000000).coll 0 (1 * 64 + 0)).any (fun c => match c.stall with
      | .runs t => decide (t ≤ (atTime contributed 50000000).now)
      | _ => false) = true
    ∧ ((atTime contributed 50000000).plan 0 1).isSome = true := by decide +kernel

/-- R144, R145: a stall timer that fires is logged, and its report names phase 0 and member 1, who is missing. -/
theorem test_stall_report : shows (exec (.collStall 0 1 0) (atTime contributed 50000000))
    (fun t => t.colls.map fun c => (c.fired, decide (c.stall = .stopped))) = some [(some 2, true)] := by decide +kernel

/-- R167: a context whose deadline has come asks the member that is missing. -/
theorem test_deadline_asks : shows (exec (.contextDeadline 1) (atTime contributed 2000000))
    (fun t => ((t.injq.get [] 130).map fun i => (i.pkt.typ, i.pkt.dst, i.pkt.cmask), t.get klnCntRepairTx_COUNT)) =
    some ([(tREPAIR, 512, 2)], 1) := by decide +kernel

/-- A TX.AG whose destination is the first block of a landing region in HBM, with the result of chunk 1 waiting to land. -/
def landing : State :=
  let hbm := (List.range 8).foldl (fun s k => s.put (hbmStatus_STATE k) 1) (gathering.setT 0 5 (desc 0 1 2 1 16))
  let s := (((hbm.put klnTouchCtrl_EN 1).put klnLandSize_BLOCKS 1).put (clCring_BASE 0) 2047).setRights (hbm.hbmTarget 4) 0x131 15
  match exec (.txAg 0 (fused 9 5 4 0 0 1 0 1)) s with
  | .next t => { t with landings := [⟨0x40, 1, [0, 0, 0x80, 0x3F], none, [], 0x131, false, []⟩] }
  | _ => s

/-- What the landing clauses ask of the first landing. -/
def lands (s : State) (f : List Nat → Bool) : Bool :=
  (s.landings.find? fun l => !l.written).any fun l =>
    let t := { s with landings := s.landings.erase l }
    !s.accHeld 0x131 && match t.coll (ckCl l.chunk) l.coll, t.plan (ckCl l.chunk) (l.coll / 64) with
      | some c, some a => (t.landChunk c a.plan (ckJ l.chunk) l.data).2.1 == rOK && f (t.landChunk c a.plan (ckJ l.chunk) l.data).2.2.2
      | _, _ => false

theorem test_wit_landings : lands landing (fun b => !b.isEmpty) = true ∧ landing.get klnTouchCtrl_BUSY = 0
    ∧ lands (landing.put klnTouchCtrl_BUSY 1) (fun b => !b.isEmpty) = true ∧ (landing.put klnTouchCtrl_BUSY 1).get klnTouchCtrl_BUSY ≠ 0
    ∧ lands (landing.put klnTouchCtrl_EN 0) List.isEmpty = true := by decide +kernel

/-- R177, R178: the landed bytes stand in the destination, and the bit of block 0 is set in the bitmap. -/
theorem test_landing_touches : shows (exec .landingAck (landing.put klnTouchBase_BASE 16))
    (fun t => (Tab.get 0 t.mem 7, Tab.get 0 t.mem 0x10000, t.landings.length)) = some (0x3F, 1, 0) := by decide +kernel

theorem test_wit_contribution : ((reducing.plan 0 1).any fun a => match a.queue with
    | x :: rest => (reducing.coll 0 x.coll).any fun c =>
      ((reducing.modPlan 0 1 fun a => { a with queue := rest }).sendContrib 0 1 a c x).isSome
    | [] => false) = true := by decide +kernel

/-! ## The links -/

/-- A flit of zero data, its control word `c`, its CRC and parity bytes `tail`. -/
def flitOf (c tail : Nat) : BitVec 2048 := BitVec.ofNat 2048 (tail * 2 ^ 1888 + c)

/-- The IDLE flit of SEQ 0 (R187-R189). -/
def idleFlit : BitVec 2048 := flitOf 0 0x964bc2b18ef022cc6ee5c271c26d928185753a7
/-- The NULL flit of SEQ 0. -/
def nullFlit : BitVec 2048 := flitOf 0x40 0x9c54eadea8671fcc2ff6b86b7338f9ec3eca5656
/-- A flit of the reserved type 2. -/
def reservedFlit : BitVec 2048 := flitOf 0x20 0xd660e20205a5d3c12253a415ccd840fb89efea27

/-- What the flit clauses read. -/
def readsAs (w : BitVec 2048) : Option (Nat × Nat × Nat) := (readFlit w).map fun x => (x.1.seq, x.1.ftype, x.2.length)

/-- A flit whose codewords have no errors and whose CRC, taken in four parts, is right reads as its fields say. -/
theorem reads_of {w : BitVec 2048} {x : Nat × Nat × Nat} (c1 c2 c3 : BitVec 32) (h : fecDecode (flitBytes w) = some (flitBytes w, [])) :
    let b := (flitBytes w).map (BitVec.ofNat 8)
    let c := BitVec.ofNat 64 (natLE (b.take 4))
    (b.take 60).foldl crcByte 0xFFFFFFFF = c1 → ((b.drop 60).take 60).foldl crcByte c1 = c2 →
    ((b.drop 120).take 60).foldl crcByte c2 = c3 →
    ((b.drop 180).take 56).foldl crcByte c3 ^^^ 0xFFFFFFFF = BitVec.ofNat 32 (natLE ((b.drop 236).take 4)) →
    (bitsOf c 20 12, bitsOf c 4 4, 0) = x → readsAs w = some x := by
  intro b c h1 h2 h3 h4 h5
  have hx : b.take 236 = b.take 60 ++ ((b.drop 60).take 60 ++ ((b.drop 120).take 60 ++ (b.drop 180).take 56)) := by
    rw [show 236 = 60 + 176 by rfl, List.take_add, show 176 = 60 + 116 by rfl, List.take_add, List.drop_drop, show 116 = 60 + 56 by rfl,
      List.take_add, List.drop_drop]
  have hc : crc32c (b.take 236) = BitVec.ofNat 32 (natLE ((b.drop 236).take 4)) := by
    rw [hx, crc32c, List.foldl_append, List.foldl_append, List.foldl_append, h1, h2, h3, h4]
  simp only [readsAs, readFlit, h]
  rw [if_pos hc, ← h5]
  rfl

/-- R187-R190: the flits of an encoder written from R188 and R189 read as they were made. -/
theorem test_idle_flit : readsAs idleFlit = some (0, 0, 0) :=
  reads_of 0xa5f4face 0x09650e1c 0xc84fd679 (by decide +kernel) (by decide +kernel) (by decide +kernel) (by decide +kernel) (by decide +kernel)
    (by decide +kernel)

theorem test_null_flit : readsAs nullFlit = some (0, 4, 0) :=
  reads_of 0xa8e499a3 0x4989b18f 0x6fa86dc2 (by decide +kernel) (by decide +kernel) (by decide +kernel) (by decide +kernel) (by decide +kernel)
    (by decide +kernel)

theorem test_reserved_flit : readsAs reservedFlit = some (0, 2, 0) :=
  reads_of 0x218af000 0x0abe56aad 0x194a30dc (by decide +kernel) (by decide +kernel) (by decide +kernel) (by decide +kernel) (by decide +kernel)
    (by decide +kernel)

/-- R189: four byte errors in a codeword of zeros are corrected. -/
theorem test_four_errors : rsDecode (((((List.replicate 128 0).set 3 7).set 127 0x80).set 64 1).set 0 0xFF) =
    some (List.replicate 128 0, [127, 64, 3, 0]) := by decide +kernel

/-- R190: a flit with five byte errors in one codeword is not good. -/
theorem test_bad_flit : readFlit (nullFlit ^^^ BitVec.ofNat 2048 (0x4000780036000F0001 * 2 ^ 32)) = none := by
  have h : fecDecode (flitBytes (nullFlit ^^^ BitVec.ofNat 2048 (0x4000780036000F0001 * 2 ^ 32))) = none := by decide +kernel
  simp only [readFlit, h]

/-- `served` with link 3 in `st`. -/
def linkIn (st : Nat) : State := served.put (lnkStatus_STATE 3) st

theorem test_wit_flits : (linkIn lkGLOST).takesFlits 3 = true ∧ (linkIn lkBISQUE).takesFlits 3 = true
    ∧ (linkIn lkMISWIRED).takesFlits 3 = true
    ∧ (((linkIn lkGLOST).modLink 3 fun l => { l with nakIn := some 0 }).link 3).nakIn = some 0 := by decide +kernel

/-- R193, R194: a sequenced flit that is accepted moves the expected SEQ on, and its CRED goes to the class and channel of its SEQ. -/
theorem test_accept : let t := (linkIn lkGLOST).acceptFlit 3 ⟨5, 0, 4, 7, []⟩
    ((t.link 3).rxNext, (t.link 3).credits.get 0 5) = (1, (((linkIn lkGLOST).link 3).credits.get 0 5) + 7) := by decide +kernel

/-- `s` with a control frame accepted on link 3. -/
def framed (s : State) (sub : Nat) (d : List Byte := []) : State := s.modLink 3 fun l => { l with ctrlIn := [⟨sub, d⟩] }

/-- `s` in a rate step on link 3. -/
def stepping (s : State) (t : RateStep) : State := s.modLink 3 fun l => { l with step := some t }

/-- Whether a control frame is taken and what is left has a property. -/
def takesFrame (s : State) (sub : Nat) (f : List Byte → State → Bool) : Bool := (s.takeCtrl 3 sub).any fun x => f x.1 x.2

theorem test_wit_ident : takesFrame (framed (linkIn lkBISQUE) 1 [0]) 1 (fun _ u => u.lnk 3 == lkBISQUE && u.get (lnkStatus_INCOMPATIBLE 3) == 0) = true
    ∧ takesFrame (framed (linkIn lkGLOST) 1 (List.replicate 40 0)) 1 (fun d u => u.lnk 3 != lkBISQUE
      && identField d 8 8 == (u.rd (lnkPeerSerial 3)).toNat && bitsOf (identInfo d) 38 14 == u.get (lnkPeerInfo_COORD 3)
      && bitsOf (identInfo d) 52 4 == u.get (lnkPeerInfo_PORT 3) && bitsOf (identInfo d) 56 8 == u.get (lnkPeerInfo_DEVCLASS 3)) = true := by
  decide +kernel

theorem test_wit_rate_frames :
    takesFrame (framed ((linkIn lkSTEP).wr sysSerial 9) 2 [1]) 2 (fun d u => u.lnk 3 == lkSTEP && !u.leads 3 && decide (1 ≤ (d.headD 0).toNat)) = true
    ∧ takesFrame (framed ((linkIn lkSTEP).wr sysSerial 9) 2 [3]) 2 (fun d u => u.lnk 3 == lkSTEP && !u.leads 3 && decide ((d.headD 0).toNat ≤ 3)) = true
    ∧ takesFrame (framed (stepping ((linkIn lkSTEP).wr (lnkPeerSerial 3) 9) ⟨1, false, none, none⟩) 3) 3
      (fun _ u => (u.link 3).step.isSome && u.lnk 3 == lkSTEP && u.leads 3) = true
    ∧ takesFrame (framed (stepping (linkIn lkSTEP) ⟨1, true, none, none⟩) 4 [1]) 4 (fun _ u => (u.link 3).step.isSome && u.lnk 3 == lkSTEP) = true
    ∧ ((stepping (linkIn lkSTEP) ⟨1, true, none, none⟩).link 3).step = some ⟨1, true, none, none⟩
    ∧ (stepping (linkIn lkSTEP) ⟨1, true, none, none⟩).lnk 3 = lkSTEP ∧ (stepping (linkIn lkSTEP) ⟨1, true, none, none⟩).unack 3 = 0
    ∧ (stepping (linkIn lkWEDGE) ⟨2, true, none, none⟩).lnk 3 = lkWEDGE
    ∧ (((stepping (linkIn lkWEDGE) ⟨2, true, none, none⟩).modLink 3 fun l => { l with fast := some 2 }).link 3).fast = some 2 := by
  decide +kernel

theorem test_wit_far_end : takesFrame (framed ((linkIn lkGLOST).put (lnkCtrl_FE_ALLOW 3) 1) 5) 5
      (fun _ u => u.get (lnkCtrl_FE_ALLOW 3) != 0 && decide (lkBISQUE ≤ u.lnk 3) && decide (u.lnk 3 ≤ lkMISWIRED)) = true
    ∧ takesFrame ((framed (linkIn lkTEST) 6).modLink 3 fun l => { l with feSent := true }) 6 (fun _ u => (u.link 3).feSent) = true
    ∧ (linkIn lkTEST).lnk 3 = lkTEST ∧ (((linkIn lkTEST).modLink 3 fun l => { l with feSent := true }).link 3).feSent = true
    ∧ (((linkIn lkTEST).modLink 3 fun l => { l with feSent := true }).link 3).feAcked = false
    ∧ takesFrame (framed (linkIn lkBISQUE) 7) 7 (fun _ u => decide (lkBISQUE ≤ u.lnk 3) && decide (u.lnk 3 ≤ lkMISWIRED)) = true := by
  decide +kernel

/-- R197: a DOWN_NOTE takes the link to DOWN. -/
theorem test_down_note : shows (exec (.downNote 3) (framed (linkIn lkGLOST) 7)) (·.lnk 3) = some lkDOWN := by decide +kernel

/-- `linkIn` in a module whose links have been released. -/
def lightIn (st : Nat) : State := (linkIn st).modPwr fun p => { p with phase := .links }

theorem test_wit_lifecycle : (lightIn lkDARK).lnk 3 = lkDARK ∧ (lightIn lkDARK).power.phase = .links ∧ (lightIn lkSIGNAL).lnk 3 = lkSIGNAL
    ∧ (lightIn lkWEDGE).lnk 3 = lkWEDGE ∧ (lightIn lkBISQUE).lnk 3 = lkBISQUE ∧ (lightIn lkBISQUE).get (lnkStatus_INCOMPATIBLE 3) = 0
    ∧ lkSIGNAL ≤ (lightIn lkSIGNAL).lnk 3 ∧ (lightIn lkMISWIRED).lnk 3 ≤ lkMISWIRED ∧ (lightIn lkDOWN).lnk 3 = lkDOWN
    ∧ ((lightIn lkDOWN).link 3).feServing = false ∧ (((lightIn lkGLOST).modLink 3 fun l => { l with retrain := some 0x122 }).link 3).retrain = some 0x122
    ∧ ((lightIn lkTEST).put (lnkEye_BUSY 3) 1).get (lnkEye_BUSY 3) ≠ 0 ∧ (lightIn lkTEST).lnk 3 = lkTEST
    ∧ ((lightIn lkTEST).put (lnkTest_CHK_EN 3) 1).get (lnkTest_CHK_EN 3) ≠ 0 ∧ (lightIn lkDISABLED).lnk 3 ≠ lkDARK := by decide +kernel

/-- R196: light, then the clock, then the framing bring a link to BISQUE; in BISQUE the time-out returns it to DARK. -/
theorem test_bring_up : shows (exec (.lightPresent 3) (lightIn lkDARK)) (·.lnk 3) = some lkSIGNAL
    ∧ shows (exec (.clockLocked 3) (lightIn lkSIGNAL)) (·.lnk 3) = some lkWEDGE
    ∧ shows (exec (.framingFound 3) (lightIn lkWEDGE)) (·.lnk 3) = some lkBISQUE
    ∧ shows (exec (.bisqueTimeout 3) (lightIn lkBISQUE)) (·.lnk 3) = some lkDARK := by decide +kernel

/-! ## The router -/

/-- A TEST packet of class 7 to member 1, that this module injects. -/
def testPkt : Pkt := mkPkt tTEST 7 512 0xFFF false (mkW1 0 0 4 0 0) 0 [1, 2, 3, 4]

/-- `served` in a slice, where link 3 is in GLOST with credits in both directions and member 1's entry leaves by it. -/
def meshed : State :=
  let s := (served.put (lnkStatus_STATE 3) lkGLOST).put routeSlice_SLICE 5
  let s := s.modLink 3 fun l => { l with
    credits := (List.range 16).map fun j => (j, 100)
    granted := (List.range 16).map fun j => (j, 100) }
  s.writeEntry false 512 (BitVec.ofNat 64 (2 ^ 63 + 2 ^ 62 + 7 * 2 ^ 48 + 1 * 2 ^ 51 + 2 * 2 ^ 54))

/-- `s` with a packet that has arrived at a port. -/
def arrived (s : State) (port : Nat) (p : Pkt) : State := { s with arrivals := s.arrivals.set [] port [⟨p, none, [], 32⟩] }

/-- Whether the packet at the head of a port's arrivals and what is left have a property. -/
def arrives (s : State) (port : Nat) (f : Arrival → State → Bool) : Bool := (s.takeArrival port).any fun x => f x.1 x.2

theorem test_wit_packets_enter : arrives (arrived meshed 14 testPkt) 14 (fun _ _ => true) = true
    ∧ arrives (arrived meshed 3 testPkt) 3 (fun a u => (u.receiveAt 3 a).1.isSome) = true
    ∧ arrives (arrived meshed 3 { testPkt with cls := 1 }) 3 (fun a u => (u.receiveAt 3 a).1.isNone) = true
    ∧ arrives (arrived served 3 testPkt) 3 (fun a u => (u.receiveAt 3 a).1.isNone) = true := by decide +kernel

/-- `meshed` with its service ports open, and credits granted on port 12. -/
def opened : State :=
  ((meshed.put routeSvc_SV0_OPEN 1).put routeSvc_SV1_OPEN 1).modLink 12 fun l => { l with granted := (List.range 16).map fun j => (j, 100) }

theorem test_wit_service_ingress : arrives (arrived (meshed.put routeSvc_SV0_OPEN 0) 12 testPkt) 12 (fun _ _ => true) = true
    ∧ (meshed.put routeSvc_SV0_OPEN 0).svcOpen 12 = false ∧ opened.svcOpen 12 = true
    ∧ arrives (arrived opened 12 testPkt) 12 (fun a _ => ([tMGMT, tROUTEUPD, tWRITE, tREADREQ, tMSG].contains a.pkt.typ) == false) = true
    ∧ arrives (arrived opened 12 { testPkt with typ := tWRITE, cls := 3 }) 12 (fun a u => a.pkt.typ == tWRITE && (u.receiveAt 12 a).1.isSome) = true
    ∧ arrives (arrived opened 12 { testPkt with typ := tWRITE, cls := 7 }) 12 (fun a u => a.pkt.typ == tWRITE && (u.receiveAt 12 a).1.isNone) =
      true := by decide +kernel

/-- R283: a closed service port counts the packet. -/
theorem test_closed_port : shows (exec (.servicePortIngress 0) (arrived (meshed.put routeSvc_SV0_OPEN 0) 12 testPkt))
    (·.get (lnkCntForeign_COUNT 12)) = some 1 := by decide +kernel

/-- `s` with a packet from port 19 at the head of the VOQ to output `o`. -/
def queued (s : State) (o : Nat) (p : Pkt) : State :=
  { s with voqs := s.voqs.set [] (voqKey 19 o p.cls.toNat 0) [⟨p, none, [], 32, 19, 0x122, false, 0⟩] }

/-- What the grant clauses ask of an output, and of the packet that it takes. -/
def grants (s : State) (o : Nat) (f : Desc → Bool) : Bool :=
  (s.out o).sending.isNone && (s.grantClass o (s.heads o)).any fun cls =>
    (rrPick (s.heads o) cls ((s.out o).rr.get 39 cls)).any fun x => f x.2

theorem test_wit_grants :
    grants (queued (atTime meshed 60000000) 3 testPkt) 3 (fun d => (atTime meshed 60000000).isAged d.pkt) = true
    ∧ grants (queued meshed 3 { testPkt with hops := 63 }) 3 (fun d => !meshed.isAged d.pkt && d.pkt.hops == 63) = true
    ∧ grants (queued meshed 19 { testPkt with pcrc := 0 }) 19 (fun d => meshed.stores 19 19 7 && crc32c (d.pkt.payload.take d.pkt.carried) != d.pkt.pcrc) = true
    ∧ grants (queued meshed 3 testPkt) 3 (fun d => !meshed.isAged d.pkt && d.pkt.hops != 63 && !meshed.stores 19 3 7) = true
    ∧ grants (queued meshed 19 testPkt) 19 (fun d => meshed.stores 19 19 7 && crc32c (d.pkt.payload.take d.pkt.carried) == d.pkt.pcrc) = true := by
  decide +kernel

/-- R239: an aged head is counted and discarded. -/
theorem test_aged_head : shows (exec (.outputGrant 3) (queued (atTime meshed 60000000) 3 testPkt))
    (fun t => (t.get (fabCntAged_COUNT 7), (t.out 3).sending.isNone)) = some (1, true) := by decide +kernel

/-- R239: a packet within its age limit is sent. -/
theorem test_young_head : shows (exec (.outputGrant 3) (queued meshed 3 testPkt)) (fun t => (t.out 3).sending.map (·.pkt.payload)) =
    some (some [1, 2, 3, 4]) := by decide +kernel

/-- `s` in which an output sends a packet. -/
def sending (s : State) (o : Nat) (p : Pkt) : State :=
  s.setOut o { s.out o with sending := some ⟨p, none, [], 32, 19, 0x122, false, 0⟩ }

theorem test_wit_transmission : (((sending meshed 3 testPkt).out 3).sending.map (·.body)) = some none
    ∧ (((sending meshed 18 testPkt).out 18).sending.map (·.body)) = some none
    ∧ (((sending meshed 19 { testPkt with typ := tMIRROR }).out 19).sending.map (·.pkt.typ)) = some tMIRROR
    ∧ (((sending meshed 19 testPkt).out 19).sending.map (·.pkt.typ)) ≠ some tMIRROR
    ∧ ((sending meshed 3 testPkt).link 3).drains = false ∧ ((sending meshed 3 testPkt).link 3).replay.length + testPkt.flitCount ≤ 2048
    ∧ (((sending meshed 3 testPkt).modLink 3 fun l => { l with retrain := some 0 }).link 3).drains = true := by decide +kernel

/-- R208, R292: on a link the packet's one flit enters the replay buffer with HOPS one more. -/
theorem test_sent_on_a_link : shows (exec (.packetTxDone 3) (sending meshed 3 testPkt))
    (fun t => ((t.out 3).sending.isNone, (t.link 3).replay.map fun f => (f.seq, f.ftype, f.owner.map (·.pkt.hops)))) =
    some (true, [(0, 8, some 1)]) := by decide +kernel

/-- `s` in which an output sends a packet from cell 5, whose data holds an uncorrectable word. -/
def sendingBad (s : State) (o : Nat) (p : Pkt) : State :=
  let t := s.takeCells [5] 3 0x122 0
  { t.setOut o { t.out o with sending := some ⟨p, none, [5], 32, 19, 0x122, false, 0⟩ } with cellErr := [(5 * 32 + 31, true)] }

theorem test_wit_bad_cells : (sendingBad meshed 19 testPkt).cellsBad [5] = true ∧ (sendingBad meshed 19 testPkt).cellsBad [4] = false
    ∧ (sendingBad meshed 3 testPkt).cellsBad [6] = false ∧ 5 ≤ ({ meshed with dieErr := [(1, 5)] } : State).dieErr.get 0 (15 - 14)
    ∧ ({ meshed with dieErr := [(1, 4)] } : State).dieErr.get 0 (15 - 14) < 5
    ∧ grants ({ (queued meshed 19 testPkt) with cellErr := [] }) 19 (fun d => meshed.stores 19 19 7 && ({ meshed with cellErr := [(160, true)] } : State).cellsBad (5 :: d.cells)) = true := by
  decide +kernel

/-- R246: a packet for a local unit is discarded and counted, one on a link ends with the stomped PCRC; the cells are released. -/
theorem test_bad_cells : shows (exec (.packetTxDone 19) (sendingBad meshed 19 testPkt))
      (fun t => (t.get poolCntUncorr_COUNT, (t.delivered.get [] 19).length, (t.cell 5).alloc)) = some (1, 0, false)
    ∧ shows (exec (.packetTxDone 3) (sendingBad meshed 3 testPkt))
      (fun t => (t.get poolCntUncorr_COUNT, (t.link 3).replay.length, (t.cell 5).alloc)) = some (1, 1, false)
    ∧ ((sendingBad meshed 3 testPkt).cutPkt ⟨testPkt, none, [5], 32, 19, 0x122, false, 0⟩).1.pcrc = crc32c (testPkt.payload.take testPkt.carried) ^^^ 0xFFFFFFFF := by
  decide +kernel

/-- R20, R363: an access from the application cores to HBM crosses one die port and a mesh; a fifth failure asks for the fence, a lost mesh
flit loses the access. -/
theorem test_die_port : (({ meshed with dieErr := [(0, 5)] } : State).diePath 0x100 (storeAddr 0 0)) = ([0], true)
    ∧ (({ meshed with dieErr := [(0, 5)] } : State).carry 0x100 (storeAddr 0 0)).1.fenceReq = some (0, 0)
    ∧ (({ meshed with dieErr := [(0, 4)] } : State).carry 0x100 (storeAddr 0 0)).2 = true
    ∧ (({ meshed with meshErr := [(0x100, true)] } : State).carry 0x100 (storeAddr 0 0)).2 = false
    ∧ (({ meshed with meshErr := [(5, true)] } : State).carry 5 (storeAddr 5 0)).2 = true := by decide +kernel

/-- R246: a released cell whose tag is uncorrectable stays occupied. -/
theorem test_bad_tag : (let t := ({ (meshed.takeCells [5] 3 0x122 0) with tagErr := [(5, true)] } : State).release 0x122 [5]
    (t.get poolCntQuar_COUNT, t.occ 3, (t.cell 5).quar, t.runFree 5 1)) = (1, 1, true, false) := by decide +kernel

/-- `s` with packets at the firmware's injection point. -/
def injecting (s : State) (l : List Pkt) : State :=
  { s with injq := s.injq.set [] (injKey .fw) (l.map fun p => ⟨p, true, false, none, none, false⟩) }

theorem test_wit_injection : ((injecting meshed []).tryInject .fw ⟨testPkt, true, false, none, none, false⟩).isSome = true
    ∧ ((injecting meshed [testPkt]).injq.get [] (injKey .fw)).length = 1
    ∧ ((injecting ((meshed.put (poolOcc_LEVEL 1) 3).put (poolOcc_LEVEL 2) 3) []).tryInject .fw
      ⟨{ testPkt with typ := tWRITE, cls := 4 }, true, false, none, none, false⟩).isNone = true
    ∧ (State.reset.injq.get [] (injKey .fw)).length = 0 := by decide +kernel

/-- The head of a VOQ that finds no credit, with an escape link for its destination. -/
def stuck : State := queued (meshed.modLink 3 fun l => { l with credits := [] }) 4 testPkt

theorem test_wit_periods : meshed.isAged testPkt = false ∧ (atTime meshed 60000000).isAged testPkt = true
    ∧ ((stuck.voqs.get [] (voqKey 19 4 7 0)).head?.any fun d => !d.pkt.ord && !d.esc && !d.pkt.spans
      && !stuck.eligible (voqKey 19 4 7 0) d
      && let r := stuck.entryOf d.pkt.epoch d.pkt.dst.toNat
         let l := (r.2.escLinks r.1 7).1
         (l[(r.2.flowHash d.pkt).toNat % 2 % l.length]?).isSome) = true := by decide +kernel

/-- R267: the head moves to the escape link. -/
theorem test_escape : shows (exec (.escWaitExpiry 19 4 7 0) stuck)
    (fun t => (t.get routeCntEscape_COUNT, (t.voqs.get [] (voqKey 19 3 7 1)).length)) = some (1, 1) := by decide +kernel

/-- R242: without a marked answer the rate rises by INC; a destination at its full rate is released. -/
theorem test_window : windowEnd 5 [(512, ⟨10, 0, false, 7⟩), (1024, ⟨fullRate - 5, 0, false, 0⟩), (0, ⟨10, 0, true, 7⟩)] =
    [(512, ⟨15, 0, false, 0⟩), (0, ⟨10, 0, false, 0⟩)] := by decide +kernel

/-! ## What the units of a port do with a packet -/

/-- A WRITE of four bytes to a store address, from member 1. -/
def writePkt : Pkt := { mkPkt tWRITE 3 0 5 false (mkW1 7 9 4 0 0) (mkW2 0x77 (storeAddr 0 0x40)) [1, 2, 3, 4] with src := 512 }

/-- `meshed` with the rights of master 0x200 on the store of cluster 0. -/
def reached : State := meshed.setRights 0x200 0x200 15

theorem test_wit_requests : takes (sent reached 14 writePkt 0 0x200) 14 (·.typ == tWRITE) = true
    ∧ takes (sent reached 14 { writePkt with typ := tREADREQ } 0 0x200) 14 (·.typ == tREADREQ) = true
    ∧ takes (sent reached 19 { writePkt with typ := tMIRROR } 0 0x132) 19 (·.typ == tMIRROR) = true
    ∧ reached.accHeld 0x200 = false ∧ (reached.put accCtrl_HOLD 1).accHeld 0x200 = true
    ∧ reached.accHeld 0x132 = false ∧ (reached.put accCtrl_HOLD 1).accHeld 0x132 = true
    ∧ (let r := (reached.filterEnt writePkt).1.reach 9; r.2 < 64 ∧ r.1.seen.getLsbD r.2 = false)
    ∧ (let s := { reached with filter := [(writePkt.filterKey, ⟨9, 1, 0⟩)] }
       let r := (s.filterEnt writePkt).1.reach 9; ¬ (r.2 < 64 ∧ r.1.seen.getLsbD r.2 = false))
    ∧ (let s := { reached with filter := [(writePkt.filterKey, ⟨73, 0, 0⟩)] }
       let r := (s.filterEnt writePkt).1.reach 9; ¬ (r.2 < 64 ∧ r.1.seen.getLsbD r.2 = false)) := by decide +kernel

/-- R215, R296: a write is carried out once; its copy is answered OK and counted. -/
theorem test_write_once : shows (exec (.write 14) (sent reached 14 writePkt 0 0x200))
      (fun t => (Tab.get 0 t.mem (storeAddr 0 0x43), (t.injq.get [] 0).map fun i => (i.pkt.typ, i.pkt.dst, i.pkt.op))) =
      some (4, [(tDONE, 512, 0)])
    ∧ shows (exec (.write 14) (sent { reached with filter := [(writePkt.filterKey, ⟨9, 1, 0⟩)] } 14 writePkt 0 0x200))
      (fun t => (t.mem.length, t.recov.get 0 0)) = some (0, 1) := by decide +kernel

theorem test_wit_filter_window : let e : FilterEnt := ⟨10, 3, 0⟩
    (11 + 2 ^ 24 - e.hi) % 2 ^ 24 = 1 ∧ (10 + 2 ^ 23 + 2 ^ 24 - e.hi) % 2 ^ 24 = 2 ^ 23 ∧ (e.reach 10).2 = 0
    ∧ ¬ (1 ≤ (10 + 2 ^ 24 - e.hi) % 2 ^ 24 ∧ (10 + 2 ^ 24 - e.hi) % 2 ^ 24 ≤ 2 ^ 23)
    ∧ ¬ ((10 + 2 ^ 23 + 1 + 2 ^ 24 - e.hi) % 2 ^ 24 ≤ 2 ^ 23) := by decide +kernel

/-- R296: one ahead moves SEEN by one. -/
theorem test_reach : (FilterEnt.reach ⟨10, 3, 0⟩ 11) = (⟨11, 6, 0⟩, 0) ∧ (FilterEnt.reach ⟨10, 3, 0⟩ 9) = (⟨10, 3, 0⟩, 1) := by decide +kernel

/-- A message to slot 0 of queue 0 of cluster 0. -/
def msgPkt : Pkt := { writePkt with typ := tMSG, w2 := 0 }

/-- `reached` with that queue enabled. -/
def listening : State := reached.put (clQ_EN 0 0) 1

/-- A management packet for the host or for this module. -/
def mgmtPkt (mtype host : Nat) (body : List Byte := []) : Pkt :=
  let b := [BitVec.ofNat 8 mtype, BitVec.ofNat 8 host, 0, 0] ++ body
  { mkPkt tMGMT 0 0 0xFFF false (mkW1 0 0 b.length 0 0) 0 b with src := 512 }

theorem test_wit_answers : takes (sent meshed 14 { writePkt with typ := tREADRSP }) 14 (·.typ == tREADRSP) = true
    ∧ takes (sent meshed 14 { writePkt with typ := tDONE }) 14 (fun p => p.typ == tDONE && !p.form) = true
    ∧ served.matching writePkt = none ∧ takes (sent listening 14 msgPkt 0 0x200) 14 (·.typ == tMSG) = true
    ∧ listening.accHeld 0x200 = false ∧ (listening.put accCtrl_HOLD 1).accHeld 0x200 = true
    ∧ reached.flag (clQ_EN (bitsOf msgPkt.w2 16 7) (bitsOf msgPkt.w2 24 3)) = false
    ∧ takes (sent meshed 19 testPkt) 19 (·.typ == tTEST) = true
    ∧ takes (sent meshed 19 (mgmtPkt 1 0)) 19 (fun p => p.typ == tMGMT && p.mtype == 1 && !p.toHost) = true ∧ meshed.mstate ≠ mOFF
    ∧ takes (sent meshed 19 (mgmtPkt 2 1)) 19 (fun p => p.typ == tMGMT && p.toHost) = true ∧ meshed.procRuns .sch = true
    ∧ meshed.serviceOut (mgmtPkt 2 1) = none := by decide +kernel

/-- `meshed` with service port 12 in GLOST and open. -/
def serving : State := (opened.put (lnkStatus_STATE 12) lkGLOST).put routeSvc_SV1_OPEN 0

theorem test_wit_to_host : serving.serviceOut (mgmtPkt 2 1) = some 12 ∧ (serving.alloc (mgmtPkt 2 1).cellCount 3 0x122 0).isSome = true := by
  decide +kernel

/-- R109: a message makes its slot ready with its length. -/
theorem test_msg : shows (exec (.msg 14) (sent listening 14 msgPkt 0 0x200)) (fun t => (t.cl 0).qready) = some [(0, 0, 4)] := by
  decide +kernel

/-- R285: a packet for the host without a service port is counted. -/
theorem test_no_service_port : shows (exec .mgmtToHost (sent meshed 19 (mgmtPkt 2 1))) (·.get routeCntNoroute_COUNT) = some 1 := by
  decide +kernel

/-- A CONE_SYNC message of version 1. -/
def syncPkt : Pkt := mkPkt tCONESYNC 1 0 0xFFF false (mkW1 0 0 64 0 0) 0 (1 :: List.replicate 63 0)

theorem test_wit_cone_sync : takes (sent meshed 19 syncPkt 3) 19 (fun p => p.typ == tCONESYNC && p.payload.headD 0 == 1 && p.payload.length == 64) = true
    ∧ takes (sent meshed 19 { syncPkt with payload := [2] } 3) 19 (fun p => p.typ == tCONESYNC && p.payload.headD 0 != 1) = true := by decide +kernel

/-! ## Route tables, coordinates and the topology -/

/-- A ROUTE_UPD message. -/
def routePkt (b : List Byte) : Pkt := { mkPkt tROUTEUPD 0 0 0xFFE false (mkW1 0 0 b.length 0 0) 0 b with src := 512 }

/-- `meshed` in which that message has come from a service port with its rights, bank A ACTIVE and bank B IDLE. -/
def updating (b : List Byte) (mid : Nat := 0x202) : State := sent ((meshed.setRights 6 0x202 15).setBankState false bkACTIVE) 19 (routePkt b) 12 mid

/-- What the clauses of a ROUTE_UPD row ask of its message. -/
def updates (s : State) (sub : Nat) (f : List Byte → State → Bool) : Bool :=
  (s.takeHead 19 (fun p => p.typ == tROUTEUPD && p.payload.headD 0 == BitVec.ofNat 8 sub
    && (s.procs.get ProcSt.reset 2).st == .running)).any fun x =>
      let u := x.2.release x.1.mid x.1.cells
      f (x.2.livePkt x.1.pkt x.1.cells x.1.off).payload u && (x.1.mid == 0x201 || x.1.mid == 0x202) && u.granted 0x006 x.1.mid aCFG

theorem test_wit_route_rights : (updating [1] 0x200).takeHead 19 (fun p => p.typ == tROUTEUPD && p.payload.headD 0 == BitVec.ofNat 8 1
      && ((updating [1] 0x200).procs.get ProcSt.reset 2).st == .running) ≠ none ∧ updates (updating [1] 0x200) 1 (fun _ _ => true) = false
    ∧ updates (updating [1] 0x202) 1 (fun _ _ => true) = true ∧ updates (updating [1, 2] 0x202) 1 (fun b _ => bankOf b == none) = true := by
  decide +kernel

/-- The bytes of a ROUTE_UPD_LOAD of one entry: that of the worked example after R268, with reserved bits set. -/
def loadOne (bank first n : Nat) : List Byte :=
  [1, BitVec.ofNat 8 bank, 0, 0] ++ bytesLE 2 first ++ bytesLE 2 n ++ bytesLE 8 0xD147000000000007

/-- The bytes of one whose entry has ESC 6. -/
def loadBad : List Byte := (loadOne 1 5 1).take 8 ++ bytesLE 8 (2 ^ 63 + 6 * 2 ^ 51)

theorem test_wit_route_load :
    updates (updating (loadOne 1 16383 1)) 1 (fun b u => bankOf b == some true && b.length == 8 + 8 * 1
      && !someReserved (b.drop 8) 1 && u.bankOpen true) = true
    ∧ updates (updating loadBad) 1 (fun b _ => bankOf b == some true && someReserved (b.drop 8) 1) = true
    ∧ updates (updating (loadOne 0 0 1)) 1 (fun b u => bankOf b == some false && !u.bankOpen false) = true
    ∧ updates (updating (loadOne 1 16384 1)) 1 (fun b _ => bankOf b == some true && decide (16384 < natLE ((b.drop 4).take 2) + 1)) = true
    ∧ updates (updating (loadOne 1 0 0)) 1 (fun b _ => bankOf b == some true && natLE ((b.drop 6).take 2) == 0) = true := by decide +kernel

/-- R286, R272, R11: the last entry of bank B is loaded without its reserved bits, and the bank is LOADING. -/
theorem test_route_load : shows (exec .routeUpdLoad (updating (loadOne 1 16383 1)))
    (fun t => (t.bankB.get 0 16383, t.bankState true, (t.injq.get [] 129).map (·.pkt.payload.take 2))) = 
      some (0xC147000000000000, bkLOADING, [[0x81, 0]]) := by
  decide +kernel

/-- R11: an entry with a reserved ESC is refused with E_PARAM. -/
theorem test_route_load_reserved : shows (exec .routeUpdLoad (updating loadBad))
    (fun t => (t.bankB, (t.injq.get [] 129).map (·.pkt.payload.take 2))) = some ([], [[0x81, 2]]) := by decide +kernel

theorem test_wit_route_key : updates (updating (2 :: 1 :: List.replicate 14 0)) 2 (fun b u => bankOf b == some true && u.bankOpen true) = true
    ∧ updates (updating (2 :: 0 :: List.replicate 14 0)) 2 (fun b u => bankOf b == some false && !u.bankOpen false) = true
    ∧ (routePkt (2 :: 1 :: List.replicate 14 0)).len = 16 ∧ (routePkt [2, 1]).len ≠ 16
    ∧ updates (updating [2, 1]) 2 (fun _ _ => true) = true := by decide +kernel

/-- The bytes of a ROUTE_UPD_COMMIT of bank B with a CRC. -/
def commitB (c : BitVec 32) : List Byte := [3, 1, 0, 0, 0, 0, 0, 0] ++ bytesLE 4 c.toNat

theorem test_commit_bytes (c : BitVec 32) : natLE (((commitB c).drop 8).take 4) = c.toNat := by
  have : c.toNat < 2 ^ 32 := c.isLt
  simp only [commitB, bytesLE, List.cons_append, List.nil_append, List.drop_succ_cons, List.drop_zero, List.take_succ_cons, List.take_zero,
    natLE, BitVec.toNat_ofNat]
  omega

theorem test_wit_route_commit : updates (updating (commitB 0)) 3 (fun b u => bankOf b == some true && u.bankOpen true) = true
    ∧ updates (updating (3 :: 0 :: List.replicate 10 0)) 3 (fun b u => bankOf b == some false && !u.bankOpen false) = true
    ∧ (routePkt (commitB 0)).len = 12
    ∧ (meshed.bankCrc true).toNat = natLE (((commitB (meshed.bankCrc true)).drop 8).take 4)
    ∧ (meshed.bankCrc true).toNat ≠ natLE (((commitB (meshed.bankCrc true + 1)).drop 8).take 4) := by
  refine ⟨by decide +kernel, by decide +kernel, by decide +kernel, (test_commit_bytes _).symm, ?_⟩
  rw [test_commit_bytes]
  generalize meshed.bankCrc true = c
  have := c.isLt
  have h : (1 : BitVec 32).toNat = 1 := rfl
  rw [BitVec.toNat_add, h]
  omega

/-- The bytes of a ROUTE_UPD_COORD. -/
def coordTo (c : Nat) : List Byte := [4, 0, 0, 0, 0, 0, 0, 0] ++ bytesLE 2 c

theorem test_wit_route_coord : updates (updating (coordTo 0)) 4 (fun b u => u.mstate == mREADY
      && (List.range 3).all fun a => decide (axisOf (natLE ((b.drop 8).take 2) % 2 ^ 14) a < u.extent a)) = true
    ∧ updates (updating (coordTo 1)) 4 (fun b u => u.mstate == mREADY
      && decide (u.extent 2 ≤ axisOf (natLE ((b.drop 8).take 2) % 2 ^ 14) 2)) = true
    ∧ updates ((updating (coordTo 0)).put sysState_STATE mRUNNING) 4 (fun _ u => u.mstate != mBOOTING && u.mstate != mREADY) = true
    ∧ (routePkt (coordTo 0)).len = 10 ∧ (routePkt [4]).len ≠ 10 := by decide +kernel

/-- The bytes of a ROUTE_UPD_TOPO of a machine of the given extents. -/
def topoTo (ex ey ez : Nat) : List Byte :=
  [5, 0, 0, 0, 0, 0, 0, 0] ++ bytesLE 4 0x4F504F54 ++ [1, 0, BitVec.ofNat 8 ex, BitVec.ofNat 8 ey, BitVec.ofNat 8 ez] ++ List.replicate 55 0

theorem test_wit_route_topo : updates (updating (topoTo 32 4 16)) 5 (fun b u => u.mstate == mREADY && (topoOf (b.drop 8)).isSome) = true
    ∧ updates (updating (topoTo 1 1 1)) 5 (fun b u => u.mstate == mREADY && (topoOf (b.drop 8)).isSome) = true
    ∧ updates (updating (topoTo 2 1 1)) 5 (fun b u => u.mstate == mREADY && (topoOf (b.drop 8)).isNone) = true
    ∧ (routePkt (topoTo 1 1 1)).len = 72 ∧ (routePkt [5]).len ≠ 72
    ∧ updates ((updating (topoTo 1 1 1)).put sysState_STATE mRUNNING) 5 (fun _ u => u.mstate != mBOOTING && u.mstate != mREADY) = true := by
  decide +kernel

/-- `meshed` after a flip at count 0, bank A DRAINING, at count `n`. -/
def flipped (n : Nat) : State := atTime (meshed.setBankState true bkLOADED).flip n

theorem test_wit_route_banks : Canon meshed ∧ Tab.wf (fun _ => (0 : W64)) meshed.bankA = true
    ∧ (flipped 51000000).bankState (!(flipped 51000000).flag routeBank_ACTIVE) = bkDRAINING
    ∧ ((flipped 51000000).rd routeFlipAt).toNat + (flipped 51000000).flipMax + 1000000 ≤ (flipped 51000000).now
    ∧ ¬ (((flipped 50999999).rd routeFlipAt).toNat + (flipped 50999999).flipMax + 1000000 ≤ (flipped 50999999).now)
    ∧ ((meshed.setAlarm 6 2 0 0 0).alarmDue 6 = true ∧ (meshed.setAlarm 6 2 0 0 0).get (coneAlarmCtrl_ACTION 6) = 2
      ∧ ∀ j, j < 6 → (meshed.setAlarm 6 2 0 0 0).alarmDue j = false) :=
  ⟨canon_of_ok (by decide +kernel), by decide +kernel, by decide +kernel, by decide +kernel, by decide +kernel, by decide +kernel,
    by decide +kernel, by decide +kernel⟩

/-- R274: at C + L + 1 ms the old bank becomes IDLE, and not one nanosecond before. -/
theorem test_bank_retire : shows (exec .bankRetire (flipped 51000000)) (·.bankState false) = some bkIDLE
    ∧ shows (exec .bankRetire (flipped 50999999)) (·.bankState false) = some bkDRAINING := by decide +kernel

/-! ## Fault notes, loss and restores -/

/-- A FAULT_NOTE of a kind from module 512 about `subject`, its further words `w4`. -/
def notePkt (kind subject sslice : Nat) (w4 : List Nat := []) : Pkt :=
  let b := bytesLE 8 kind ++ bytesLE 8 0 ++ bytesLE 8 (512 + subject * 2 ^ 32 + sslice * 2 ^ 48) ++ bytesLE 8 0
    ++ w4.flatMap (bytesLE 8) ++ List.replicate (8 * (4 - w4.length)) 0
  { mkPkt tFAULTNOTE 0 0 0xFFF false (mkW1 0 0 64 0 0) 0 b with src := 512 }

/-- Whether a row takes a note and finds it fresh or not. -/
def notes (s : State) (kinds : List Nat) (new : Bool) : Bool :=
  (s.takeHead 19 (fun p => p.typ == tFAULTNOTE && kinds.contains p.noteKind)).any fun x =>
    (x.2.noteFresh 0 (x.1.pkt.reporter * 65536 + bitsOf (x.1.pkt.recWord 0) 32 16)).1 == new

/-- `meshed` that has seen the record 0 of module 512 at count 0. -/
def noted : State := { meshed with notes := [(0, 512 * 65536, 0)] }

theorem test_wit_notes : (∀ k, k ∈ [0x01, 0x02, 0x06, 0x07, 0x08, 0x09] → notes (sent meshed 19 (notePkt k 1 5)) [0x01, 0x02, 0x06, 0x07, 0x08, 0x09] true = true)
    ∧ (∀ k, k ∈ [0x03, 0x04, 0x05, 0x0A, 0x0B] → notes (sent meshed 19 (notePkt k 1 5)) [k] true = true
      ∧ notes (sent noted 19 (notePkt k 1 5)) [k] false = true)
    ∧ notes (sent noted 19 (notePkt 0x01 1 5)) [0x01, 0x02, 0x06, 0x07, 0x08, 0x09] false = true
    ∧ notes (sent (atTime noted 1000000000) 19 (notePkt 0x03 1 5)) [0x03] true = true
    ∧ notes (sent (atTime noted 999999999) 19 (notePkt 0x03 1 5)) [0x03] false = true := by decide +kernel

/-- R303: a PROBE is answered with a PROBE_ACK. -/
theorem test_probe : shows (exec .probe (sent meshed 19 (notePkt 0x03 1 5)))
    (fun t => (t.injq.get [] 129).map fun i => (i.pkt.dst, i.pkt.noteKind)) = some [(512, 0x04)] := by decide +kernel

/-- R304, R305: a lost module of this module's slice sets fault pending, and one of another slice does not. -/
theorem test_module_lost : shows (exec .moduleLost (sent meshed 19 (notePkt 0x05 1 5))) (·.get sysState_FPEND) = some 1
    ∧ shows (exec .moduleLost (sent meshed 19 (notePkt 0x05 1 6))) (·.get sysState_FPEND) = some 0 := by decide +kernel

/-- `meshed` that suspects the neighbour 512 in direction 1 since count 0, its slice read as `ss`. -/
def suspecting (n ss : Nat) : State :=
  atTime { meshed.put (lnkPeerInfo_SLICE 2) ss with suspects := [(1, ⟨512, 0⟩)] } n

theorem test_wit_loss : (suspecting 1000000 5).suspects.find 1 = some ⟨512, 0⟩ ∧ (suspecting 999999 5).now < 0 + 1000000
    ∧ ¬ ((suspecting 1000000 5).now < 0 + 1000000 ∨ 512 = (suspecting 1000000 5).coord)
    ∧ (suspecting 1000000 5).get routeSlice_SLICE = (suspecting 1000000 5).get (lnkPeerInfo_SLICE (2 * 1))
    ∧ (suspecting 1000000 5).get (lnkPeerInfo_SLICE (2 * 1)) ≠ 0
    ∧ (suspecting 1000000 6).get routeSlice_SLICE ≠ (suspecting 1000000 6).get (lnkPeerInfo_SLICE (2 * 1))
    ∧ (suspecting 1000000 0).get (lnkPeerInfo_SLICE (2 * 1)) = 0 := by decide +kernel

/-- R304: 1 ms after the suspicion the neighbour is declared lost; one nanosecond before it is not. -/
theorem test_loss : shows (exec (.lostTimeExpiry 1) (suspecting 1000000 5)) (fun t => (t.get sysState_FPEND, t.suspects.length)) = some (1, 0)
    ∧ shows (exec (.lostTimeExpiry 1) (suspecting 999999 5)) (fun t => (t.get sysState_FPEND, t.suspects.length)) = some (0, 1) := by
  decide +kernel

/-- `meshed` at count `n` with a request of the firmware unanswered since count 0 after `tries` retransmissions. -/
def asked (n tries : Nat) (slot : Option Nat) (typ : BitVec 6) : State :=
  atTime { meshed with requests := [⟨{ writePkt with typ := typ }, .fw, 0, tries, 0, slot⟩] } n

/-- What the retransmission clauses ask of a request. -/
def unanswered (s : State) (f : Req → Bool) : Bool :=
  (s.requests.find? (fun r => r.pkt.coll = 7 && r.pkt.chunk = 9)).any fun r =>
    f r && decide (r.since + s.ageLimit + 1000000 ≤ s.now)
      && !(s.injq.get [] (injKey r.point)).any fun i => i.again && i.pkt.coll == 7 && i.pkt.chunk == 9

theorem test_wit_retransmission : unanswered (asked 51000000 0 none tWRITE) (fun r => r.slot.isNone) = true
    ∧ unanswered (asked 51000000 3 (some 0) tMIRROR) (fun r => r.slot == some 0 && r.pkt.typ == tMIRROR && decide (3 ≤ r.tries)) = true
    ∧ unanswered (asked 51000000 2 (some 0) tMIRROR) (fun r => decide (r.tries < 3)) = true
    ∧ unanswered (asked 50999999 0 none tWRITE) (fun _ => true) = false ∧ (asked 50999999 0 none tWRITE).requests.length = 1 := by decide +kernel

/-- R298: the request goes out again with its TAG and PSEQ. -/
theorem test_retransmit : shows (exec (.requestRetransmit 7 9) (asked 51000000 0 none tWRITE))
    (fun t => (t.injq.get [] 129).map fun i => (i.again, i.pkt.coll, i.pkt.chunk)) = some [(true, 7, 9)] := by decide +kernel

/-- A mirror binding with buddy 512 and ward 1024. -/
def binding : MirrorBind := ⟨512, true, 1024, true, 0, 0, 0x100000, 0⟩

/-- `meshed` bound, with a SNAPSHOT of step 7 closing generation 3 on queue 2. -/
def closing (bad : List W64) : State :=
  { meshed with
    runs := [⟨2, 0x0B, .snapshot 7 3⟩]
    mirror := { MirrorEng.reset with
      bind := some binding
      gen := 4
      opened := true
      closing := true
      bad := bad } }

/-- `meshed` bound and restoring step 7 into [0x4000, 0x5000) since count 0. -/
def restoring (n : Nat) : State :=
  atTime { meshed with mirror := { MirrorEng.reset with
    bind := some binding
    window := some (0x4000, 0x1000)
    windowStep := 7 } } n

theorem test_wit_restores : (closing []).closingRun = some (2, 7, 3) ∧ (closing []).mirror.opened = true ∧ (closing []).mirror.sealing = false
    ∧ (closing []).mirrorsRun 3 = false ∧ (closing [3]).closingRun = some (2, 7, 3) ∧ (3 : W64) ∈ (closing [3]).mirror.bad
    ∧ meshed.accHeld 0x132 = false ∧ (meshed.put accCtrl_HOLD 1).accHeld 0x132 = true
    ∧ (restoring 0).mirror.bind = some binding ∧ (notePkt 0x0A 0 5).reporter ≠ binding.ward
    ∧ ((restoring 10000000).mirror.window.isSome = true ∧ (restoring 10000000).mirror.windowAt + 10000000 ≤ (restoring 10000000).now)
    ∧ ¬ ((restoring 9999999).mirror.windowAt + 10000000 ≤ (restoring 9999999).now) := by decide +kernel

/-- R315, R316: a RESTORE_END of the step in progress makes it the local snapshot and closes the window; one of another step does nothing. -/
theorem test_restore_end : shows (exec .restoreEnd (sent (restoring 0) 19 (notePkt 0x0B 0 5 [7, 0x800, 0])))
      (fun t => (t.mirror.localSnap, t.mirror.window)) = some (7, none)
    ∧ shows (exec .restoreEnd (sent (restoring 0) 19 (notePkt 0x0B 0 5 [8, 0x800, 0]))) (fun t => t.mirror.window) =
      some (some (0x4000, 0x1000)) := by decide +kernel

/-! ## Alarms of the cone count, and what the HBM controllers do by themselves -/

theorem test_wit_alarms : ((meshed.setAlarm 3 0 0 0 0).alarmDue 3 = true ∧ (meshed.setAlarm 3 0 0 0 0).get (coneAlarmCtrl_ACTION 3) = 0)
    ∧ ((meshed.setAlarm 3 1 0 0 0).alarmDue 3 = true ∧ (meshed.setAlarm 3 1 0 0 0).get (coneAlarmCtrl_ACTION 3) = 1)
    ∧ (meshed.setAlarm 3 1 1 0 0).alarmDue 3 = false ∧ (meshed.setAlarm 3 3 0 0 0).get (coneAlarmCtrl_ACTION 3) = 3
    ∧ ((meshed.setAlarm 3 1 20000 0 0).flag (coneAlarmCtrl_EN 3) = true
      ∧ ((meshed.setAlarm 3 1 20000 0 0).rd (coneAlarmAt 3)).toNat ≤ (meshed.setAlarm 3 1 20000 0 0).now + 20000)
    ∧ ¬ (((meshed.setAlarm 3 1 20001 0 0).rd (coneAlarmAt 3)).toNat ≤ (meshed.setAlarm 3 1 20001 0 0).now + 20000) := by decide +kernel

theorem test_wit_alarm_canon : Canon (meshed.setAlarm 3 3 0 0 0) := canon_of_ok (by decide +kernel)

/-- R338: an alarm that fires is disarmed and shows FIRED. -/
theorem test_alarm : shows (exec (.alarmInterrupt 3) (meshed.setAlarm 3 0 0 0 0))
    (fun t => (t.get (coneAlarmCtrl_EN 3), t.get (coneAlarmCtrl_FIRED 3))) = some (0, 1) := by decide +kernel

/-- `meshed` with stack 2 in state `st`, its window of accesses `w` after `bad` busy ones. -/
def stackIn (st : Nat) (w : Tab Nat) (bad : Nat) : State :=
  { meshed.put (hbmStatus_STATE 2) st with hbm := [(2, { HbmSt.reset with
    win := w
    bad := bad })] }

theorem test_wit_hbm_controllers : ((stackIn 1 [] 0).get (hbmStatus_STATE 2) = 1 ∧ ((stackIn 1 [] 0).put (hbmScrub_PERIOD 2) 5).get (hbmScrub_PERIOD 2) ≠ 0)
    ∧ (stackIn 0 [] 0).get (hbmStatus_STATE 2) ≠ 1 ∧ (stackIn 1 [] 0).stackReady 2 = true ∧ (stackIn 3 [] 0).stackReady 2 = true
    ∧ (stackIn 0 [] 0).stackReady 2 = false ∧ (stackIn 1 [] 0).procRuns .pwr = true
    ∧ (0 < (stackIn 1 [] 0).hbmImbTime 2) ∧ (stackIn 1 [(5, 62500)] 9).hbmImbTime 2 = 10 := by decide +kernel

/-- R361: the tenth busy window latches its pseudo-channel; the ninth does not; 62,499 accesses are not busy. -/
theorem test_imbalance : shows (exec (.hbmImbalanceWindow 2) (stackIn 1 [(5, 62500)] 9)) (fun t => (t.get (hbmChanImbal_LATCH 2), t.get (hbmChanImbal_PC 2)))
      = some (1, 5)
    ∧ shows (exec (.hbmImbalanceWindow 2) (stackIn 1 [(5, 62500)] 8)) (fun t => (t.get (hbmChanImbal_LATCH 2), (t.hbm.get HbmSt.reset 2).bad)) =
      some (0, 9)
    ∧ shows (exec (.hbmImbalanceWindow 2) (stackIn 1 [(5, 62499)] 9)) (fun t => (t.hbm.get HbmSt.reset 2).bad) = some 0 := by decide +kernel

/-- A command of SCH with words `w`, submitted by the master 0x122. -/
def cmdOf (w : List Nat) : Cmd := ⟨(List.range 8).map fun k => BitVec.ofNat 64 (w.getD k 0), ⟨0x122, none⟩⟩

/-- `served` in module state `st` with a command in progress on queue 2. -/
def inProgress (st : Nat) (c : Cmd) (op : Nat) (k : RunKind) : State :=
  { served.put sysState_STATE st with
    queues := [(2, [c])]
    runs := [⟨2, op, k⟩] }

theorem test_wit_clearing : (served.modPwr fun p => { p with phase := .clearing }).power.phase = .clearing
    ∧ (inProgress mBOUND (cmdOf [2]) 0x02 (.clearing false)).power.phase ≠ .clearing
    ∧ ((inProgress mBOUND (cmdOf [2]) 0x02 (.clearing false)).runs.findSome? fun r => match r.kind with
      | .clearing u => some (r.q, u)
      | _ => none) = some (2, false)
    ∧ served.flag klnTouchCtrl_BUSY = false ∧ (served.put klnTouchCtrl_BUSY 1).flag klnTouchCtrl_BUSY = true
    ∧ (served.put klnTouchCtrl_BUSY 1).touchCleared.runs.find? (fun r => r.kind == .bindClear) = none
    ∧ (((inProgress mBOUND (cmdOf [0x13]) 0x13 .bindClear).put klnTouchCtrl_BUSY 1).touchCleared.runs.find? (fun r => r.kind == .bindClear)) =
      some ⟨2, 0x13, .bindClear⟩
    ∧ ((inProgress mBOUND (cmdOf [0x13]) 0x13 .bindClear).put klnTouchCtrl_BUSY 1).touchCleared.queue 2 = [cmdOf [0x13]] := by decide +kernel

/-- R386: an UNBIND completes once memory is clear, and the module is READY. -/
theorem test_unbound : shows (exec .memoryClearDone (inProgress mBOUND (cmdOf [2]) 0x02 (.clearing false)))
    (fun t => (t.mstate, t.runs.length, (t.queue 2).length)) = some (mREADY, 0, 0) := by decide +kernel

/-! ## The commands of the control processor -/

/-- `served` in module state `st`, its HBM stacks in service, with the command of words `w` on queue 2. -/
def given (st : Nat) (w : List Nat) (hbm : Nat := 1) : State :=
  { ((List.range 8).foldl (fun s k => s.put (hbmStatus_STATE k) hbm) served).put sysState_STATE st with queues := [(2, [cmdOf w])] }

/-- The conditions of `Passes` as a check. -/
def passesOk (s : State) (q : Fin 64) (c : Cmd) : Bool :=
  s.schPick == some q.val && (s.queue q.val).head? == some c && s.mayExecute c && !s.badParam c && c.legal s.mstate

theorem passes_of_ok {s : State} {q : Fin 64} {c : Cmd} (h : passesOk s q c = true) : Passes s q c := by
  simp only [passesOk, Bool.and_eq_true, beq_iff_eq, Bool.not_eq_true'] at h
  exact ⟨⟨h.1.1.1.1, h.1.1.1.2⟩, h.1.1.2, h.1.2, h.2⟩

/-- Whether the command of `given` passes its checks, and the state that it has its effect on has a property. -/
def passes (st : Nat) (w : List Nat) (f : State → Cmd → Bool := fun _ _ => true) (change : State → State := id) (hbm : Nat := 1) : Bool :=
  let s := change (given st w hbm)
  passesOk s 2 (cmdOf w) && f { s with rrq := 2 } (cmdOf w)

/-- `s` with bytes in HBM. -/
def holdsAt (a : Nat) (b : List Byte) (s : State) : State := { s with mem := writeBytes 0 s.mem a b }

/-- The commands of the rows, each with a state in which it is legal. -/
def rowCommands : List (Nat × List Nat) :=
  [(mREADY, [0x01, 5]), (mBOUND, [0x02]), (mBOUND, [0x03]), (mBOUND, [0x04]), (mRUNNING, [0x05]), (mRUNNING, [0x06]), (mRUNNING, [0x07]),
    (mPAUSED, [0x07, 1]), (mPAUSED, [0x07, 2]), (mRUNNING, [0x07, 3]), (mBOUND, [0x08]), (mREADY, [0x09]), (mFENCED, [0x0A]), (mPAUSED, [0x0B]),
    (mBOUND, [0x0C]), (mREADY, [0x0D, 0]), (mREADY, [0x0D, 1]), (mREADY, [0x0D, 2]), (mREADY, [0x0E]), (mREADY, [0x0F]), (mREADY, [0x10]),
    (mREADY, [0x11]), (mREADY, [0x12]), (mBOUND, [0x13]), (mREADY, [0x14, 0]), (mREADY, [0x14, 1]), (mBOUND, [0x15, 0]), (mREADY, [0x15, 1]),
    (mREADY, [0x15, 2]), (mREADY, [0x15, 3]), (mREADY, [0x16, 0]), (mFENCED, [0x16, 1]), (mREADY, [0x17])]

/-- Every row's command passes the checks in some state; without the XQ right of its submitter, or in OFF, it does not. -/
theorem test_wit_rows : (rowCommands.all fun r => passes r.1 r.2) = true := by decide +kernel

theorem test_wit_row_checks : (let c := { cmdOf [0x01, 5] with sub := ⟨0x200, none⟩ }
      let s := { given mREADY [] with queues := [(2, [c])] }
      s.schPick = some 2 ∧ s.mayExecute c = false)
    ∧ (let s := given mREADY [0x01, 0]; s.schPick = some 2 ∧ s.mayExecute (cmdOf [0x01, 0]) = true ∧ s.badParam (cmdOf [0x01, 0]) = true)
    ∧ (let s := given mBOUND [0x01, 5]
      s.schPick = some 2 ∧ s.mayExecute (cmdOf [0x01, 5]) = true ∧ s.badParam (cmdOf [0x01, 5]) = false
        ∧ (cmdOf [0x01, 5]).legal s.mstate = false) := by decide +kernel

/-- R397: a command outside its states completes with E_STATE, and its queue moves on. -/
theorem test_illegal_state : shows (exec (.bind 2) (given mBOUND [0x01, 5])) (fun t => (t.mstate, (t.queue 2).length)) = some (mBOUND, 0) := by
  decide +kernel

/-- An access image of no records. -/
def emptyImage : List Byte := bytesLE 4 0x53434341 ++ [1, 0] ++ List.replicate 26 0

/-- What the clauses of BIND ask of the image at address 0x1000 and of the binding at 0x2000. -/
def binds (f : State × Nat × List Byte → State × Nat × List Byte → State × Nat × List Byte → Nat → Bool) (image : List Byte) (addr3 : Nat)
    (bind : List Byte := []) (hbm : Nat := 1) : Bool :=
  passes mREADY [0x01, 5, 0x1000, addr3] (fun u c =>
    let h := u.cmdRead 0x122 (c.addr 2) 32
    let n := tokField h.2.2 6 2
    let b := h.1.cmdRead 0x122 (c.addr 2 + 32) (16 * n)
    f h b (b.1.cmdRead 0x122 (c.addr 3) 64) n) (fun s => holdsAt 0x2000 bind (holdsAt 0x1000 image s)) hbm

/-- Whether the header and the body of an image pass. -/
def imageOk (h b : State × Nat × List Byte) (n : Nat) : Bool :=
  h.2.1 == eOK && tokField h.2.2 0 4 == 0x53434341 && tokField h.2.2 4 2 == 1 && decide (n ≤ 4096) && b.2.1 == eOK
    && tokField h.2.2 8 4 == (crc32c b.2.2).toNat && (accRecords b.2.2 n).all fun r => accRecordOk r.1 r.2

/-- A mirror binding's 64 bytes: a half of one unit. -/
def bindBytes : List Byte := List.replicate 24 0 ++ [1] ++ List.replicate 39 0

theorem test_wit_bind : binds (fun h b _ n => imageOk h b n) emptyImage 0 = true
    ∧ binds (fun h b m n => imageOk h b n && m.2.1 == eOK && (bindingOf m.2.2).isSome) emptyImage 0x2000 bindBytes = true
    ∧ binds (fun h b m n => imageOk h b n && m.2.1 == eOK && (bindingOf m.2.2).isNone) emptyImage 0x2000 = true
    ∧ binds (fun h b m n => imageOk h b n && m.2.1 != eOK) emptyImage 0x20000000000 = true
    ∧ binds (fun h _ _ _ => h.2.1 == eOK && tokField h.2.2 0 4 != 0x53434341) [] 0 = true
    ∧ binds (fun h _ _ _ => h.2.1 != eOK) emptyImage 0 [] 0 = true
    ∧ binds (fun h b _ n => h.2.1 == eOK && tokField h.2.2 0 4 == 0x53434341 && n == 1 && b.2.1 == eOK
        && tokField h.2.2 8 4 != (crc32c b.2.2).toNat) (bytesLE 4 0x53434341 ++ [1, 0, 1, 0]) 0 = true := by decide +kernel

/-- R378, R386: BIND of a valid image binds the slice. -/
theorem test_bind : shows (exec (.bind 2) (holdsAt 0x1000 emptyImage (given mREADY [0x01, 5, 0x1000])))
    (fun t => (t.mstate, t.get routeSlice_SLICE, (t.queue 2).length)) = some (mBOUND, 5, 0) := by decide +kernel

/-- What the clauses of LOAD_PROGRAM ask of the descriptor at 0x1000. -/
def loads (d : List Nat) (f : State → Nat × Nat × Nat → Cmd → Bool) (change : State → State := id) : Bool :=
  passes mBOUND [0x03, 0x1000, 1] (fun u c =>
    let r := u.cmdRead 0x122 (c.addr 1) 64
    r.2.1 == eOK && f r.1 (progOf (words64 r.2.2)) c) (fun s => change (holdsAt 0x1000 (d.flatMap (bytesLE 8)) s))

theorem test_wit_load_program :
    loads [0x2000, 16 + (storeSize - 16) * 2 ^ 32] (fun s p c => p.2.2 + p.2.1 == storeSize && p.2.2 % 8 == 0 && spanHbm p.1 p.2.1
      && (c.mask 2).all fun n => s.clSt n == clIDLE || s.clSt n == clHALTED) = true
    ∧ loads [0x2000, 16 + 4 * 2 ^ 32] (fun _ p _ => p.2.2 % 8 != 0) = true
    ∧ passes mBOUND [0x03, 0x1000, 1] (fun u c => (u.cmdRead 0x122 (c.addr 1) 64).2.1 != eOK) id 0 = true := by decide +kernel

/-- A copy of 16 bytes from 0x2000 to offset 8 of cluster 0 in progress on queue 2. -/
def copying (hbm : Nat) : State :=
  let w := [0x03, 0x1000, 1]
  { holdsAt 0x2000 [1, 2, 3] (given mBOUND w hbm) with runs := [⟨2, 0x03, .copying [0x2000, BitVec.ofNat 64 (16 + 8 * 2 ^ 32)]⟩] }

theorem test_wit_copy : ((copying 1).runs.findSome? fun r => match r.kind with
      | .copying d => some (r.q, d)
      | _ => none) = some (2, [0x2000, BitVec.ofNat 64 (16 + 8 * 2 ^ 32)])
    ∧ ((copying 1).copyProgram (cmdOf [0x03, 0x1000, 1]) [0x2000, BitVec.ofNat 64 (16 + 8 * 2 ^ 32)]).2 = eOK
    ∧ ((copying 0).copyProgram (cmdOf [0x03, 0x1000, 1]) [0x2000, BitVec.ofNat 64 (16 + 8 * 2 ^ 32)]).2 ≠ eOK
    ∧ (copying 1).queue 2 = [cmdOf [0x03, 0x1000, 1]] := by decide +kernel

/-- R396: the bytes stand in the store at DEST. -/
theorem test_copy : shows (exec .programCopyDone (copying 1)) (fun t => (Tab.get 0 t.mem (storeAddr 0 10), (t.queue 2).length)) = some (3, 0) := by
  decide +kernel

theorem test_wit_run_commands : passes mBOUND [0x04, 3] = true
    ∧ passes mBOUND [0x05, 1, 0, 50] (fun u _ => !u.flag (coneAlarmCtrl_EN 0)) = true
    ∧ passes mBOUND [0x05, 1, 0, 50] (fun u _ => !u.flag (coneAlarmCtrl_EN 5) && (List.range 5).all fun j => u.flag (coneAlarmCtrl_EN j))
      (fun s => (List.range 5).foldl (fun s j => s.put (coneAlarmCtrl_EN j) 1) s) = true
    ∧ passes mBOUND [0x05, 1, 0, 50] (fun u _ => (List.range 6).all fun j => u.flag (coneAlarmCtrl_EN j))
      (fun s => (List.range 6).foldl (fun s j => s.put (coneAlarmCtrl_EN j) 1) s) = true
    ∧ passes mRUNNING [0x08, 50] (fun u _ => !u.flag (coneAlarmCtrl_EN 7)) = true
    ∧ passes mRUNNING [0x08, 50] (fun u _ => u.flag (coneAlarmCtrl_EN 7)) (·.put (coneAlarmCtrl_EN 7) 1) = true := by decide +kernel

/-- R397: START runs cluster 0 and the module. -/
theorem test_start_command : shows (exec (.start 2) (given mBOUND [0x04, 1])) (fun t => (t.mstate, t.clSt 0, t.clSt 1)) = some (mRUNNING, clRUNNING, clIDLE) := by
  decide +kernel

/-- `s` bound to a mirror or not. -/
def mirrored (en : Bool) (s : State) : State := { s with mirror := { MirrorEng.reset with bind := some { binding with en := en } } }

theorem test_wit_snapshots : passes mRUNNING [0x0B, 7] (fun u _ => u.mirror.bind.any (·.en)) (mirrored true) = true
    ∧ passes mRUNNING [0x0B, 7] (fun u _ => u.mirror.bind.any fun b => !b.en) (mirrored false) = true
    ∧ passes mRUNNING [0x0B, 7] (fun u _ => u.mirror.bind.isNone) = true
    ∧ passes mBOUND [0x0C, 7] (fun u _ => u.mirror.bind.isSome) (mirrored true) = true
    ∧ passes mBOUND [0x0C, 7] (fun u _ => u.mirror.bind.isNone) = true := by decide +kernel

/-- R315: RESTORE asks the buddy and opens the window. -/
theorem test_restore : shows (exec (.restore 2) (mirrored true (given mBOUND [0x0C, 7, 0x4000, 0x1000])))
    (fun t => (t.mstate, t.mirror.window, (t.injq.get [] 129).map fun i => (i.pkt.dst, i.pkt.noteKind))) =
    some (mRESTORING, some (0x4000, 0x1000), [(512, 0x0A)]) := by decide +kernel

theorem test_wit_routes : passes mREADY [0x0D, 0x100, 0] (fun u c => u.bankOpen c.bank && (u.cmdRead 0x122 (c.addr 2) 131080).2.1 != eOK)
      (·.setBankState true bkIDLE) 0 = true
    ∧ passes mREADY [0x0D, 0x000, 0] (fun u c => !u.bankOpen c.bank) (·.setBankState false bkACTIVE) = true
    ∧ passes mREADY [0x0D, 0x101, 0] (fun u c => u.bankOpen c.bank) = true ∧ passes mREADY [0x0D, 0x102, 0] (fun u c => u.bankOpen c.bank) = true
    ∧ passes mREADY [0x0E, 5] (fun u _ => u.bankState (!u.flag routeBank_ACTIVE) != bkLOADED) = true
    ∧ passes mREADY [0x0E, 5] (fun u c => u.bankState (!u.flag routeBank_ACTIVE) == bkLOADED && !u.flag routeBank_FLIP_PEND
      && decide ((u.wr routeFlipAt (c.word 1)).now < 5)) (·.setBankState true bkLOADED) = true
    ∧ passes mREADY [0x0E, 0] (fun u c => u.bankState (!u.flag routeBank_ACTIVE) == bkLOADED && !u.flag routeBank_FLIP_PEND
      && decide (0 ≤ (u.wr routeFlipAt (c.word 1)).now)) (·.setBankState true bkLOADED) = true := by decide +kernel

/-- R273, R274: a flip whose count has come is done at once. -/
theorem test_flip : shows (exec (.flipEpoch 2) ((given mREADY [0x0E, 0]).setBankState true bkLOADED))
    (fun t => (t.flag routeBank_ACTIVE, t.bankState true)) = some (true, bkACTIVE) := by decide +kernel

/-- A table in HBM whose first entry has ESC 6. -/
def reservedTable (s : State) : State := { s with mem := Tab.set 0 (Tab.set 0 s.mem 6 0x30) 7 0x80 }

theorem test_wit_route_tables :
    passes mREADY [0x0D, 0x100, 0] (fun u c => (u.cmdRead 0x122 (c.addr 2) 131080).2.1 == eOK && someReserved (u.cmdRead 0x122 (c.addr 2) 131080).2.2 16384)
      (fun s => reservedTable (s.setBankState true bkIDLE)) = true := by decide +kernel

/-- The words of a BIND_STEP: step 7, its table at `tbase`, its status at `addr3`, `n` rows. -/
def bindStep (tbase addr3 n tclr : Nat) : List Nat := [0x13, 7, tbase + n * 2 ^ 48 + tclr * 2 ^ 63, addr3]

/-- What the clauses of BIND_STEP ask of its rows. -/
def steps (tbase addr3 n tclr : Nat) (f : State × Nat → State × Nat → Cmd → Bool) (change : State → State := id) (hbm : Nat := 1) : Bool :=
  passes mBOUND (bindStep tbase addr3 n tclr) (fun u c =>
    let r := u.checkRows (c.addr 2) 0 c.nrows
    u.stepReady c && u.runs.all (·.op != 0x13) && f r (r.1.writeRows (c.addr 2) (c.word 1).toNat 0 c.nrows) c) change hbm

/-- A schedule row whose curve is a table of one word, 64 bytes after the row. -/
def userRow : List Byte := bytesLE 8 (5 * 2 ^ 24) ++ bytesLE 8 0 ++ bytesLE 8 (2 ^ 32) ++ bytesLE 8 (2 ^ 32)

theorem test_wit_bind_step : steps 0x1000 0 1 0 (fun r w c => r.2 == eOK && w.2 == eOK && !c.tclr && c.addr 3 == 0) = true
    ∧ steps 0x1000 0 1 1 (fun r w c => r.2 == eOK && w.2 == eOK && c.tclr) = true
    ∧ steps 0x1000 0x2000 0 0 (fun r w c => r.2 == eOK && w.2 == eOK && c.addr 3 != 0 && (w.1.cmdWrite 0x122 (c.addr 3) (List.replicate 32 0)).2 == eOK) = true
    ∧ steps 0x1000 0x2000 0 0 (fun r w c => r.2 == eOK && w.2 == eOK && c.addr 3 != 0 && (w.1.cmdWrite 0x122 (c.addr 3) (List.replicate 32 0)).2 != eOK)
      id 0 = true
    ∧ steps 0x1000 0 1 0 (fun r _ _ => r.2 == ePARAM) (holdsAt 0x1000 [0, 0, 0, 6]) = true
    ∧ steps 0x1000 0 1 0 (fun r w _ => r.2 == eOK && w.2 != eOK) (fun s => { holdsAt 0x1000 userRow s with memErr := [(0x1040 / 8, 3)] }) = true
    ∧ passes mRUNNING (bindStep 0 0 0 0) (fun u c => !u.stepReady c) (·.put (clState_STATE 5) clRUNNING) = true := by decide +kernel

/-- R321, R322: a step with one row of curve 0 binds: the clusters hold the step. -/
theorem test_bind_step : shows (exec (.bindStep 2) (given mBOUND (bindStep 0x1000 0 1 0))) (fun t => (t.rd (clJstep 0), t.rd (clJstep 127), t.stepTable)) =
    some (7, 7, some (0x1000, 1)) := by decide +kernel

/-- A BIND_STEP that waits on queue 2. -/
def stepWaits (st : Nat) : State := inProgress st (cmdOf (bindStep 0 0 0 0)) 0x13 .bindWait

theorem test_wit_step_waits : (stepWaits mREADY).runAt 2 = some ⟨2, 0x13, .bindWait⟩ ∧ (stepWaits mREADY).queue 2 = [cmdOf (bindStep 0 0 0 0)]
    ∧ (stepWaits mREADY).schTakes = true ∧ (stepWaits mREADY).orphanStop = false ∧ (stepWaits mREADY).mstate ≤ mREADY
    ∧ (stepWaits mFENCED).mstate = mFENCED
    ∧ (stepWaits mBOUND).stepReady (cmdOf (bindStep 0 0 0 0)) = true ∧ ((stepWaits mBOUND).runs.find? (·.op == 0x13)).map (·.q) = some 2
    ∧ ((stepWaits mBOUND).put sysState_FPEND 1).stepReady (cmdOf (bindStep 0 0 0 0)) = false := by decide +kernel

/-- The words of a SET_POLICY. -/
def policy (w1 : Nat) (token : Nat := 0x1000) : List Nat := [0x12, w1, 0, 0, 0, token]

theorem test_wit_policy : passes mREADY (policy 1) (fun u c => (c.word 1).getLsbD 0 && !u.detFree) (·.put (clState_STATE 5) clRUNNING) = true
    ∧ passes mREADY (policy 1) (fun u c => (c.word 1).getLsbD 0 && u.detFree && !(c.word 1).getLsbD 3) = true
    ∧ passes mREADY (policy 0) (fun _ c => !(c.word 1).getLsbD 0 && !(c.word 1).getLsbD 3) = true
    ∧ passes mREADY (policy 8) (fun u c => (c.word 1).getLsbD 3 && !u.secServes) (·.put secStatus_ERROR 1) = true
    ∧ passes mREADY (policy 8) (fun u c => u.secServes && (u.cmdRead 0x120 (c.addr 5) 256).2.1 != eOK) id 0 = true
    ∧ passes mREADY (policy 8) (fun u c => let r := u.cmdRead 0x120 (c.addr 5) 256
        u.secServes && r.2.1 == eOK && !(r.1.checkToken r.2.2 1 (bitsOf (c.word 4) 0 8)).1) = true := by decide +kernel

/-- R427: without a token the expert bits are refused. -/
theorem test_policy_refused : shows (exec (.setPolicy 2) (given mREADY (policy 8))) (fun t => (t.get sysExpertEn_EN, t.get secCntAuth_COUNT)) =
    some (0, 1) := by decide +kernel

theorem test_wit_read_log : passes mREADY [0x14, 0, 0x1000] (fun u c => (u.cmdWrite 0x122 (c.addr 2) (List.replicate 64 0)).2 == eOK) = true
    ∧ passes mREADY [0x14, 0, 0x1000] (fun u c => (u.cmdWrite 0x122 (c.addr 2) (List.replicate 64 0)).2 != eOK) id 0 = true
    ∧ passes mREADY [0x14, 1, 0x1000, 0, 2 ^ 43 + 1] (fun _ c => decide (2 ^ 43 < (c.word 4).toNat)) = true
    ∧ passes mREADY [0x14, 1, 0x1000, 524287, 1] (fun u c => let r := u.cmdRead 0x122 (u.get logBase_BASE * 2 ^ 24 + 524287 * 32) 32
        r.2.1 == eOK && (r.1.cmdWrite 0x122 (c.addr 2) r.2.2).2 == eOK) = true
    ∧ passes mREADY [0x14, 1, 0x20000000000, 524287, 1] (fun u c => let r := u.cmdRead 0x122 (u.get logBase_BASE * 2 ^ 24 + 524287 * 32) 32
        r.2.1 == eOK && (r.1.cmdWrite 0x122 (c.addr 2) r.2.2).2 != eOK) = true
    ∧ passes mREADY [0x14, 1, 0x1000, 0, 1] (fun u _ => (u.cmdRead 0x122 (u.get logBase_BASE * 2 ^ 24) 32).2.1 != eOK) id 0 = true
    ∧ passes mREADY [0x11, 500] = true ∧ passes mREADY [0x17] = true := by decide +kernel

/-- `served` at count `n` with a heartbeat time-out of 0.1 s. -/
def beating (n : Nat) : State := atTime (served.put sysPolicy_HB_TMO 1) n

theorem test_wit_heartbeat : (mREADY ≤ (beating 100000000).mstate ∧ (beating 100000000).procRuns .sch = true ∧ (beating 100000000).get sysPolicy_HB_TMO ≠ 0
      ∧ (beating 100000000).hbAt.toNat + (beating 100000000).get sysPolicy_HB_TMO * 100000000 ≤ (beating 100000000).now
      ∧ (beating 100000000).flag sysState_ORPH = false)
    ∧ ¬ ((beating 99999999).hbAt.toNat + (beating 99999999).get sysPolicy_HB_TMO * 100000000 ≤ (beating 99999999).now) := by decide +kernel

/-- R405: the time-out sets ORPH. -/
theorem test_heartbeat : shows (exec .heartbeatTimeout (beating 100000000)) (·.get sysState_ORPH) = some 1
    ∧ shows (exec .heartbeatTimeout (beating 99999999)) (·.get sysState_ORPH) = some 0 := by decide +kernel

/-! ## What SEC serves -/

/-- `s` whose identity key is dead. -/
def keyless (s : State) : State := s.modSec fun x => { x with idkDead := true }

/-- An ATTEST of kind `k` whose request is at 0x1000. -/
def attest (k : Nat) : List Nat := [0x15, k, 0x1000]

/-- Where ATTEST can be served, what its request reads as. -/
def attests (k : Nat) (f : State → State × Nat × List Byte → Bool) (change : State → State := id) (hbm : Nat := 1) : Bool :=
  passes mBOUND (attest k) (fun u c => u.secServes && !u.sec.idkDead && f u (u.cmdRead (if k = 0 then 0x122 else 0x120) (c.addr 2) (if k = 0 then 256 else 128)))
    change hbm

/-- A point of the curve (the base point of P-384), as 96 bytes. -/
def basePoint : List Byte := bytesBE 48 g384.1 ++ bytesBE 48 g384.2

theorem test_wit_attest : (∀ k, k < 4 → passes mBOUND (attest k) (fun u _ => u.sec.idkDead) keyless = true
      ∧ passes mBOUND (attest k) (fun u _ => !u.secServes) (·.put secStatus_ERROR 1) = true
      ∧ attests k (fun _ r => r.2.1 == eOK) = true ∧ attests k (fun _ r => r.2.1 != eOK) id 0 = true)
    ∧ attests 0 (fun _ r => r.2.1 == eOK && provOk r.2.2) = true
    ∧ attests 0 (fun _ r => r.2.1 == eOK && !provOk r.2.2) (holdsAt (0x1000 + 24) [9]) = true := by decide +kernel

/-- An answer at an address that is not aligned does not fit; whether it fits elsewhere depends on its length, which is a free value where
the encoding is not the spec's. -/
theorem test_wit_attest_out : (∀ k, k = 1 ∨ k = 2 → attests k (fun _ r => r.2.1 == eOK && tokField r.2.2 0 8 % 64 != 0) (holdsAt 0x1000 [1]) = true)
    ∧ attests 1 (fun _ r => r.2.1 == eOK && tokField r.2.2 0 8 % 64 == 0) = true := by
  refine ⟨fun k h => ?_, by decide +kernel⟩
  rcases h with rfl | rfl <;> decide +kernel

/-- What the clauses of OWNER_ENROL ask of the key in its request. -/
def enrols (f : State → Bool) (key : List Byte) (change : State → State := id) : Bool :=
  attests 3 (fun u r => let k := (r.2.2.drop 16).take 96
    r.2.1 == eOK && (ecValid (beField k 0 48) (beField k 48 48) == !key.isEmpty) && f u) (fun s => change (holdsAt 0x1010 key s))

theorem test_wit_enrol : enrols (fun _ => true) [] = true
    ∧ enrols (fun u => u.sec.ownerHash != 0) basePoint (·.modSec fun x => { x with ownerHash := 1 }) = true
    ∧ enrols (fun u => u.sec.ownerHash == 0 && u.flag sysState_EMERG) basePoint (·.put sysState_EMERG 1) = true
    ∧ enrols (fun u => u.sec.ownerHash == 0 && !u.flag sysState_EMERG && u.fusesFree) basePoint = true
    ∧ enrols (fun u => u.sec.ownerHash == 0 && !u.flag sysState_EMERG && !u.fusesFree) basePoint
      (fun s => { s with img := some ⟨1, 1, 0, 4096, 0, 0x122, false⟩ }) = true := by decide +kernel

theorem test_wit_zeroise : passes mREADY [0x16, 0] (fun u _ => u.procRuns .sec) = true
    ∧ passes mREADY [0x16, 0] (fun u _ => !u.procRuns .sec) (·.setProc .sec ⟨.restarting, []⟩) = true
    ∧ passes mREADY [0x16, 1, 0x1000] (fun u _ => !u.secServes) (·.put secStatus_ERROR 1) = true
    ∧ passes mREADY [0x16, 1, 0x1000] (fun u _ => u.secServes && u.flag sysState_EMERG) (·.put sysState_EMERG 1) = true
    ∧ passes mREADY [0x16, 1, 0x1000] (fun u c => u.secServes && !u.flag sysState_EMERG && (u.cmdRead 0x120 (c.addr 2) 256).2.1 != eOK) id 0 = true
    ∧ passes mREADY [0x16, 1, 0x1000] (fun u c => let z := u.cmdRead 0x120 (c.addr 2) 256
        u.secServes && !u.flag sysState_EMERG && z.2.1 == eOK && !(z.1.checkToken z.2.2 2 0).1) = true := by decide +kernel

theorem test_wit_firmware : passes mREADY [0x10, 1] (fun u _ => !u.secServes) (·.put secStatus_ERROR 1) = true
    ∧ passes mREADY [0x10, 1] (fun u c => u.secServes && !(u.flag sysState_EMERG && u.imgRunning) && (u.fwVerified c).isNone) = true
    ∧ (let s : State := { served with defers := [(1, 2, cmdOf [0x10, 1])] }
      s.defers.find 1 = some (2, cmdOf [0x10, 1]) ∧ s.secServes = true ∧ s.flag sysState_EMERG = false ∧ s.imgRunning = false ∧ s.schTakes = true
        ∧ (atTime s 999999999).now < s.emergClearAt.toNat + 1000000000 ∧ ¬ ((atTime s 1000000000).now < s.emergClearAt.toNat + 1000000000)
        ∧ s.fwVerified (cmdOf [0x10, 1]) = none ∧ (s.put secStatus_ERROR 1).secServes = false)
    ∧ ((inProgress mBOUND (cmdOf [0x15]) 0x15 (.provenance [])).runs.findSome? fun r => match r.kind with
      | .provenance b => some (r.q, b)
      | _ => none) = some (2, [])
    ∧ served.accHeld 0x130 = false ∧ (served.put accCtrl_HOLD 1).accHeld 0x130 = true := by decide +kernel

/-! ## Processors, and SEC by itself -/

/-- `served` whose CCC 5 has restarted at the given counts, at count `n`. -/
def restarted (l : List Nat) (n : Nat) : State := atTime (served.setProc (.ccc 5) ⟨.running, l⟩) n

theorem test_wit_processors : served.procRuns (.ccc 0) = true ∧ State.reset.procRuns .pwr = false
    ∧ ((restarted [1, 0] 60000000000).proc (.ccc 5)).restarts = [1, 0]
    ∧ ((served.setProc .pwr ⟨.restarting, []⟩).proc .pwr).st = .restarting ∧ (served.proc .pwr).st ≠ .restarting
    ∧ Canon served ∧ served.mstate ≠ mOFF := by
  refine ⟨by decide +kernel, by decide +kernel, by decide +kernel, by decide +kernel, by decide +kernel, canon_of_ok (by decide +kernel), by decide +kernel⟩

/-- R386: an expiry 60 s ago no longer counts: this one is the second within 60 s, and the processor restarts. -/
theorem test_watchdog : shows (exec (.watchdogExpiry (.ccc 5)) (restarted [1, 0] 60000000000)) (fun t => (t.proc (.ccc 5)).st) = some .restarting := by
  decide +kernel

theorem test_load_window : shows (exec (.fwLoadWindow 0 86 0 0 0) served) (·.get sysFwLoad_STRETCH) = some 1
    ∧ shows (exec (.fwLoadWindow 0 85 0 0 0) (served.put sysFwLoad_STRETCH 1)) (·.get sysFwLoad_STRETCH) = some 1
    ∧ shows (exec (.fwLoadWindow 0 59 0 0 0) (served.put sysFwLoad_STRETCH 1)) (·.get sysFwLoad_STRETCH) = some 0 := by decide +kernel

/-- `served` with a challenge drawn at count 0, at count `n`. -/
def challenged (n : Nat) : State := atTime (served.put secChalGen_VALID 1) n

theorem test_wit_sec_events : ((challenged 60000000000).flag secChalGen_VALID = true
      ∧ (challenged 60000000000).sec.challengeAt + 60000000000 ≤ (challenged 60000000000).now)
    ∧ ¬ ((challenged 59999999999).sec.challengeAt + 60000000000 ≤ (challenged 59999999999).now)
    ∧ (served.modSec fun x => { x with drbgReqs := 65536 }).sec.drbgReqs = 65536 ∧ (atTime served 10000000000).sec.drbgAt + 10000000000 ≤ 10000000000
    ∧ ¬ (65536 ≤ served.sec.drbgReqs ∨ served.sec.drbgAt + 10000000000 ≤ served.now)
    ∧ served.secServes = true ∧ (served.put secStatus_ERROR 1).secServes = false ∧ served.fusesFree = true
    ∧ (erasing false).fusesFree = false ∧ served.sec.enrolPend = none
    ∧ ((served.modSec fun x => { x with enrolPend := some 1 }).sec.enrolPend = some 1
      ∧ served.runs.find? (fun r => r.kind == .enrolling) = none)
    ∧ ((inProgress mBOUND (cmdOf [0x15]) 0x15 .enrolling).modSec fun x => { x with enrolPend := some 1 }).runs.find? (fun r => r.kind == .enrolling) =
      some ⟨2, 0x15, .enrolling⟩
    ∧ served.svnTarget = 255 ∧ served.svn < 255 ∧ served.sec.svnStuck = false := by decide +kernel

/-- R425: a challenge lives 60 s. -/
theorem test_challenge_expires : shows (exec .challengeExpiry (challenged 60000000000)) (·.get secChalGen_VALID) = some 0
    ∧ shows (exec .challengeExpiry (challenged 59999999999)) (·.get secChalGen_VALID) = some 1 := by decide +kernel

/-! ## The management ports -/

/-- `served` with an I3C address. -/
def addressed : State := { served with mgmt := { served.mgmt with i3cAddr := some 8 } }

/-- An MCTP message on the fabric. -/
def mctpPkt : Pkt := mgmtPkt 4 0

theorem test_wit_management : addressed.mstate ≠ mOFF ∧ addressed.mgmt.i3cAddr.isSome = true
    ∧ State.msgReady addressed = true ∧ State.ctrlReady addressed = true ∧ State.spdmReady addressed = true
    ∧ (State.updateReady addressed .i3c = true ∧ State.updateReady addressed .fabric = true)
    ∧ takes (sent served 19 mctpPkt) 19 (fun p => p.typ == tMGMT && p.mtype == 4 && !p.toHost) (fun _ t => State.msgReady t && State.spdmReady t) = true
    ∧ takes (sent (served.setProc .sec ⟨.restarting, []⟩) 19 mctpPkt) 19 (fun p => p.typ == tMGMT && p.mtype == 4 && !p.toHost)
      (fun _ t => !State.spdmReady t) = true := by decide +kernel

theorem test_wit_spdm : SpdmCan false addressed ∧ ¬ SpdmCan true addressed ∧ SpdmCan true (addressed.modSec fun x => { x with akValid := true })
    ∧ (addressed.spdm .i3c).version = false ∧ (addressed.spdm .fabric).algs = false
    ∧ ((addressed.setSpdm .i3c { Spdm.reset with version := true }).spdm .i3c).version = true
    ∧ ((addressed.setSpdm .fabric { Spdm.reset with algs := true }).spdm .fabric).algs = true := by
  unfold SpdmCan
  decide +kernel

/-- R491: SETMWL holds at most 256. -/
theorem test_setmwl : shows (exec (.setmwl 300) addressed) (·.mgmt.mwl) = some 256 ∧ shows (exec (.setmwl 300) served) (·.mgmt.mwl) = some 256 := by
  decide +kernel

/-- `served` with the input in range, RST_N released or asserted. -/
def probed (rst : Bool) : State := served.modPwr fun p =>
  { p with
    inRange := true
    rstN := rst }

theorem test_wit_ports : (atTime served 50000000).mstate ≠ mOFF ∧ (atTime served 50000000).mgmt.i3cAddr = none ∧ 50000000 ≤ (atTime served 50000000).now
    ∧ ¬ (50000000 ≤ (atTime served 49999999).now) ∧ (probed true).power.inRange = true ∧ (probed true).power.rstN = true
    ∧ (probed false).power.rstN = false ∧ (probed true).secServes = true ∧ ((probed true).put secStatus_ERROR 1).secServes = false
    ∧ (((probed true).checkToken (bytesLE 256 0) 3 0).1 = false) ∧ (probed true).flag secDbg_SESSION = false
    ∧ ((probed true).put secDbg_SESSION 1).flag secDbg_SESSION = true ∧ (BitVec.ofNat 128 (2 ^ 48)).getLsbD 48 = true
    ∧ (0 : BitVec 128).getLsbD 48 = false := by decide +kernel

/-- R487: the IDCODE. -/
theorem test_idcode : shows (exec .jtagIdcode (probed true)) (fun t => t.mgmt.resp.map (·.body)) = some (some [0x93, 0x75, 0xA0, 0xB4]) := by
  decide +kernel

/-- R439: a token that is none closes nothing and is shown as malformed. -/
theorem test_bad_token : shows (exec (.jtagToken 0) (probed true)) (fun t => (t.get secDbg_SESSION, t.get secDbg_RESULT)) = some (0, 2) := by
  decide +kernel

/-- R490: each cause of MG_ALERT_N asserts it. -/
theorem test_mg_alert : served.mgAlert = false ∧ (served.put sysState_EMERG 1).mgAlert = true ∧ (served.put sysState_STATE mFENCED).mgAlert = true
    ∧ (served.put (lnkStatus_STATE 13) lkMISWIRED).mgAlert = true ∧ (served.put (lnkStatus_STATE 3) lkBISQUE).mgAlert = false
    ∧ ((served.put (lnkStatus_STATE 3) lkBISQUE).put (lnkStatus_INCOMPATIBLE 3) 1).mgAlert = true
    ∧ ((served.put sysState_STATE mBOOTING).put secBoot_RESULT 7).mgAlert = true := by decide +kernel

/-! ## Power, thermal control and low-power states -/

theorem test_wit_capping : served.loopsRun = true ∧ State.reset.loopsRun = false
    ∧ Tab.find (served.modPwr fun p => { p with volt := [(5, 1900)] }).power.volt 5 = some 1900 ∧ Tab.find served.power.volt 5 = none := by decide +kernel

/-- R449: the steps of f_cap at the edges of its bands, from 1,500 MHz under a cap of 1,000 W. -/
theorem test_capping : let s := (served.put pwrStatus_FCAP 1500).put pwrCap_CAP 1000
    (s.capWatts, [1051, 1050, 1001, 1000, 950, 949].map s.nextFcap) = (1000, [1300, 1400, 1400, 1500, 1500, 1550]) := by decide +kernel

/-- `served` at count `n` in limiter stage `k`, in which power has been over and under its limits since the given counts. -/
def limited (n k : Nat) (over_ under : Option Nat) (since : Nat := 0) : State :=
  atTime ((served.put pwrStatus_LIMSTAGE k).modPwr fun p =>
    { p with
      limOver := over_
      limUnder := under
      limAt := since }) n

theorem test_wit_limiter : served.mstate ≠ mOFF
    ∧ ((limited 10000 2 none (some 0)).get pwrStatus_LIMSTAGE = 2 ∧ 0 + 10000 ≤ (limited 10000 2 none (some 0)).now)
    ∧ ((limited 10000000 1 none none).power.limAt + 10000000 ≤ (limited 10000000 1 none none).now)
    ∧ ¬ ((limited 9999999 1 none none).power.limAt + 10000000 ≤ (limited 9999999 1 none none).now)
    ∧ (limited 0 0 none none).get pwrStatus_LIMSTAGE ≠ 2 := by decide +kernel

/-- R450: stage 1 is entered at once above 2,400 W, above 2,000 W after 10 ms, and stage 2 on the input current. -/
theorem test_limiter : shows (exec (.limiterSample 2401 0) (limited 0 0 none none)) (·.get pwrStatus_LIMSTAGE) = some 1
    ∧ shows (exec (.limiterSample 2400 0) (limited 0 0 none none)) (·.get pwrStatus_LIMSTAGE) = some 0
    ∧ shows (exec (.limiterSample 2001 0) (limited 10000000 0 (some 0) none)) (·.get pwrStatus_LIMSTAGE) = some 1
    ∧ shows (exec (.limiterSample 2001 0) (limited 9999999 0 (some 0) none)) (·.get pwrStatus_LIMSTAGE) = some 0
    ∧ shows (exec (.limiterSample 0 6251) (limited 0 0 none none)) (·.get pwrStatus_LIMSTAGE) = some 2
    ∧ shows (exec (.limiterSample 0 0) (limited 10000 1 none (some 0))) (·.get pwrStatus_LIMSTAGE) = some 0 := by decide +kernel

/-- `served` throttled. -/
def throttled (n : Nat) (at_ : List (Nat × Nat)) (on : Bool) : State :=
  atTime (served.modPwr fun p =>
    { p with
      thrAt := at_
      thrOn := on }) n

theorem test_wit_notices : (throttled 60000000000 [] true).power.thrAt = [] ∧ (throttled 60000000000 [] true).power.thrOn = true
    ∧ (throttled 60000000000 [] true).power.thrLast + served.noticeNs ≤ (throttled 60000000000 [] true).now
    ∧ (throttled 0 [] false).power.thrOn = false ∧ (throttled 0 [(1, 0)] true).power.thrAt ≠ []
    ∧ (∃ e ∈ (throttled 60000000000 [(1, 0)] false).power.thrAt, e.2 + served.noticeNs ≤ (throttled 60000000000 [(1, 0)] false).now)
    ∧ ¬ (∃ e ∈ (throttled 0 [(1, 0)] false).power.thrAt, e.2 + served.noticeNs ≤ (throttled 0 [(1, 0)] false).now) := by decide +kernel

theorem test_wit_sensors : (List.replicate 160 (300 : Nat)).length = 160 ∧ (List.replicate 159 (300 : Nat)).length ≠ 160
    ∧ ((State.reset).mstate = mOFF ∨ State.reset.mstate ≠ mOFF) ∧ served.mstate ≠ mOFF ∧ (served.put sysState_STATE mOFF).mstate = mOFF
    ∧ (served.modPwr fun p => { p with temps := List.replicate 160 300 }).power.temps ≠ [] ∧ (probed true).power.inRange = true
    ∧ (served.put pwrStatus_LIMSTAGE 2).get pwrStatus_LIMSTAGE = 2 ∧ served.get pwrStatus_LIMSTAGE ≠ 2 := by decide +kernel

/-- R454: the sample has 160 temperatures; fewer are no command of the block. -/
theorem test_sample_of_159 : (match exec (.sensorSample (List.replicate 159 300) 0 0 0) served with
    | .fault f => f == .illFormed
    | _ => false) = true := by decide +kernel

/-- R456: THERMTRIP removes the core rails. -/
theorem test_thermtrip : shows (exec (.thermtrip 7) (probed true)) (fun t => (t.power.trip, t.power.thermtripN, t.power.railsUp)) =
    some (true, false, false) := by decide +kernel

/-- `served` with a latency tolerance. -/
def tolerant (t : Nat) : State := served.put pwrTol_TOL t

theorem test_wit_low_power : ((tolerant 50).get (pwrCl_STATE 0) = 0 ∧ (tolerant 50).clSt 0 = clIDLE ∧ (0 : Nat) ∉ (tolerant 50).power.startWait
      ∧ (tolerant 50).allows 50 = true)
    ∧ (((tolerant 15000).put (pwrCl_STATE 0) 1).get (pwrCl_STATE 0) = 1 ∧ ((tolerant 15000).put (pwrCl_STATE 0) 1).allows 15000 = true)
    ∧ ((tolerant 50).put (clState_STATE 0) clPAUSED).clSt 0 = clPAUSED ∧ (tolerant 49).get pwrTol_TOL < 50
    ∧ ((tolerant 50).put (clState_STATE 0) clRUNNING).clSt 0 = clRUNNING
    ∧ (((tolerant 500).put (hbmStatus_STATE 3) 1).get (hbmStatus_STATE 3) = 1 ∧ (tolerant 500).allows 500 = true)
    ∧ (((tolerant 10000).put (hbmStatus_STATE 3) 2).get (hbmStatus_STATE 3) = 2 ∧ (tolerant 10000).allows 10000 = true)
    ∧ ((tolerant 500).get (hbmStatus_STATE 3) ≠ 1 ∧ (tolerant 500).get (hbmStatus_STATE 3) ≠ 2)
    ∧ (((tolerant 100).put (lnkStatus_STATE 3) lkGLOST).lnk 3 = lkGLOST ∧ (tolerant 100).allows 100 = true
      ∧ ((tolerant 100).outs.get OutPort.reset 3).sending = none)
    ∧ (served.rd pwrLsleepAt).toNat ≤ served.now ∧ served.now < ((served.wr pwrLsleepAt 1).rd pwrLsleepAt).toNat := by decide +kernel

/-- R444: an idle cluster is clock-gated where the tolerance allows it. -/
theorem test_idle_dwell : shows (exec (.unitIdleDwell (.cluster 0)) (tolerant 50)) (·.get (pwrCl_STATE 0)) = some 1
    ∧ shows (exec (.unitIdleDwell (.cluster 0)) (tolerant 49)) (·.get (pwrCl_STATE 0)) = some 0 := by decide +kernel

theorem test_wit_sleep_drain : (((served.modLink 3 fun l => { l with
      sleepDrain := true
      txNext := 1 }).link 3).sleepDrain = true) ∧ (served.modLink 3 fun l => { l with
      sleepDrain := true
      txNext := 2 }).unack 3 ≠ 0 ∧ (served.link 3).sleepDrain = false := by decide +kernel

/-! ## From the input to READY -/

/-- A module in OFF with its input in range, before or after PWR_OK. -/
def off (ok rst : Bool) : State := (State.reset.put sysState_STATE mOFF).modPwr fun p =>
  { p with
    inRange := true
    thermtripN := true
    pwrOk := ok
    rstN := rst
    cycle := false }

theorem test_wit_reset_and_input : (off false true).mstate = mOFF ∧ (off false true).power.inRange = true ∧ (off false true).power.thermtripN = true
    ∧ (off true false).power.rstN = false ∧ (off true true).power.rstN = true ∧ (off true true).power.pwrOk = true
    ∧ (off true true).power.cycle = false
    ∧ (State.reset.modPwr fun p => { p with inRange := false }).power.inRange = false := by decide +kernel

theorem test_wit_off_canon : Canon (off true true) ∧ Canon served := ⟨canon_of_ok (by decide +kernel), canon_of_ok (by decide +kernel)⟩

/-- R458, R488: with PWR_OK and RST_N released the module leaves OFF, and samples SLOT_ID. -/
theorem test_start_up : shows (exec (.rstNRelease 9) (off true false)) (fun t => (t.mstate, t.power.phase, t.power.slotId)) = some (mBOOTING, .ramp, 9)
    ∧ shows (exec .pwrOkAssert (off false false)) (fun t => (t.mstate, t.power.phase)) = some (mOFF, .waitReset) := by decide +kernel

/-- A module in BOOTING at a phase of its power-up. -/
def booting (ph : BootPhase) : State := (State.reset.put sysState_STATE mBOOTING).modPwr fun p => { p with phase := ph }

/-- An image header that passes its checks, of a part without a serial number. -/
def headed : State :=
  let h := bytesLE 4 0x4A455246 ++ [1, 0, 1, 0] ++ bytesLE 8 0 ++ bytesLE 4 (State.reset.get sysId_PART) ++ List.replicate 40 0
  { booting .secBoot with flash := writeBytes 0xFF [] 0 (h ++ bytesLE 4 (crc32c h).toNat) }

theorem test_wit_boot : (booting .ramp).power.phase = .ramp ∧ (booting .secBoot).power.phase = .secBoot ∧ (booting .secBoot).headerOk = false
    ∧ headed.headerOk = true ∧ headed.pickManifest.1 ≠ 0 ∧ headed.power.phase = .secBoot ∧ (booting .training).power.phase = .training
    ∧ ((booting .clearing).power.phase = .clearing ∧ (booting .clearing).power.tested = false) ∧ (booting .training).power.phase ≠ .ramp := by
  decide +kernel

/-- R436, R459: a self-test that fails fails the boot; an image without a header gives RESULT 7. -/
theorem test_boot_failures : shows (exec (.railsRamped 3) (booting .ramp)) (fun t => (t.get secBoot_RESULT, t.get secStatus_ETEST)) = some (1, 3)
    ∧ shows (exec .secBootDone (booting .secBoot)) (·.get secBoot_RESULT) = some 7 := by decide +kernel

/-- A module whose links were released at count 0, at count `n`, link 3 having seen light. -/
def released (n st : Nat) : State := atTime (((booting .links).put (lnkStatus_STATE 3) st).modLink 3 fun l => { l with lit := true }) n

theorem test_wit_ready : (released 0 lkBISQUE).power.phase = .links ∧ (released 0 lkBISQUE).mstate = mBOOTING
    ∧ (∀ i, i < 12 → ((released 0 lkBISQUE).link i).lit = true → lkBISQUE ≤ (released 0 lkBISQUE).lnk i ∧ (released 0 lkBISQUE).lnk i ≤ lkMISWIRED)
    ∧ (released 1000000000 lkWEDGE).power.linksAt + 1000000000 ≤ (released 1000000000 lkWEDGE).now
    ∧ ¬ ((released 999999999 lkWEDGE).power.linksAt + 1000000000 ≤ (released 999999999 lkWEDGE).now)
    ∧ ((released 999999999 lkWEDGE).link 3).lit = true ∧ ¬ (lkBISQUE ≤ (released 999999999 lkWEDGE).lnk 3) := by decide +kernel

theorem test_wit_ready_canon : Canon (released 0 lkBISQUE) := canon_of_ok (by decide +kernel)

/-- R460, R423: READY as soon as the link that saw light is in BISQUE; under EMERGENCY the SVN counter waits. -/
theorem test_ready : shows (exec .readyEntry ((released 0 lkBISQUE).put sysState_EMERG 1)) (fun t => (t.mstate, t.sec.svnPend)) = some (mREADY, true) := by decide +kernel

theorem test_ready_waits : shows (exec .readyEntry (released 0 lkWEDGE)) (·.mstate) = some mBOOTING := by decide +kernel

/-- R460: or 1 s after the links were released. -/
theorem test_ready_after : shows (exec .readyEntry ((released 1000000000 lkWEDGE).put sysState_EMERG 1)) (·.mstate) = some mREADY := by decide +kernel

/-! ## Single rules -/

theorem test_wit_placement : 0x7FFFFFFFFF < 0x8000000000 ∧ hbmPlace 5 0x7FFFFFFFFF = (5, 49, 0x3FFFFFFF)
    ∧ hbmUnplace 5 (hbmPlace 5 0x7FFFFFFFFF).1 (hbmPlace 5 0x7FFFFFFFFF).2.1 (hbmPlace 5 0x7FFFFFFFFF).2.2 = 0x7FFFFFFFFF := by decide +kernel

theorem test_wit_nan_codes : isNanCode 1 0x7FA00000 = true ∧ decodeNum 1 0x7FA00000 = .nan true ∧ (ExNum.nan true).isSnan = true
    ∧ (3 : Nat) < 2 ^ fmtBits 8 := by decide +kernel

theorem test_wit_duplicates : (let s := atTime { meshed with mgmtSeen := [⟨512, 0, 0, 0, none⟩] } 51000000
      ∃ e ∈ s.mgmtSeen, s.now ≤ e.since + s.ageLimit + 1000000 ∧ e.src = (mgmtPkt 1 0).src.toNat ∧ e.tag = (mgmtPkt 1 0).coll ∧ e.pseq = (mgmtPkt 1 0).chunk)
    ∧ (let s := atTime { meshed with mgmtSeen := [⟨512, 0, 0, 0, none⟩] } 51000001
      ∀ e ∈ s.mgmtSeen, ¬ (s.now ≤ e.since + s.ageLimit + 1000000)) := by decide +kernel

/-- R346: an entry that closes while DIG.CTRL.EN is 0 writes no record; with EN = 1 it does. -/
theorem test_digest_off :
    (({ served with layers := [⟨1, 0, 1, 2, 3, 0, 4⟩] }.closeBelow 2).layers, ({ served with layers := [⟨1, 0, 1, 2, 3, 0, 4⟩] }.closeBelow 2).get digRingHead_HEAD,
      ({ served.put digCtrl_EN 1 with layers := [⟨1, 0, 1, 2, 3, 0, 4⟩] }.closeBelow 2).get digRingHead_HEAD) = ([], 0, 1) := by decide +kernel

/-- R335: in HOLDOVER the offset from a parent that is not LOCKED leaves the count and its slew. -/
theorem test_holdover_held :
    ((served.put coneStatus_STATE coHOLDOVER).coneDrive 256 false).coneSlew = 0
    ∧ ((served.put coneStatus_STATE coHOLDOVER).coneDrive 256 true).coneSlew = -256 := by decide +kernel
end Sys2Proof.Tests
end

section
/-!
SUPPORT. The state after reset: the reset values of the registers that more than one block instance holds, and what the tables of
a machine with nothing listed read as.
-/
namespace Sys2Proof.Machine

/-! ## Reset values of the register map -/

/-- The row of a register, found from its block index and its offset within the block (R34). -/
theorem keyDesc_of_blkOf {k n : Nat} {bk : Blk} (hb : blkOf (k / 0x100000) = some (bk, n)) :
    keyDesc k = regDesc bk (k % 0x100000) := by
  unfold keyDesc
  rw [hb]

/-- Outside the block of FAB, a register's value at reset is its row's Reset column. -/
theorem regReset_of_regDesc {k b o n : Nat} {bk : Blk} {d : RegDesc} (hblk : k / 0x100000 = b) (hoff : k % 0x100000 = o)
    (hb : blkOf b = some (bk, n)) (hfab : b ≠ 5) (hd : regDesc bk o = some d) : regReset k = BitVec.ofNat 64 d.rst := by
  subst hblk hoff
  have hallow : ¬ (decide (0x500040 ≤ k) && decide (k < 0x500080)) = true := by
    simp only [Bool.and_eq_true, decide_eq_true_eq]
    omega
  unfold regReset
  rw [if_neg hallow, keyDesc_of_blkOf hb, hd]

/-- The 128 blocks of kind CL (R35). -/
theorem blkOf_cl {n : Nat} (hn : n < 128) : blkOf (0x100 + n) = some (.cl, n) := by
  unfold blkOf
  rw [if_neg (by omega), if_neg (by simp; omega), if_neg (by simp; omega), if_pos (by simp; omega), Nat.add_sub_cancel_left]

/-- The 8 blocks of kind HBM (R35). -/
theorem blkOf_hbm {k : Nat} (hk : k < 8) : blkOf (0x20 + k) = some (.hbm, k) := by
  unfold blkOf
  rw [if_neg (by omega), if_neg (by simp; omega), if_pos (by simp; omega), Nat.add_sub_cancel_left]

/-- CL.STATE is zero at reset, in every cluster. -/
theorem regReset_clState {n : Nat} (hn : n < 128) : regReset (clState n) = 0 := by
  have hblk : clState n / 0x100000 = 0x100 + n := by unfold clState; omega
  have hoff : clState n % 0x100000 = 0x10 := by unfold clState; omega
  have hrow : regDesc .cl 0x10 = some ⟨0x10, 0, 1, 0, 0, 0, 0, 0, 0, 0⟩ := by decide
  exact regReset_of_regDesc hblk hoff (blkOf_cl hn) (by omega) hrow

/-- HBM.STATUS is zero at reset, in every stack. -/
theorem regReset_hbmStatus {k : Nat} (hk : k < 8) : regReset (hbmStatus k) = 0 := by
  have hblk : hbmStatus k / 0x100000 = 0x20 + k := by unfold hbmStatus; omega
  have hoff : hbmStatus k % 0x100000 = 0 := by unfold hbmStatus; omega
  have hrow : regDesc .hbm 0 = some ⟨0, 0, 1, 0, 0, 0, 0, 0, 0, 0⟩ := by decide
  exact regReset_of_regDesc hblk hoff (blkOf_hbm hk) (by omega) hrow

/-- SYS.STATE at reset: BOOTING in bits [63:60], every flag clear. -/
theorem regReset_sysState : regReset sysState = 0x1000000000000000 := by decide

/-! ## The machine with nothing listed -/

@[simp] theorem bitsOf_zero (lo wid : Nat) : bitsOf 0 lo wid = 0 := by simp [bitsOf]

/-- A field at reset is that field of its register's reset value. -/
@[simp] theorem State.get_reset (f : Field) : State.reset.get f = bitsOf (regReset f.key) f.lo f.wid := rfl

@[simp] theorem State.cl_reset (n : Nat) : State.reset.cl n = Cluster.reset := rfl

theorem State.clSt_reset {n : Nat} (hn : n < 128) : State.reset.clSt n = clIDLE := by
  have h : (clState_STATE n).key = clState n := rfl
  rw [State.clSt, State.get_reset, h, regReset_clState hn, bitsOf_zero, clIDLE]

theorem State.mstate_reset : State.reset.mstate = mBOOTING := by
  have h : sysState_STATE.key = sysState := rfl
  rw [State.mstate, State.get_reset, h, regReset_sysState]
  rfl

theorem State.hbmStatus_reset {k : Nat} (hk : k < 8) : State.reset.get (hbmStatus_STATE k) = 0 := by
  have h : (hbmStatus_STATE k).key = hbmStatus k := rfl
  rw [State.get_reset, h, regReset_hbmStatus hk, bitsOf_zero]

end Sys2Proof.Machine

namespace Sys2Proof.Claims

open Sys2Proof.Machine

theorem clusterCanon_reset : ClusterCanon Cluster.reset :=
  ⟨Tab.wf_nil, Tab.wf_nil, Tab.wf_nil, Tab.wf_nil, Tab.wf_nil, Tab.wf_nil⟩

theorem canon_reset : Canon State.reset where
  regs := Tab.wf_nil
  cluster n := State.cl_reset n ▸ clusterCanon_reset
  clusters := Tab.wf_nil
  mem := Tab.wf_nil
  memErr := Tab.wf_nil
  poolMem := Tab.wf_nil
  flash := Tab.wf_nil

/-- Settles O3: every table of the reset state is empty, so each read gives the reset value or the default of its table; the states of
the clusters, of the module and of the HBM stacks are fields of the Reset column (R10, R389, R461). -/
theorem resetCanon : Obligations.ResetCanon := by
  unfold Obligations.ResetCanon
  have hmod : State.reset.mstate < mREADY := by rw [State.mstate_reset]; decide
  exact ⟨canon_reset, rfl, State.rd_reset, fun _ => State.clSt_reset, hmod, Tab.get_nil 0, fun _ => State.hbmStatus_reset⟩

end Sys2Proof.Claims
end

section
/-!
SUPPORT. What an operand leaves in the context memory (R159): a table's entries after an insertion, the entry that a fold and a
finalisation write, and that no other entry changes.
-/
namespace Sys2Proof.Machine

/-! ## Entries of a table -/

@[simp] theorem Tab.find_insert_same {α : Type} (t : Tab α) (k : Nat) (v : α) : (t.insert k v).find k = some v := by
  induction t with
  | nil => simp [Tab.insert, Tab.find]
  | cons e t ih =>
    obtain ⟨j, w⟩ := e
    unfold Tab.insert
    split
    · simp [Tab.find]
    split
    · simp [Tab.find]
    · next hk hl => simpa only [Tab.find, if_neg hk, if_neg hl] using ih

theorem Tab.find_insert_other {α : Type} (t : Tab α) {k j : Nat} (hj : j ≠ k) (v : α) : (t.insert k v).find j = t.find j := by
  induction t with
  | nil => simp [Tab.insert, Tab.find, hj]
  | cons e t ih =>
    obtain ⟨i, w⟩ := e
    unfold Tab.insert
    split
    · next hk => subst hk; simp only [Tab.find, if_neg hj]
    split
    · next hk hl =>
      by_cases hlt : j < k
      · simp [Tab.find, hj, hlt, show j ≠ i by omega, show j < i by omega]
      · simp only [Tab.find, if_neg hj, if_neg hlt]
    · simp only [Tab.find, ih]

/-! ## Entries of the context memory (R154) -/

variable {s t : State} {i : Nat}

theorem State.accAt_eq_some {c : Ctx} : s.accAt i = some c ↔ s.ctx.find i = some (.acc c) := by
  unfold State.accAt
  split
  · next h => simp [h]
  · next h => simpa using h c

/-- The context memory of `t` is that of `s`, but that entry `i` is the accumulating context `e`. -/
def State.SetsCtx (s : State) (i : Nat) (e : Ctx) (t : State) : Prop :=
  t.accAt i = some e ∧ ∀ k, k ≠ i → t.ctx.find k = s.ctx.find k

theorem State.SetsCtx.trans {u : State} {c e : Ctx} (h : s.SetsCtx i c t) (h' : t.SetsCtx i e u) : s.SetsCtx i e u :=
  ⟨h'.1, fun k hk => (h'.2 k hk).trans (h.2 k hk)⟩

theorem State.SetsCtx.of_ctx_eq {c : Ctx} (h : s.accAt i = some c) (ht : t.ctx = s.ctx) : s.SetsCtx i c t :=
  ⟨State.accAt_eq_some.mpr (ht ▸ State.accAt_eq_some.mp h), fun _ _ => by rw [ht]⟩

theorem State.setsCtx_setAcc (s : State) (i : Nat) (c : Ctx) : s.SetsCtx i c (s.setAcc i c) :=
  ⟨State.accAt_eq_some.mpr (Tab.find_insert_same _ _ _), fun _ hk => Tab.find_insert_other _ hk _⟩

@[simp] theorem State.putAcc_ctx (s : State) (c : Ctx) (b : List Byte) : (s.putAcc c b).ctx = s.ctx := rfl

@[simp] theorem State.modPlan_ctx (s : State) (cl p : Nat) (f : PlanAcct → PlanAcct) : (s.modPlan cl p f).ctx = s.ctx := by
  unfold State.modPlan
  split <;> rfl

/-! ## Folding and finalising (R159) -/

/-- A fold writes the length and the saturation flag of its entry. -/
theorem State.foldInto_setsCtx {c : Ctx} (h : s.accAt i = some c) (first : Bool) (data : List Byte) :
    ∃ n b, s.SetsCtx i { c with len := n, sat := b } (s.foldInto i first data) := by
  have hput : ∀ b, s.SetsCtx i c (s.putAcc c b) := fun b => .of_ctx_eq h (State.putAcc_ctx s c b)
  simp only [State.foldInto, h]
  cases first with
  | true => exact ⟨data.length, c.sat, (hput data).trans (State.setsCtx_setAcc _ i _)⟩
  | false =>
    generalize foldBytes (ckP1 c.chunk) c.op c.word (s.accData c) data = r
    have hset := (hput r.1).trans (State.setsCtx_setAcc _ i { c with sat := c.sat || r.2 != 0 })
    exact ⟨c.len, _, hset.trans (.of_ctx_eq hset.1 (State.bump_ctx _ _ _))⟩

/-- An OPEN context without a companion becomes FINAL once its collective is issued here and its masks agree; the count of its late member
and the NDET counters are no part of the context memory. -/
theorem State.finalise_setsCtx {d : Ctx} (a : PlanAcct) (h : s.accAt i = some d) (hst : d.st = .opened) (hlink : d.link = none)
    (hissued : d.issued = true) (hmask : d.rmask = d.emask) : s.SetsCtx i { d with st := .final } (s.finalise i a) := by
  have hfinal := State.setsCtx_setAcc s i { d with st := .final }
  refine hfinal.trans (.of_ctx_eq hfinal.1 ?_)
  simp only [State.finalise, h, hst, hlink, hissued, hmask, decide_true, Bool.and_self, if_true]
  split <;> split <;> simp

theorem State.finalise_incomplete {d : Ctx} (a : PlanAcct) (h : s.accAt i = some d) (hopen : ¬ (d.issued = true ∧ d.rmask = d.emask)) :
    s.finalise i a = s := by
  simp only [State.finalise, h]
  rw [if_neg]
  simp only [Bool.and_eq_true, decide_eq_true_eq]
  exact fun ⟨⟨_, hissued⟩, hmask⟩ => hopen ⟨hissued, hmask⟩

/-! ## An operand at an OPEN context (R159) -/

variable {c : Ctx} {a : PlanAcct} {mask late : Nat} {data : List Byte}

/-- An operand that shares bits with the context is counted and changes nothing else. -/
theorem State.operand_duplicate (h : s.accAt i = some c) (hst : c.st = .opened) (hparked : c.parked = [])
    (hmask : mask &&& c.rmask ≠ 0) : s.operand i a mask late data =
      s.bump (if mask &&& c.rmask = mask then klnCntDup_COUNT else klnCntOverlap_COUNT) := by
  simp only [State.operand, h, if_neg (not_not_intro hst), hparked, List.foldl_nil, if_pos hmask]
  split <;> rfl

/-- The entry `c` as an operand that it takes in order of arrival marks it before the fold: its time, its late member, the lag, the number
of operands and whether the sum depends on their order (R159, R164, R180). -/
def Ctx.mark (c : Ctx) (now late : Nat) : Ctx :=
  { c with
    prevt := now
    last := late
    lag := min (if c.nops = 0 then 0 else now - c.prevt) (2 ^ 30 - 1)
    nops := min (c.nops + 1) 31
    ndet := c.ndet || (3 ≤ c.nops + 1 && c.word = 1 && (c.op = 0 || c.op = 5) && ckP1 c.chunk = 0) }

/-- The state in which an operand has been folded into entry `i`, whose mask does not show it yet. -/
def State.folded (s : State) (i : Nat) (c : Ctx) (late : Nat) (data : List Byte) : State :=
  (s.setAcc i (c.mark s.now late)).foldInto i (c.rmask = 0) data

/-- An operand whose bits are all new is folded, its mask is added, and the context is finalised where it can be. -/
theorem State.operand_accepted {d : Ctx} (h : s.accAt i = some c) (hst : c.st = .opened) (hfix : c.fix = false) (hparked : c.parked = [])
    (hmask : mask &&& c.rmask = 0) (hd : (s.folded i c late data).accAt i = some d) :
    s.operand i a mask late data = ((s.folded i c late data).setAcc i { d with rmask := d.rmask ||| mask }).finalise i a := by
  have hnew : ¬ (mask &&& c.parked.foldl (fun m x => m ||| x.1) c.rmask ≠ 0) := by simp [hparked, hmask]
  have harrival : ¬ (c.fix = true) := by simp [hfix]
  unfold State.folded Ctx.mark at hd
  simp only [State.operand, h, if_neg (not_not_intro hst), if_neg hnew, if_neg harrival, hd]
  rfl

/-- What R159 has an OPEN context `c` hold once it has taken an operand, before it is finalised. -/
structure Ctx.Took (c : Ctx) (mask late now : Nat) (d : Ctx) : Prop where
  st : d.st = .opened
  link : d.link = c.link
  issued : d.issued = c.issued
  rmask : d.rmask = c.rmask ||| mask
  emask : d.emask = c.emask
  prevt : d.prevt = now
  last : d.last = late

/-- An operand whose bits are all new changes its own entry and no other before the context is finalised. -/
theorem State.operand_eq_finalise (a : PlanAcct) (late : Nat) (data : List Byte) (h : s.accAt i = some c) (hst : c.st = .opened)
    (hfix : c.fix = false) (hparked : c.parked = []) (hmask : mask &&& c.rmask = 0) :
    ∃ t d, s.operand i a mask late data = t.finalise i a ∧ s.SetsCtx i d t ∧ c.Took mask late s.now d := by
  have hmark := State.setsCtx_setAcc s i (c.mark s.now late)
  obtain ⟨n, b, hfold⟩ := State.foldInto_setsCtx hmark.1 (decide (c.rmask = 0)) data
  exact ⟨_, _, State.operand_accepted h hst hfix hparked hmask hfold.1, (hmark.trans hfold).trans (State.setsCtx_setAcc _ _ _),
    ⟨hst, rfl, rfl, rfl, rfl, rfl, rfl⟩⟩

end Sys2Proof.Machine
end

section
/-!
SUPPORT. The commands that take a packet of the reduction family from port 18: what each answers once the checks of R158 have found
the packet's plan and collective.
-/
namespace Sys2Proof.Machine

variable {s t : State} {d : Desc} {a : PlanAcct}

/-! ## Operands: RED and RED_PART (R158, R159) -/

theorem kilnOperandRow_taken {typ : BitVec 6} (part : Bool) (chk : KilnCheck) (h : s.takeHead 18 (fun p => p.typ == typ) = some (d, t)) :
    kilnOperandRow typ part chk s = done ((t.kilnOperand d.pkt part chk).release 0x131 d.cells) := by
  simp only [kilnOperandRow, h]

/-! ## Results: RED_RES and DONE with finality (R161, R162) -/

section
variable {c : Coll} (h : s.takeHead 18 (fun p => p.typ == tREDRES) = some (d, t)) (ha : t.kilnPlan d.pkt = some a)
  (hc : t.coll (ckCl d.pkt.chunk) d.pkt.coll = some c)
include h ha hc

theorem execRedRes_stale (hchunk : c.hasChunk a.plan d.pkt.chunk = false) :
    execRedRes s = done ((t.bump klnCntStale_COUNT).release 0x131 d.cells) := by
  simp [execRedRes, h, Pkt.pair, ha, hc, hchunk]

theorem execRedRes_agreed (hchunk : c.hasChunk a.plan d.pkt.chunk = true) (hp1 : ckP1 d.pkt.chunk = 1) :
    execRedRes s =
      done ((t.landed (ckCl d.pkt.chunk) (d.pkt.coll / 64) a c d.pkt.chunk none false d.pkt.payload).release 0x131 d.cells) := by
  simp [execRedRes, h, Pkt.pair, ha, hc, hchunk, hp1]

theorem execRedRes_waits (hchunk : c.hasChunk a.plan d.pkt.chunk = true) (hp1 : ckP1 d.pkt.chunk ≠ 1) :
    execRedRes s = done { t with
      landings := t.landings ++ [⟨d.pkt.coll, d.pkt.chunk, d.pkt.payload, none, d.cells, d.mid, false, []⟩] } := by
  simp [execRedRes, h, Pkt.pair, ha, hc, hchunk, hp1]

end

theorem execDoneFinality_landed {c : Coll} (h : s.takeHead 18 (fun p => p.typ == tDONE && !p.cred) = some (d, t))
    (ha : (t.release 0x131 d.cells).kilnPlan d.pkt = some a)
    (hc : (t.release 0x131 d.cells).coll (ckCl d.pkt.chunk) d.pkt.coll = some c) (hchunk : c.hasChunk a.plan d.pkt.chunk = true) :
    execDoneFinality s =
      done ((t.release 0x131 d.cells).landed (ckCl d.pkt.chunk) (d.pkt.coll / 64) a c d.pkt.chunk none true []) := by
  simp [execDoneFinality, h, Pkt.pair, ha, hc, hchunk]

/-! ## Credits (R173) -/

/-- By how much the RCUM of a credit is ahead of RET in a direction, modulo 2^32. -/
def PlanAcct.ahead (a : PlanAcct) (p : Pkt) (dr : Nat) : Nat :=
  (p.cmask + 2 ^ 32 - a.ret.get 0 (ckPh p.chunk * 4 + dr) % 2 ^ 32) % 2 ^ 32

section
variable {k dr : Nat} (h : s.takeHead 18 (fun p => p.typ == tDONE && p.cred) = some (d, t))
  (ha : (t.release 0x131 d.cells).plan (ckCl d.pkt.chunk) (d.pkt.coll / 64) = some a) (hph : ckPh d.pkt.chunk < a.plan.nph)
  (hk : (t.release 0x131 d.cells).memberOf (a.plan.ph (ckPh d.pkt.chunk)) d.pkt.src.toNat = some k)
  (hdr : creditDir a.plan.alg (a.plan.n (ckPh d.pkt.chunk)) (a.plan.ph (ckPh d.pkt.chunk)).idx k = some dr)
include h ha hph hk hdr

/-- A credit of a member that this module sends to is taken or dropped by its age and by what it is ahead. -/
theorem execDoneCredit_of_member : execDoneCredit s =
    if ageBefore d.pkt.age.toNat a.loadedAt || a.ahead d.pkt dr = 0 || 2 ^ 31 ≤ a.ahead d.pkt dr then
      done ((t.release 0x131 d.cells).bump klnCntStale_COUNT)
    else done ((t.release 0x131 d.cells).modPlan (ckCl d.pkt.chunk) (d.pkt.coll / 64) fun b => { b with
      ret := b.ret.modify 0 (ckPh d.pkt.chunk * 4 + dr) (· + a.ahead d.pkt dr) }) := by
  unfold Plan.n at hdr
  simp only [execDoneCredit, h, Pkt.pair, ha, hph, hk, hdr, if_true]
  rfl

theorem execDoneCredit_taken (hage : ageBefore d.pkt.age.toNat a.loadedAt = false) (hpos : 0 < a.ahead d.pkt dr)
    (hlt : a.ahead d.pkt dr < 2 ^ 31) : execDoneCredit s =
      done ((t.release 0x131 d.cells).modPlan (ckCl d.pkt.chunk) (d.pkt.coll / 64) fun b => { b with
        ret := b.ret.modify 0 (ckPh d.pkt.chunk * 4 + dr) (· + a.ahead d.pkt dr) }) := by
  rw [execDoneCredit_of_member h ha hph hk hdr, if_neg]
  simpa [hage, Nat.ne_of_gt hpos] using hlt

theorem execDoneCredit_dropped
    (hold : ageBefore d.pkt.age.toNat a.loadedAt = true ∨ a.ahead d.pkt dr = 0 ∨ 2 ^ 31 ≤ a.ahead d.pkt dr) :
    execDoneCredit s = done ((t.release 0x131 d.cells).bump klnCntStale_COUNT) := by
  rw [execDoneCredit_of_member h ha hph hk hdr, if_pos]
  simpa [or_assoc] using hold

end

/-! ## Repairs (R168, R169) -/

/-- The RED_RES that answers a REPAIR for a result with the bytes `b` of the HELD context `c`. -/
def heldAnswer (q : Pkt) (a : PlanAcct) (c : Ctx) (b : List Byte) : Pkt :=
  collPkt tREDRES q.src.toNat q.coll q.chunk (if ckP1 q.chunk = 1 then 14 else c.fmt) a.plan.op (2 ^ a.plan.n (ckPh q.chunk) - 1) 0x131 0 b

section
variable {u : State} (hu : t.release 0x131 d.cells = u) (ha : u.kilnPlan d.pkt = some a)
include hu ha

/-- A REPAIR for this member's contribution to phase 0 is answered with a RED through the fabric interface of its cluster. -/
theorem execRepairContribution_answered {b : List Byte} {c : Coll}
    (h : s.takeHead 18 (fun p => p.typ == tREPAIR && p.cmask != 0) = some (d, t))
    (hc : u.coll (ckCl d.pkt.chunk) d.pkt.coll = some c) (hph : ckPh d.pkt.chunk = 0) (hmask : d.pkt.cmask = 2 ^ (a.plan.ph 0).idx)
    (hb : u.heldContribution (ckCl d.pkt.chunk) (d.pkt.coll / 64) a d.pkt.coll d.pkt.chunk = some b) :
    execRepairContribution s = done (u.fiSend (ckCl d.pkt.chunk)
      (collPkt tRED d.pkt.src.toNat d.pkt.coll d.pkt.chunk (c.wordFmt a.plan (ckP1 d.pkt.chunk)) a.plan.op (2 ^ (a.plan.ph 0).idx)
        (fiFlow (ckCl d.pkt.chunk) (d.pkt.coll / 64)) ((a.plan.ph 0).idx * 2 ^ 11) b) (some d.pkt.age.toNat)) := by
  simp only [execRepairContribution, h, hu, Pkt.pair, ha, hph, if_pos hmask, hb, hc, if_true]

/-- A REPAIR for a result is answered from a HELD context that keeps it, under a reference to the context's cells. -/
theorem execRepairResult_held {i : Nat} {c : Ctx} (h : s.takeHead 18 (fun p => p.typ == tREPAIR && p.cmask == 0) = some (d, t))
    (hfind : u.findAcc d.pkt.coll d.pkt.chunk = some (i, c)) (hst : c.st = .held) (hres : c.hres = true) (hdata : u.accData c ≠ []) :
    execRepairResult s = done ((u.addRef (groupCells c.group)).1.kilnSend (heldAnswer d.pkt a c (u.accData c))
      (if (u.addRef (groupCells c.group)).2 then some c.group else none) (some d.pkt.age.toNat)) := by
  have hfull : (u.accData c).isEmpty = false := by simpa using hdata
  simp only [execRepairResult, h, hu, ha, hfind, hst, hres, hfull, decide_true, Bool.and_self, if_true, Bool.false_eq_true, if_false]
  rfl

end

end Sys2Proof.Machine

namespace Sys2Proof.Claims

open Sys2Proof.Machine

/-- Settles O22, packet by packet: each command's row once the packet is taken and its plan and collective are found. -/
theorem kilnPackets : Obligations.KilnPackets := by
  unfold Obligations.KilnPackets
  intro s t d
  refine ⟨fun chk => ⟨kilnOperandRow_taken false chk, kilnOperandRow_taken true chk⟩, ?results, ?finality, ?credit, ?contribution, ?result⟩
  case results =>
    intro h a c ha hc
    exact ⟨execRedRes_stale h ha hc, execRedRes_agreed h ha hc, execRedRes_waits h ha hc⟩
  case finality =>
    intro h u a c ha hc
    exact execDoneFinality_landed h ha hc
  case credit =>
    intro h u a k dr ha hph hk hdr
    exact ⟨execDoneCredit_taken h ha hph hk hdr, execDoneCredit_dropped h ha hph hk hdr⟩
  case contribution =>
    intro h u a b c ha hc hph k hmask hb
    exact execRepairContribution_answered rfl ha h hc hph hmask hb
  case result =>
    intro h u a i c ha hfind hst hres hdata
    exact execRepairResult_held rfl ha h hfind hst hres hdata

/-- Settles O23: an operand with new bits leaves one entry changed, and finalising that entry makes it FINAL or leaves it OPEN as its
masks say. -/
theorem kilnOperandMasks : Obligations.KilnOperandMasks := by
  unfold Obligations.KilnOperandMasks
  intro s i mask late a c data hacc hst hfix hparked hlink
  refine ⟨State.operand_duplicate hacc hst hparked, fun hmask => ?_⟩
  obtain ⟨t, d, heq, hsets, htook⟩ := State.operand_eq_finalise a late data hacc hst hfix hparked hmask
  rw [heq, ← htook.rmask, ← htook.emask, ← htook.issued]
  by_cases hcomplete : d.issued = true ∧ d.rmask = d.emask
  · have hfinal := State.finalise_setsCtx a hsets.1 htook.st (htook.link.trans hlink) hcomplete.1 hcomplete.2
    obtain ⟨hentry, hrest⟩ := hsets.trans hfinal
    exact ⟨_, hentry, rfl, rfl, htook.prevt, htook.last, iff_of_true rfl hcomplete, .inl rfl, hrest⟩
  · rw [State.finalise_incomplete a hsets.1 hcomplete]
    exact ⟨d, hsets.1, rfl, rfl, htook.prevt, htook.last, iff_of_false (by simp [htook.st]) hcomplete, .inr htook.st, hsets.2⟩

end Sys2Proof.Claims
end

section
/-!
SUPPORT. How packets enter and leave the router (R228, R230, R239-R246, R283, R292), and its periods (R239, R242, R267, R270): what each
command of the router answers, case by case.
-/
namespace Sys2Proof.Machine

variable {s u : State}

/-! ## Arrival at a port (R228, R266, R279, R283) -/

/-- Taking what has arrived at a port changes the table of arrivals alone. -/
theorem State.takeArrival_frame {port : Nat} {a : Arrival} (h : s.takeArrival port = some (a, u)) :
    ∃ l, u = { s with arrivals := l } := by
  unfold State.takeArrival at h
  split at h
  · cases h
    exact ⟨_, rfl⟩
  · cases h

theorem State.takeArrival_now {port : Nat} {a : Arrival} (h : s.takeArrival port = some (a, u)) : u.now = s.now := by
  obtain ⟨l, rfl⟩ := State.takeArrival_frame h
  rfl

theorem State.takeArrival_svcOpen {port : Nat} {a : Arrival} (h : s.takeArrival port = some (a, u)) (sv : Nat) :
    u.svcOpen sv = s.svcOpen sv := by
  obtain ⟨l, rfl⟩ := State.takeArrival_frame h
  rfl

section
variable {a : Arrival} {port : Fin 20} (h : s.takeArrival port = some (a, u))
include h

theorem execPacketHeaderArrive_local (hport : 14 ≤ port.val) : execPacketHeaderArrive port s =
    done (u.routeIn ⟨a.pkt, none, a.cells, a.off, port, injMid port a.pkt, false, s.now⟩) := by
  have hnotService : (port.val = 12 || port.val = 13) = false := by
    simp only [Bool.or_eq_false_iff, decide_eq_false_iff_not]
    omega
  simp [execPacketHeaderArrive, hnotService, h, hport, State.takeArrival_now h]

theorem execPacketHeaderArrive_received {d : Desc} {t r : State} (hport : port.val < 12)
    (hrecv : u.receiveAt port a = (some (d, t), r)) : execPacketHeaderArrive port s = done (t.routeIn d) := by
  have hnotService : (port.val = 12 || port.val = 13) = false := by
    simp only [Bool.or_eq_false_iff, decide_eq_false_iff_not]
    omega
  simp [execPacketHeaderArrive, hnotService, h, hrecv, show ¬ 14 ≤ port.val by omega]

theorem execPacketHeaderArrive_lost {r : State} (hport : port.val < 12) (hrecv : u.receiveAt port a = (none, r)) :
    execPacketHeaderArrive port s = done r := by
  have hnotService : (port.val = 12 || port.val = 13) = false := by
    simp only [Bool.or_eq_false_iff, decide_eq_false_iff_not]
    omega
  simp [execPacketHeaderArrive, hnotService, h, hrecv, show ¬ 14 ≤ port.val by omega]

end

/-- The types that a service port lets in (R283). -/
def serviceTypes : List (BitVec 6) := [tMGMT, tROUTEUPD, tWRITE, tREADREQ, tMSG]

theorem mem_serviceTypes {x : BitVec 6} : x ∈ serviceTypes ↔
    (x == tMGMT || x == tROUTEUPD || x == tWRITE || x == tREADREQ || x == tMSG) = true := by
  simp [serviceTypes, or_assoc]

/-- A packet that enters at a service port: of this module, in slice 0xFFE (R283). -/
def State.asServed (t : State) (p : Pkt) : Pkt :=
  { p with
    slice := 0xFFE
    src := BitVec.ofNat 14 t.coord
    epoch := t.flag routeBank_ACTIVE
    age := BitVec.ofNat 24 (cone24 t.now)
    hops := 0
    vc := 0 }

section
variable {a : Arrival} {sv : Fin 2} (h : s.takeArrival (12 + sv.val) = some (a, u))
include h

theorem execServicePortIngress_closed (hopen : s.svcOpen (12 + sv.val) = false) : execServicePortIngress sv s =
    done ((u.bump (lnkCntForeign_COUNT (12 + sv.val))).bounce (12 + sv.val) a.pkt) := by
  simp [execServicePortIngress, h, State.takeArrival_svcOpen h, hopen]

variable (hopen : s.svcOpen (12 + sv.val) = true)
include hopen

theorem execServicePortIngress_otherType (htype : a.pkt.typ ∉ serviceTypes) : execServicePortIngress sv s =
    done ((u.bump (lnkCntMalformed_COUNT (12 + sv.val))).bounce (12 + sv.val) a.pkt) := by
  rw [mem_serviceTypes, Bool.not_eq_true] at htype
  simp [execServicePortIngress, h, State.takeArrival_svcOpen h, hopen, htype]

variable (htype : a.pkt.typ ∈ serviceTypes)
include htype

theorem execServicePortIngress_lost {r : State} (hrecv : u.receiveAt (12 + sv.val) a = (none, r)) :
    execServicePortIngress sv s = done r := by
  rw [mem_serviceTypes] at htype
  simp [execServicePortIngress, h, State.takeArrival_svcOpen h, hopen, htype, hrecv]

theorem execServicePortIngress_enters {d : Desc} {t r : State} (hrecv : u.receiveAt (12 + sv.val) a = (some (d, t), r)) :
    execServicePortIngress sv s = done (t.routeIn { d with pkt := t.asServed d.pkt }) := by
  rw [mem_serviceTypes] at htype
  simp [execServicePortIngress, h, State.takeArrival_svcOpen h, hopen, htype, hrecv, State.asServed]

end

/-! ## Injection (R213, R242, R250, R265, R278) -/

/-- The state in which the packet at place `k` of the queue of an injection point has been taken out of it. -/
def State.withoutInj (s : State) (point : InjPoint) (k : Nat) : State :=
  { s with injq := s.injq.set [] (injKey point) ((s.injq.get [] (injKey point)).eraseIdx k) }

/-- The packet at place `k` of the queue of an injection point does not leave: one of its flow is ahead of it, or it waits. -/
def State.StaysAt (s : State) (point : InjPoint) (k : Nat) : Prop :=
  ∀ i, (s.injq.get [] (injKey point))[k]? = some i →
    (∀ j ∈ (s.injq.get [] (injKey point)).take k, sameFlow j.pkt i.pkt = false) → (s.withoutInj point k).tryInject point i = none

section
variable {point : InjPoint} {k : Nat} {i : Inj} {pre rest : List Inj}

/-- The search passes over a packet that has one of its flow ahead or that waits. -/
theorem State.injectFirst_skip (hstay : (∀ j ∈ pre, sameFlow j.pkt i.pkt = false) →
    ({ s with injq := s.injq.set [] (injKey point) (pre ++ rest) } : State).tryInject point i = none) :
    s.injectFirst point pre (i :: rest) = s.injectFirst point (pre ++ [i]) rest := by
  rw [State.injectFirst]
  split
  · rfl
  · next hfree =>
    rw [hstay (by simpa using hfree)]

theorem State.injectFirst_take {t : State} (hfree : ∀ j ∈ pre, sameFlow j.pkt i.pkt = false)
    (hleaves : ({ s with injq := s.injq.set [] (injKey point) (pre ++ rest) } : State).tryInject point i = some t) :
    s.injectFirst point pre (i :: rest) = some t := by
  rw [State.injectFirst, if_neg (by simpa using hfree), hleaves]

/-- The search comes to place `n` where every packet ahead of it stays. -/
theorem State.injectFirst_eq_drop (n : Nat) (hstay : ∀ m < n, s.StaysAt point m) :
    s.injectFirst point [] (s.injq.get [] (injKey point)) =
      s.injectFirst point ((s.injq.get [] (injKey point)).take n) ((s.injq.get [] (injKey point)).drop n) := by
  induction n with
  | zero => rfl
  | succ n ih =>
    rw [ih fun m hm => hstay m (by omega)]
    have hn := hstay n (by omega)
    unfold State.StaysAt State.withoutInj at hn
    generalize s.injq.get [] (injKey point) = q at hn ⊢
    by_cases hlt : n < q.length
    · rw [List.eraseIdx_eq_take_drop_succ] at hn
      rw [List.drop_eq_getElem_cons hlt, State.injectFirst_skip (hn _ (List.getElem?_eq_getElem hlt)), List.take_append_getElem hlt]
    · have hle : q.length ≤ n := by omega
      rw [List.take_of_length_le hle, List.take_of_length_le (by omega), List.drop_of_length_le hle, List.drop_of_length_le (by omega)]

theorem execPacketInject_leaves {t : State} (hk : (s.injq.get [] (injKey point))[k]? = some i)
    (hfree : ∀ j ∈ (s.injq.get [] (injKey point)).take k, sameFlow j.pkt i.pkt = false)
    (hleaves : (s.withoutInj point k).tryInject point i = some t) (hfirst : ∀ m < k, s.StaysAt point m) :
    execPacketInject point s = done t := by
  obtain ⟨hlt, rfl⟩ := List.getElem?_eq_some_iff.mp hk
  rw [State.withoutInj, List.eraseIdx_eq_take_drop_succ] at hleaves
  rw [execPacketInject, State.injectFirst_eq_drop k hfirst, List.drop_eq_getElem_cons hlt, State.injectFirst_take hfree hleaves]

theorem execPacketInject_waits (hstay : ∀ k, s.StaysAt point k) : execPacketInject point s = .next s := by
  rw [execPacketInject, State.injectFirst_eq_drop _ fun m _ => hstay m, List.drop_length, State.injectFirst]

end

/-! ## The grant of an output (R204, R230, R239-R241, R246) -/

/-- The state in which the head of VOQ `k` has left it for output `o`, and the round robin of its class stands at it. -/
def State.popHead (s : State) (o cls k : Nat) : State :=
  ({ s with voqs := s.voqs.set [] k ((s.voqs.get [] k).drop 1) }).setOut o
    { s.out o with rr := (s.out o).rr.set 39 cls (voqIn k * 2 + voqVc k) }

/-- The packet of a descriptor, with its bytes as they are where they are all here. -/
def State.headPkt (u : State) (d : Desc) : Pkt := if d.body.isNone then u.livePkt d.pkt d.cells d.off else d.pkt

/-- The CRC-32C over the bytes that a packet carries (R188). -/
def Pkt.crc (p : Pkt) : BitVec 32 := crc32c (p.payload.take p.carried)

/-- The state in which output `o` sends the packet `p` of a head of VOQ `k`, which held `depth` cells with it. -/
def State.beginTx (u : State) (o cls k depth : Nat) (d : Desc) (p : Pkt) : State :=
  let m := u.mark { d with pkt := p } depth
  let t := if o < 14 then
      m.2.modLink o fun l => { l with credits := l.credits.modify 0 (2 * cls + voqVc k) (· - p.cellCount) }
    else m.2
  t.setOut o { t.flitAccounts o cls (t.out o) p.flitCount with sending := some m.1 }

/-- What output `o` does with a head of VOQ `k` that has left it: discarded, or its transmission begins. -/
def State.grantHead (u : State) (o cls k depth : Nat) (d : Desc) : State :=
  let p := u.headPkt d
  if u.isAged d.pkt then (u.bump (fabCntAged_COUNT cls)).discard d
  else if o < 14 && d.pkt.hops = 63 then (u.bump fabCntHops_COUNT).discard d
  else if u.stores (voqIn k) o cls && u.cellsBad d.cells then (u.bump poolCntUncorr_COUNT).discard d
  else if u.stores (voqIn k) o cls && p.crc ≠ p.pcrc then (u.pcrcFail d p.crc).discard d
  else u.beginTx o cls k depth d p

theorem execOutputGrant_picked {port : Fin 20} {cls k : Nat} {d : Desc} (hfree : (s.out port).sending = none)
    (hcls : s.grantClass port (s.heads port) = some cls)
    (hpick : rrPick (s.heads port) cls ((s.out port).rr.get 39 cls) = some (k, d)) :
    execOutputGrant port s = done ((s.popHead port cls k).grantHead port cls k (cellsOf (s.voqs.get [] k)) d) := by
  unfold execOutputGrant
  simp only [hfree, hcls, hpick, Option.isSome_none, Bool.false_eq_true, if_false, State.grantHead, apply_ite done]
  rfl

section
variable {o cls k depth : Nat} {d : Desc}

theorem State.grantHead_aged (hage : u.isAged d.pkt = true) :
    u.grantHead o cls k depth d = (u.bump (fabCntAged_COUNT cls)).discard d := by
  simp [State.grantHead, hage]

variable (hage : u.isAged d.pkt = false)
include hage

theorem State.grantHead_hops (ho : o < 14) (hhops : d.pkt.hops = 63) :
    u.grantHead o cls k depth d = (u.bump fabCntHops_COUNT).discard d := by
  simp [State.grantHead, hage, ho, hhops]

variable (hhops : o < 14 → d.pkt.hops ≠ 63)
include hhops

/-- A head that is neither aged nor at its last hop is checked where the output stores it, and sent. -/
theorem State.grantHead_live : u.grantHead o cls k depth d =
    if u.stores (voqIn k) o cls = true ∧ u.cellsBad d.cells = true then (u.bump poolCntUncorr_COUNT).discard d
    else if u.stores (voqIn k) o cls = true ∧ (u.headPkt d).crc ≠ (u.headPkt d).pcrc then (u.pcrcFail d (u.headPkt d).crc).discard d
    else u.beginTx o cls k depth d (u.headPkt d) := by
  have hpass : ¬ (o < 14 ∧ d.pkt.hops = 63) := not_and.mpr hhops
  simp only [State.grantHead, hage, Bool.and_eq_true, decide_eq_true_eq, Bool.false_eq_true, if_false, if_neg hpass]

theorem State.grantHead_bad (hbad : u.stores (voqIn k) o cls = true ∧ u.cellsBad d.cells = true) :
    u.grantHead o cls k depth d = (u.bump poolCntUncorr_COUNT).discard d := by
  rw [State.grantHead_live hage hhops, if_pos hbad]

variable (hgood : ¬ (u.stores (voqIn k) o cls = true ∧ u.cellsBad d.cells = true))
include hgood

theorem State.grantHead_pcrc (hstores : u.stores (voqIn k) o cls = true) (hcrc : (u.headPkt d).crc ≠ (u.headPkt d).pcrc) :
    u.grantHead o cls k depth d = (u.pcrcFail d (u.headPkt d).crc).discard d := by
  rw [State.grantHead_live hage hhops, if_neg hgood, if_pos ⟨hstores, hcrc⟩]

theorem State.grantHead_begins (hcrc : u.stores (voqIn k) o cls = true → (u.headPkt d).crc = (u.headPkt d).pcrc) :
    u.grantHead o cls k depth d = u.beginTx o cls k depth d (u.headPkt d) := by
  rw [State.grantHead_live hage hhops, if_neg hgood, if_neg fun h => h.2 (hcrc h.1)]

end

/-! ## The end of a transmission (R20, R208, R244, R246, R292) -/

/-- The state in which output `o` sends nothing. -/
def State.freeOut (s : State) (o : Nat) : State := s.setOut o { s.out o with sending := none }

/-- A RED_PART of the kiln complex has left the router (R159). -/
def State.leftKiln (u : State) (d : Desc) : State :=
  if d.inPort = 18 ∧ d.pkt.typ = tREDPART then u.partSent d.pkt.coll d.pkt.chunk else u

/-- Whether a link takes the flits of a packet: it does not drain, and its replay buffer has room (R195, R292). -/
def Link.hasRoom (l : Link) (d : Desc) : Prop := l.drains = false ∧ l.replay.length + d.pkt.flitCount ≤ 2048

theorem Link.not_hasRoom_iff {l : Link} {d : Desc} :
    ¬ l.hasRoom d ↔ (l.drains || 2048 < l.replay.length + d.pkt.flitCount) = true := by
  rw [Link.hasRoom, Bool.or_eq_true, decide_eq_true_eq, Decidable.not_and_iff_not_or_not, Bool.not_eq_false, Nat.not_le]

/-- The state in which the packet `p` has left output `o` as flits on a link, in place of the descriptor `d` (R208, R292). -/
def State.sentOn (u : State) (o : Nat) (d : Desc) (p : Pkt) : State :=
  let sent := { p with hops := d.pkt.hops + 1, vc := BitVec.ofNat 2 (u.hopVc d.pkt.vc.toNat d.inPort o) }
  let owner := { d with pkt := { d.pkt with hops := d.pkt.hops + 1 }, inPort := if d.inPort = 18 then 19 else d.inPort }
  ((u.freeOut o).sendFlits o (packetFlits sent (u.link o).txNext owner)).modLink o
    fun l => { l with flits := l.flits + d.pkt.flitCount }

section
variable {port : Fin 20} {d : Desc} (hsend : (s.out port).sending = some d) (hbody : d.body = none)
include hsend hbody

section
variable (hlocal : 14 ≤ port.val)
include hlocal

theorem execPacketTxDone_bad (hbad : s.cellsBad d.cells = true) : execPacketTxDone port s =
    done (((s.freeOut port).bump poolCntUncorr_COUNT).discard d) := by
  simp [execPacketTxDone, hsend, hbody, hlocal, hbad, State.freeOut]

variable (hgood : ¬ s.cellsBad d.cells = true)
include hgood

theorem execPacketTxDone_fences (hdie : port.val < 18) (herr : 5 ≤ s.dieErr.get 0 (port.val - 14)) :
    execPacketTxDone port s = done { s with fenceReq := some (0, port.val - 14) } := by
  simp [execPacketTxDone, hsend, hbody, hlocal, hgood, hdie, herr]

variable (hdie : port.val < 18 → s.dieErr.get 0 (port.val - 14) < 5)
include hdie

/-- A packet whose cells read well, at a port that carries it, is handed to the port's unit. -/
theorem execPacketTxDone_handed : execPacketTxDone port s = done (
    if port.val = 18 ∨ d.pkt.typ = tMIRROR then ((s.freeOut port).hand port d).leftKiln d
    else (((s.freeOut port).hand port { d with cells := [] }).release d.mid d.cells).leftKiln d) := by
  have hcarries : ¬ (port.val < 18 ∧ 5 ≤ s.dieErr.get 0 (port.val - 14)) := fun h => Nat.not_le_of_lt (hdie h.1) h.2
  by_cases hkeep : port.val = 18 ∨ d.pkt.typ = tMIRROR <;>
    simp only [execPacketTxDone, hsend, hbody, hlocal, hgood, hcarries, hkeep, State.leftKiln, State.freeOut, Option.isSome_none,
      Bool.and_eq_true, Bool.or_eq_true, decide_eq_true_eq, beq_iff_eq, Bool.false_eq_true, and_false, true_and, if_true, if_false]

end

section
variable (hlink : port.val < 14)
include hlink

theorem execPacketTxDone_waits (hfull : ¬ (s.link port).hasRoom d) : execPacketTxDone port s = .next s := by
  have hnotLocal : ¬ 14 ≤ port.val := by omega
  simp [execPacketTxDone, hsend, hbody, hnotLocal, Link.not_hasRoom_iff.mp hfull]

theorem execPacketTxDone_sent (hroom : (s.link port).hasRoom d) {p : Pkt}
    (hcut : (s.cutPkt d).2.coneStamp port (s.cutPkt d).1 = (p, u)) : execPacketTxDone port s = done ((u.sentOn port d p).discard d) := by
  have hnotLocal : ¬ 14 ≤ port.val := by omega
  have hwhole : d.body.isSome = false := Option.isSome_eq_false_iff.mpr (hbody ▸ rfl)
  have hgoes : ((s.link port).drains || 2048 < (s.link port).replay.length + d.pkt.flitCount) = false :=
    Bool.eq_false_iff.mpr fun hfull => Link.not_hasRoom_iff.mpr hfull hroom
  simp only [execPacketTxDone, hsend, hwhole, hnotLocal, hgoes, hcut, State.sentOn, State.freeOut, decide_false, Bool.false_and,
    Bool.false_eq_true, if_false]

end

end

/-! ## The periods of the router (R239, R242, R267, R270) -/

section
variable {k n : Nat} {d : Desc} {t : List Desc} (hhead : s.voqs.get [] k = d :: t)
include hhead

theorem State.sweepVoq_aged (hage : s.isAged d.pkt = true) : s.sweepVoq k (n + 1) =
    ((({ s with voqs := s.voqs.set [] k t } : State).bump (fabCntAged_COUNT d.pkt.cls.toNat)).discard d).sweepVoq k n := by
  simp only [State.sweepVoq, hhead, hage, if_true]

theorem State.sweepVoq_young (hage : s.isAged d.pkt = false) : s.sweepVoq k n = s := by
  cases n with
  | zero => rfl
  | succ n => simp only [State.sweepVoq, hhead, hage, Bool.false_eq_true, if_false]

end

/-- What a window leaves of one throttled destination: its rate where an answer was marked; else INC more, and none at the full rate. -/
theorem windowEnd_singleton (inc dst : Nat) (e : Throttle) : windowEnd inc [(dst, e)] =
    if e.marked then [(dst, { e with marked := false, sent := 0 })]
    else if fullRate ≤ e.rate + inc then []
    else [(dst, { e with rate := e.rate + inc, marked := false, sent := 0 })] := by
  cases hmark : e.marked with
  | true => simp [windowEnd, hmark]
  | false =>
    by_cases hfull : fullRate ≤ e.rate + inc
    · simp [windowEnd, hmark, hfull]
    · simp [windowEnd, hmark, hfull]

/-- The head of a VOQ that waits without credit moves to the tail of the VOQ of an escape link. -/
theorem execEscWaitExpiry_moves {inp out : Fin 20} {cls : Fin 8} {vc : Fin 2} {d : Desc} {t : List Desc} {o : Nat} {e : W64}
    (hhead : s.voqs.get [] (voqKey inp out cls vc) = d :: t) (hout : out.val < 12) (hord : d.pkt.ord = false) (hesc : d.esc = false)
    (hspans : d.pkt.spans = false) (hstuck : s.eligible (voqKey inp out cls vc) d = false)
    (hentry : s.entryOf d.pkt.epoch d.pkt.dst.toNat = (e, u))
    (hpick : (u.escLinks e cls).1[(u.flowHash d.pkt).toNat % 2 % (u.escLinks e cls).1.length]? = some o) :
    execEscWaitExpiry inp out cls vc s =
      done (let w := ({ u with voqs := u.voqs.set [] (voqKey inp out cls vc) t } : State).bump routeCntEscape_COUNT
        w.join (voqKey inp o cls (w.hopVc d.pkt.vc.toNat inp o)) { d with esc := true, since := w.now }) := by
  simp only [execEscWaitExpiry, hhead, hout, hord, hesc, hspans, hstuck, hentry, hpick, decide_true, Bool.not_false, Bool.and_self, if_true]

end Sys2Proof.Machine

namespace Sys2Proof.Claims

open Sys2Proof.Machine

/-- Settles O26: the aged heads of a VOQ leave one by one, a head without credit moves to an escape link, and a window treats each
destination by its mark. -/
theorem routerPeriods : Obligations.RouterPeriods := by
  unfold Obligations.RouterPeriods
  intro s
  refine ⟨rfl, fun k d t n hhead => ⟨State.sweepVoq_aged hhead, State.sweepVoq_young hhead⟩, ?escape, rfl, windowEnd_singleton, rfl⟩
  case escape =>
    intro inp out cls vc d t o e u k hhead hout hord hesc hspans hstuck hentry hpick
    exact execEscWaitExpiry_moves hhead hout hord hesc hspans hstuck hentry hpick

/-- How a packet enters at a port: from within, from a link, or at a service port. -/
theorem packetsEnter : PacketsEnter := by
  unfold PacketsEnter
  refine ⟨fun s u port a _ _ h => ⟨?inside, ?link⟩, fun s u sv a h => ⟨?closed, ?otherType, ?served⟩⟩
  case inside => exact execPacketHeaderArrive_local h
  case link =>
    intro hport
    exact ⟨fun d t r => execPacketHeaderArrive_received h hport, fun r => execPacketHeaderArrive_lost h hport⟩
  case closed => exact execServicePortIngress_closed h
  case otherType => exact execServicePortIngress_otherType h
  case served =>
    intro hopen htype
    exact ⟨fun r => execServicePortIngress_lost h hopen htype, fun d t r => execServicePortIngress_enters h hopen htype⟩

/-- The search for a packet that leaves passes over each place whose packet stays. -/
theorem injectionOrder : InjectionOrder := by
  unfold InjectionOrder
  intro s point q leaves free
  refine ⟨fun k i t hk hfree hleaves hfirst => ?_, fun hwaits => ?_⟩
  · exact execPacketInject_leaves hk hfree hleaves fun m hm j hj hfreej => hfirst m j hm hj hfreej
  · exact execPacketInject_waits hwaits

/-- Settles O48, point by point of entry. -/
theorem enteringTheRouter : Obligations.EnteringTheRouter := ⟨packetsEnter, injectionOrder⟩

/-- What becomes of the head that an output picks. -/
theorem outputGrants : OutputGrants := by
  unfold OutputGrants
  intro s port cls k d o grant q u p crc bad hfree hcls hpick
  have hgrant {t : State} (ht : u.grantHead o cls k (cellsOf q) d = t) : grant t :=
    ht ▸ execOutputGrant_picked hfree hcls hpick
  refine ⟨fun hage => hgrant (State.grantHead_aged hage), fun hage => ⟨fun ho hhops => hgrant (State.grantHead_hops hage ho hhops),
    fun hhops => ⟨?bad, ?pcrc, ?begins⟩⟩⟩
  case bad => exact fun hbad => hgrant (State.grantHead_bad hage hhops hbad)
  case pcrc => exact fun hgood hstores hcrc => hgrant (State.grantHead_pcrc hage hhops hgood hstores hcrc)
  case begins => exact fun hgood hcrc => hgrant (State.grantHead_begins hage hhops hgood hcrc)

/-- What becomes of a packet whose last byte is here. -/
theorem transmissionEnds : TransmissionEnds := by
  unfold TransmissionEnds
  intro s port d o free bad hsend hbody
  refine ⟨execPacketTxDone_bad hsend hbody, execPacketTxDone_fences hsend hbody, ?handed, ?link⟩
  case handed =>
    intro hlocal hgood hdie keep t
    have hrow := execPacketTxDone_handed hsend hbody hlocal hgood hdie
    exact ⟨fun hkeep => hrow.trans (congrArg done (if_pos hkeep)), fun hkeep => hrow.trans (congrArg done (if_neg hkeep))⟩
  case link =>
    intro hlink room
    exact ⟨execPacketTxDone_waits hsend hbody hlink, fun hroom p u => execPacketTxDone_sent hsend hbody hlink hroom⟩

/-- Settles O49: the grant and the end of a transmission, by what the output finds of the packet. -/
theorem leavingTheRouter : Obligations.LeavingTheRouter := ⟨outputGrants, transmissionEnds⟩

end Sys2Proof.Claims
end

section
/-!
SUPPORT. How SCH's commands that pass their checks end or go on (R397), and how the job's binding and its program are read, checked and put
in force (R308, R370, R378, R386, R388, R396).
-/
namespace Sys2Proof.Machine

variable {s : State} {q : Fin 64} {c : Cmd}

/-! ## Commands that pass (R397) -/

/-- The row of a command that passes its checks has the effect of its body. -/
theorem schRow_passes {want : Cmd → Bool} {body : State → Cmd → CmdEnd} (h : Passes s q c) (hwant : want c = true) :
    schRow q want body s = done ((body (served s q) c).settle q.val c.op).schReady := by
  obtain ⟨⟨hpick, hhead⟩, haccess, hparams, hlegal⟩ := h
  have hbody : (served s q).checked c body = body (served s q) c := checked_passes haccess hparams hlegal
  rw [schRow_takes hpick hhead hwant, ← hbody]
  rfl

theorem schRow_ends {want : Cmd → Bool} {body : State → Cmd → CmdEnd} {t : State} {code : Nat} {res : W64} (h : Passes s q c)
    (hwant : want c = true) (hbody : body (served s q) c = .fin t code res) : Ends (schRow q want body s) t q code res := by
  rw [schRow_passes h hwant, hbody]
  rfl

theorem schRow_goesOn {want : Cmd → Bool} {body : State → Cmd → CmdEnd} {t : State} {k : RunKind} {next : State → State}
    (h : Passes s q c) (hwant : want c = true) (hbody : body (served s q) c = .run t k next) :
    GoesOn (schRow q want body s) t q c.op k next := by
  rw [schRow_passes h hwant, hbody]
  rfl

/-! ## BIND (R308, R378) -/

/-- The header of an access image has its MAGIC and VERSION, and no more records than 4,096. -/
def ImageHead (h : List Byte) : Prop := tokField h 0 4 = 0x53434341 ∧ tokField h 4 2 = 1 ∧ tokField h 6 2 ≤ 4096

theorem not_imageHead_iff {h : List Byte} :
    (tokField h 0 4 ≠ 0x53434341 || tokField h 4 2 ≠ 1 || 4096 < tokField h 6 2) = true ↔ ¬ ImageHead h := by
  simp only [ImageHead, Classical.not_and_iff_not_or_not, Bool.or_eq_true, decide_eq_true_eq, ne_eq, Nat.not_le, or_assoc]

/-- The records of an access image that its header announces. -/
def imageRecords (h b : List Byte) : List (W64 × W64) := accRecords b (tokField h 6 2)

/-- The records of an access image agree with the CRC of its header, and each is valid. -/
def ImageBody (h b : List Byte) : Prop :=
  tokField h 8 4 = (crc32c b).toNat ∧ ∀ r ∈ imageRecords h b, accRecordOk r.1 r.2 = true

/-- What a BIND comes to with the bytes of its mirror binding. -/
def bindMirror (c : Cmd) (l : List (W64 × W64)) (s : State) (m : List Byte) : CmdEnd :=
  match bindingOf m with
  | some x => .fin (s.bindJob (bitsOf (c.word 1) 0 12) l (some x)) eOK 0
  | none => .fin s ePARAM 0

theorem bindMirror_none {l : List (W64 × W64)} {m : List Byte} (h : bindingOf m = none) : bindMirror c l s m = .fin s ePARAM 0 := by
  simp only [bindMirror, h]

theorem bindMirror_some {l : List (W64 × W64)} {m : List Byte} {x : MirrorBind} (h : bindingOf m = some x) :
    bindMirror c l s m = .fin (s.bindJob (bitsOf (c.word 1) 0 12) l (some x)) eOK 0 := by
  simp only [bindMirror, h]

/-- What a BIND comes to with the header and the records of its access image. -/
def bindImage (c : Cmd) (h : List Byte) (s : State) (b : List Byte) : CmdEnd :=
  if tokField h 8 4 ≠ (crc32c b).toNat || !((imageRecords h b).all fun r => accRecordOk r.1 r.2) then .fin s ePARAM 0
  else if c.addr 3 = 0 then .fin (s.bindJob (bitsOf (c.word 1) 0 12) (imageRecords h b) none) eOK 0
  else s.cmdReadThen 0x122 (c.addr 3) 64 (bindMirror c (imageRecords h b))

section
variable {h b : List Byte}

theorem not_imageBody_iff :
    (tokField h 8 4 ≠ (crc32c b).toNat || !((imageRecords h b).all fun r => accRecordOk r.1 r.2)) = true ↔ ¬ ImageBody h b := by
  rw [Bool.or_eq_true, decide_eq_true_eq, Bool.not_eq_true', ← Bool.not_eq_true, List.all_eq_true, ImageBody,
    Classical.not_and_iff_not_or_not]

theorem bindImage_bad (hbody : ¬ ImageBody h b) : bindImage c h s b = .fin s ePARAM 0 := by
  rw [bindImage, if_pos (not_imageBody_iff.mpr hbody)]

variable (hbody : ImageBody h b)
include hbody

theorem bindImage_unmirrored (haddr : c.addr 3 = 0) :
    bindImage c h s b = .fin (s.bindJob (bitsOf (c.word 1) 0 12) (imageRecords h b) none) eOK 0 := by
  rw [bindImage, if_neg (mt not_imageBody_iff.mp (not_not_intro hbody)), if_pos haddr]

theorem bindImage_mirrored (haddr : c.addr 3 ≠ 0) :
    bindImage c h s b = s.cmdReadThen 0x122 (c.addr 3) 64 (bindMirror c (imageRecords h b)) := by
  rw [bindImage, if_neg (mt not_imageBody_iff.mp (not_not_intro hbody)), if_neg haddr]

end

section
variable {h : State × Nat × List Byte} (hread : s.cmdRead 0x122 (c.addr 2) 32 = h)
include hread

theorem bindBody_unread (hbad : h.2.1 ≠ eOK) : bindBody s c = .fin h.1 h.2.1 0 := by
  subst hread
  exact cmdReadThen_bad hbad

variable (hok : h.2.1 = eOK)
include hok

/-- A BIND whose header was read is refused by the header, or reads the records. -/
theorem bindBody_read : bindBody s c =
    if tokField h.2.2 0 4 ≠ 0x53434341 || tokField h.2.2 4 2 ≠ 1 || 4096 < tokField h.2.2 6 2 then .fin h.1 ePARAM 0
    else h.1.cmdReadThen 0x122 (c.addr 2 + 32) (16 * tokField h.2.2 6 2) (bindImage c h.2.2) := by
  subst hread
  exact cmdReadThen_ok hok

theorem bindBody_badHead (hhead : ¬ ImageHead h.2.2) : bindBody s c = .fin h.1 ePARAM 0 := by
  rw [bindBody_read hread hok, if_pos (not_imageHead_iff.mpr hhead)]

theorem bindBody_goodHead (hhead : ImageHead h.2.2) :
    bindBody s c = h.1.cmdReadThen 0x122 (c.addr 2 + 32) (16 * tokField h.2.2 6 2) (bindImage c h.2.2) := by
  rw [bindBody_read hread hok, if_neg (mt not_imageHead_iff.mp (not_not_intro hhead))]

end

/-! ## LOAD_PROGRAM (R388, R396) -/

/-- A load descriptor may be carried out: the program fits the store at a multiple of 8, its source lies in HBM, and every cluster of the
mask is IDLE or HALTED. -/
def State.MayLoad (s : State) (c : Cmd) (d : List W64) : Prop :=
  (progOf d).2.2 + (progOf d).2.1 ≤ storeSize ∧ (progOf d).2.2 % 8 = 0 ∧ spanHbm (progOf d).1 (progOf d).2.1 = true
    ∧ ∀ n ∈ c.mask 2, s.clSt n = clIDLE ∨ s.clSt n = clHALTED

theorem not_mayLoad_iff {d : List W64} : (storeSize < (progOf d).2.2 + (progOf d).2.1 || (progOf d).2.2 % 8 ≠ 0
    || !spanHbm (progOf d).1 (progOf d).2.1 || (c.mask 2).any (fun n => s.clSt n ≠ clIDLE && s.clSt n ≠ clHALTED)) = true ↔
      ¬ s.MayLoad c d := by
  simp only [State.MayLoad, Classical.not_and_iff_not_or_not, Classical.not_forall, not_or, exists_prop, Bool.or_eq_true,
    Bool.and_eq_true, Bool.not_eq_true', Bool.not_eq_true, decide_eq_true_eq, List.any_eq_true, ne_eq, Nat.not_le, or_assoc]

section
variable {r : State × Nat × List Byte} (hread : s.cmdRead 0x122 (c.addr 1) 64 = r)
include hread

theorem loadBody_unread (hbad : r.2.1 ≠ eOK) : loadBody s c = .fin r.1 r.2.1 0 := by
  subst hread
  exact cmdReadThen_bad hbad

variable (hok : r.2.1 = eOK)
include hok

/-- A LOAD_PROGRAM whose descriptor was read is refused by the descriptor, or the copy begins. -/
theorem loadBody_read : loadBody s c =
    if storeSize < (progOf (words64 r.2.2)).2.2 + (progOf (words64 r.2.2)).2.1 || (progOf (words64 r.2.2)).2.2 % 8 ≠ 0
        || !spanHbm (progOf (words64 r.2.2)).1 (progOf (words64 r.2.2)).2.1
        || (c.mask 2).any (fun n => r.1.clSt n ≠ clIDLE && r.1.clSt n ≠ clHALTED) then .fin r.1 ePARAM 0
    else .run r.1 (.copying (words64 r.2.2)) := by
  subst hread
  exact cmdReadThen_ok hok

theorem loadBody_bad (hbad : ¬ r.1.MayLoad c (words64 r.2.2)) : loadBody s c = .fin r.1 ePARAM 0 := by
  rw [loadBody_read hread hok, if_pos (not_mayLoad_iff.mpr hbad)]

theorem loadBody_good (hgood : r.1.MayLoad c (words64 r.2.2)) : loadBody s c = .run r.1 (.copying (words64 r.2.2)) := by
  rw [loadBody_read hread hok, if_neg (mt not_mayLoad_iff.mp (not_not_intro hgood))]

end

/-- The end of a copy completes the command that it was for. -/
theorem execProgramCopyDone_copied {k : Nat} {d : List W64} {l : List Cmd}
    (hrun : (s.runs.findSome? fun r => match r.kind with | .copying d => some (r.q, d) | _ => none) = some (k, d))
    (hq : s.queue k = c :: l) : execProgramCopyDone s =
      done (if (s.copyProgram c d).2 = eOK then ((s.copyProgram c d).1.programLoaded c d).endRun k eOK 0
        else (s.copyProgram c d).1.endRun k (s.copyProgram c d).2 0) := by
  unfold execProgramCopyDone
  split
  · next hfound =>
    cases hfound.symm.trans hrun
    simp only [hq]
  · next hfound => cases hfound.symm.trans hrun

end Sys2Proof.Machine

namespace Sys2Proof.Claims

open Sys2Proof.Machine

/-- BIND answers by the first of its reads and checks that fails, and binds where none does; UNBIND and UNFENCE go on. -/
theorem bindAndUnbind : BindAndUnbind := by
  unfold BindAndUnbind
  intro s q c hp u
  refine ⟨fun hop => ?bind, fun hop => ?unbind, fun hop => ?unfence⟩
  case unbind => exact hop ▸ schRow_goesOn hp (beq_iff_eq.mpr hop) rfl
  case unfence => exact hop ▸ schRow_goesOn hp (beq_iff_eq.mpr hop) rfl
  case bind =>
    intro o h n head b l body m slice
    have ends {t : State} {code : Nat} (hbody : bindBody u c = .fin t code 0) : Ends o t q code :=
      schRow_ends hp (beq_iff_eq.mpr hop) hbody
    refine ⟨?_, ?_, ?_, ?_, ?_⟩
    · exact fun hbad => ends (bindBody_unread rfl hbad)
    · exact fun hok hhead => ends (bindBody_badHead rfl hok hhead)
    · exact fun hok hhead hbad => ends ((bindBody_goodHead rfl hok hhead).trans (cmdReadThen_bad hbad))
    · intro hok hhead hbok hbody
      exact ends ((bindBody_goodHead rfl hok hhead).trans ((cmdReadThen_ok hbok).trans (bindImage_bad hbody)))
    · intro hok hhead hbok hbody
      have himage : bindBody u c = bindImage c h.2.2 b.1 b.2.2 := (bindBody_goodHead rfl hok hhead).trans (cmdReadThen_ok hbok)
      refine ⟨fun hnone => ends (himage.trans (bindImage_unmirrored hbody hnone)), ?_, ?_, ?_⟩
      · exact fun haddr hbad => ends (himage.trans ((bindImage_mirrored hbody haddr).trans (cmdReadThen_bad hbad)))
      · intro haddr hmok hnone
        exact ends (himage.trans ((bindImage_mirrored hbody haddr).trans ((cmdReadThen_ok hmok).trans (bindMirror_none hnone))))
      · intro x haddr hmok hsome
        exact ends (himage.trans ((bindImage_mirrored hbody haddr).trans ((cmdReadThen_ok hmok).trans (bindMirror_some hsome))))

/-- LOAD_PROGRAM answers by its descriptor, and PROGRAM_COPY_DONE by the first error of the copy. -/
theorem programLoads : ProgramLoads := by
  unfold ProgramLoads
  refine ⟨?load, ?copied⟩
  case load =>
    intro s q c hp hop o r p good
    refine ⟨fun hbad => ?_, fun hok hbad => ?_, fun hok hgood => ?_⟩
    · exact schRow_ends hp (beq_iff_eq.mpr hop) (loadBody_unread rfl hbad)
    · exact schRow_ends hp (beq_iff_eq.mpr hop) (loadBody_bad rfl hok hbad)
    · exact hop ▸ schRow_goesOn hp (beq_iff_eq.mpr hop) (loadBody_good rfl hok hgood)
  case copied =>
    intro s k d c l hrun hq r
    have hrow := execProgramCopyDone_copied hrun hq
    exact ⟨fun hok => hrow.trans (congrArg done (if_pos hok)), fun hbad => hrow.trans (congrArg done (if_neg hbad))⟩

/-- Settles O55, command by command. -/
theorem jobBinding : Obligations.JobBinding := ⟨bindAndUnbind, programLoads⟩

end Sys2Proof.Claims
end

section
/-!
SUPPORT. The settings and the log (R318, R339, R404, R405, R412, R427, R445): what SET_POLICY, READ_LOG and the heartbeat's time-out come
to.
-/
namespace Sys2Proof.Machine

variable {s : State} {q : Fin 64} {c : Cmd}

/-! ## SET_POLICY (R339, R427) -/

/-- What a SET_POLICY that sets EXPERT comes to with the bytes of its token. -/
def policyToken (c : Cmd) (s : State) (b : List Byte) : CmdEnd :=
  let k := s.checkToken b 1 (bitsOf (c.word 4) 0 8)
  if k.1 then .fin (k.2.setPolicy c) eOK 0 else .fin k.2 eAUTH 0

theorem policyToken_passes {b : List Byte} (h : (s.checkToken b 1 (bitsOf (c.word 4) 0 8)).1 = true) :
    policyToken c s b = .fin ((s.checkToken b 1 (bitsOf (c.word 4) 0 8)).2.setPolicy c) eOK 0 := if_pos h

theorem policyToken_fails {b : List Byte} (h : (s.checkToken b 1 (bitsOf (c.word 4) 0 8)).1 = false) :
    policyToken c s b = .fin (s.checkToken b 1 (bitsOf (c.word 4) 0 8)).2 eAUTH 0 := if_neg (ne_true_of_eq_false h)

theorem policyBody_notFree (hdet : (c.word 1).getLsbD 0 = true ∧ s.detFree = false) : policyBody s c = .fin s eSTATE 0 := by
  obtain ⟨hmask, hbusy⟩ := hdet
  rw [policyBody, if_pos (by rw [hmask, hbusy]; rfl)]

section
variable (hdet : ¬ ((c.word 1).getLsbD 0 = true ∧ s.detFree = false))
include hdet

/-- A SET_POLICY that DET does not refuse needs SEC and a token where it sets EXPERT, and nothing else where it does not. -/
theorem policyBody_free : policyBody s c =
    if (c.word 1).getLsbD 3 then
      if !s.secServes then .fin s eFAULT 0 else s.cmdReadThen 0x120 (c.addr 5) 256 (policyToken c)
    else .fin (s.setPolicy c) eOK 0 := if_neg (by simpa using hdet)

theorem policyBody_plain (hexpert : ¬ (c.word 1).getLsbD 3 = true) : policyBody s c = .fin (s.setPolicy c) eOK 0 := by
  rw [policyBody_free hdet, if_neg hexpert]

variable (hexpert : (c.word 1).getLsbD 3 = true)
include hexpert

theorem policyBody_noSec (hsec : s.secServes = false) : policyBody s c = .fin s eFAULT 0 := by
  rw [policyBody_free hdet, if_pos hexpert, hsec]
  rfl

theorem policyBody_expert (hsec : s.secServes = true) : policyBody s c = s.cmdReadThen 0x120 (c.addr 5) 256 (policyToken c) := by
  rw [policyBody_free hdet, if_pos hexpert, if_neg (by simp [hsec])]

end

/-! ## READ_LOG (R318, R412) -/

/-- Record `k` of those that a READ_LOG asks for is read after the ones before it, where these were read without error. -/
def logRead (base first : Nat) (x : State × Nat × List Byte) (k : Nat) : State × Nat × List Byte :=
  if x.2.1 ≠ eOK then x
  else
    let y := x.1.cmdRead 0x122 (base + (first + k) % 524288 * 32) 32
    (y.1, y.2.1, x.2.2 ++ y.2.2)

/-- The records that a READ_LOG asks for, as far as they could be read. -/
def State.logRecords (s : State) (c : Cmd) : State × Nat × List Byte :=
  (List.range (c.word 4).toNat).foldl (logRead (s.get logBase_BASE * 2 ^ 24) (c.word 3).toNat) (s, eOK, [])

/-- What a READ_LOG of records comes to. -/
def readRecordsBody (s : State) (c : Cmd) : CmdEnd :=
  if 2 ^ 43 < (c.word 4).toNat then .fin s ePARAM 0
  else if (s.logRecords c).2.1 ≠ eOK then .fin (s.logRecords c).1 (s.logRecords c).2.1 0
  else (s.logRecords c).1.cmdWriteThen 0x122 (c.addr 2) (s.logRecords c).2.2 fun t =>
    .fin t eOK (BitVec.ofNat 64 (32 * (c.word 4).toNat))

theorem execReadLogRecords_eq :
    execReadLogRecords q s = schRow q (fun c => c.op == 0x14 && bitsOf (c.word 1) 0 2 == 1) readRecordsBody s := rfl

theorem readRecordsBody_tooMany (hn : 2 ^ 43 < (c.word 4).toNat) : readRecordsBody s c = .fin s ePARAM 0 := if_pos hn

section
variable (hn : (c.word 4).toNat ≤ 2 ^ 43)
include hn

theorem readRecordsBody_unread (hbad : (s.logRecords c).2.1 ≠ eOK) :
    readRecordsBody s c = .fin (s.logRecords c).1 (s.logRecords c).2.1 0 := by
  rw [readRecordsBody, if_neg (Nat.not_lt.mpr hn), if_pos hbad]

theorem readRecordsBody_read (hok : (s.logRecords c).2.1 = eOK) : readRecordsBody s c =
    (s.logRecords c).1.cmdWriteThen 0x122 (c.addr 2) (s.logRecords c).2.2 fun t =>
      .fin t eOK (BitVec.ofNat 64 (32 * (c.word 4).toNat)) := by
  rw [readRecordsBody, if_neg (Nat.not_lt.mpr hn), if_neg (not_not_intro hok)]

end

/-! ## The heartbeat's time-out (R404) -/

/-- The heartbeat is due and ORPHANED is not set yet. -/
def State.HeartbeatDue (s : State) : Prop :=
  mREADY ≤ s.mstate ∧ s.procRuns .sch = true ∧ s.get sysPolicy_HB_TMO ≠ 0
    ∧ s.hbAt.toNat + s.get sysPolicy_HB_TMO * 100000000 ≤ s.now ∧ s.flag sysState_ORPH = false

theorem heartbeatDue_iff : (mREADY ≤ s.mstate && s.procRuns .sch && s.get sysPolicy_HB_TMO * 100000000 ≠ 0
    && s.hbAt.toNat + s.get sysPolicy_HB_TMO * 100000000 ≤ s.now && !s.flag sysState_ORPH) = true ↔ s.HeartbeatDue := by
  have htmo : s.get sysPolicy_HB_TMO * 100000000 ≠ 0 ↔ s.get sysPolicy_HB_TMO ≠ 0 := by omega
  simp only [State.HeartbeatDue, Bool.and_eq_true, Bool.not_eq_true', decide_eq_true_eq, htmo, and_assoc]

theorem execHeartbeatTimeout_due (h : s.HeartbeatDue) : execHeartbeatTimeout s =
    done ((s.put sysState_ORPH 1).logEv 0x0005 0x3FE 0 (s.cone - s.hbAt) 0).orphaned := if_pos (heartbeatDue_iff.mpr h)

theorem execHeartbeatTimeout_early (h : ¬ s.HeartbeatDue) : execHeartbeatTimeout s = .next s := if_neg (mt heartbeatDue_iff.mp h)

end Sys2Proof.Machine

namespace Sys2Proof.Claims

open Sys2Proof.Machine

/-- Settles O31, command by command, and the time-out by whether it is due. -/
theorem settingsAndLog : Obligations.SettingsAndLog := by
  unfold Obligations.SettingsAndLog
  intro s q c
  refine ⟨?commands, execHeartbeatTimeout_due, execHeartbeatTimeout_early⟩
  intro hp u
  refine ⟨fun hop => ?tolerance, fun hop => ?policy, fun hop hkind => ?counters, fun hop hkind => ?records, fun hop => ?heartbeat⟩
  case tolerance => exact schRow_ends hp (beq_iff_eq.mpr hop) rfl
  case heartbeat => exact schRow_ends hp (beq_iff_eq.mpr hop) rfl
  case policy =>
    intro o det expert r k
    have ends {t : State} {code : Nat} (hbody : policyBody u c = .fin t code 0) : Ends o t q code :=
      schRow_ends hp (beq_iff_eq.mpr hop) hbody
    refine ⟨?_, ?_, ?_, ?_, ?_, ?_⟩
    · exact fun hdet => ends (policyBody_notFree hdet)
    · exact fun hdet hplain => ends (policyBody_plain hdet hplain)
    · exact fun hdet hexpert hsec => ends (policyBody_noSec hdet hexpert hsec)
    · exact fun hdet hexpert hsec hbad => ends ((policyBody_expert hdet hexpert hsec).trans (cmdReadThen_bad hbad))
    · intro hdet hexpert hsec hok htoken
      exact ends ((policyBody_expert hdet hexpert hsec).trans ((cmdReadThen_ok hok).trans (policyToken_passes htoken)))
    · intro hdet hexpert hsec hok htoken
      exact ends ((policyBody_expert hdet hexpert hsec).trans ((cmdReadThen_ok hok).trans (policyToken_fails htoken)))
  case counters =>
    have hwant : (c.op == 0x14 && bitsOf (c.word 1) 0 2 == 0) = true := by simp [hop, hkind]
    exact ⟨fun hok => schRow_ends hp hwant (cmdWriteThen_ok hok), fun hbad => schRow_ends hp hwant (cmdWriteThen_bad hbad)⟩
  case records =>
    have ends {t : State} {code : Nat} {res : W64} (hbody : readRecordsBody u c = .fin t code res) :
        Ends (exec (.readLogRecords q) s) t q code res := schRow_ends hp (by simp [hop, hkind]) hbody
    refine ⟨?_, ?_, ?_, ?_⟩
    · exact fun hn => ends (readRecordsBody_tooMany hn)
    · exact fun hn hbad => ends (readRecordsBody_unread hn hbad)
    · exact fun hn hok hwok => ends ((readRecordsBody_read hn hok).trans (cmdWriteThen_ok hwok))
    · exact fun hn hok hwbad => ends ((readRecordsBody_read hn hok).trans (cmdWriteThen_bad hwbad))

end Sys2Proof.Claims
end

section
/-!
SUPPORT. Fault notes, the loss of a neighbour, and retransmission (R298, R301-R306, R309): what is noted, declared and injected again, and
when.
-/
namespace Sys2Proof.Machine

variable {s : State}

/-! ## Notes (R301) -/

theorem State.noteFresh_eq_false_iff {kind key : Nat} :
    (s.noteFresh kind key).1 = false ↔ ∃ e ∈ s.notes, s.now < e.2.2 + 1000000000 ∧ e.1 = kind ∧ e.2.1 = key := by
  have hseen : (s.notes.filter fun e => s.now < e.2.2 + 1000000000).any (fun e => e.1 = kind && e.2.1 = key) = true ↔
      ∃ e ∈ s.notes, s.now < e.2.2 + 1000000000 ∧ e.1 = kind ∧ e.2.1 = key := by
    simp only [List.any_eq_true, List.mem_filter, Bool.and_eq_true, decide_eq_true_eq, and_assoc]
  rw [← hseen]
  unfold State.noteFresh
  dsimp only
  split
  · next h => exact iff_of_true rfl h
  · next h => exact iff_of_false (by simp) h

@[simp] theorem State.noteFresh_coord (kind key : Nat) : (s.noteFresh kind key).2.coord = s.coord := by
  unfold State.noteFresh
  dsimp only
  split <;> rfl

/-- A note names another module lost, of a slice that this module is in (R304). -/
theorem lostInSlice_iff {p : Pkt} {own : Nat} : (p.subject ≠ s.coord && p.sslice = own && own ≠ 0) = true ↔
    p.subject ≠ s.coord ∧ p.sslice = own ∧ p.sslice ≠ 0 := by
  simp only [Bool.and_eq_true, decide_eq_true_eq, and_assoc]
  exact and_congr_right fun _ => and_congr_right fun hown => by rw [hown]

theorem noteRow_taken {kinds : List Nat} {f : State → Pkt → State} {d : Desc} {t : State}
    (h : s.takeHead 19 (fun p => p.typ == tFAULTNOTE && kinds.contains p.noteKind) = some (d, t)) : noteRow kinds f s =
      let r := t.noteFresh 0 (d.pkt.reporter * 65536 + bitsOf (d.pkt.recWord 0) 32 16)
      if r.1 then done (f r.2 d.pkt) else done r.2 := by
  simp only [noteRow, h]

/-! ## The loss of a neighbour (R303, R304) -/

section
variable {dir : Fin 6} {m : Suspect} (hfind : s.suspects.find dir = some m)
include hfind

theorem execLostTimeExpiry_early (hearly : s.now < m.since + 1000000 ∨ m.coord = s.coord) : execLostTimeExpiry dir s = .next s := by
  simp only [execLostTimeExpiry, hfind]
  exact if_pos (by simpa using hearly)

variable (hlate : ¬ (s.now < m.since + 1000000 ∨ m.coord = s.coord))
include hlate

/-- A suspicion that has lasted for LOST_TIME ends with the declaration, which a module of the lost one's slice spreads and accepts. -/
theorem execLostTimeExpiry_late {f : List W64 × State}
    (hfault : ({ s with suspects := s.suspects.erase dir } : State).peerFault 0x05 3 (2 * dir) m.coord (BitVec.ofNat 64 m.since) 0 = f) :
    execLostTimeExpiry dir s =
      if s.get routeSlice_SLICE = s.get (lnkPeerInfo_SLICE (2 * dir)) ∧ s.get (lnkPeerInfo_SLICE (2 * dir)) ≠ 0 then
        done (((f.2.fanOut f.1 (f.2.members m.coord)).noteFresh 0x05 m.coord).2.setFpend)
      else done f.2 := by
  subst hfault
  simp only [execLostTimeExpiry, hfind]
  rw [if_neg (by simpa using hlate)]
  simp only [Bool.and_eq_true, decide_eq_true_eq]

end

/-! ## Retransmission (R298, R309) -/

section
variable {tag : BitVec 12} {pseq : BitVec 24} {r : Req}

/-- A request is already on its way again. -/
def State.Requeued (s : State) (r : Req) (tag : BitVec 12) (pseq : BitVec 24) : Prop :=
  ∃ i ∈ s.injq.get [] (injKey r.point), i.again = true ∧ i.pkt.coll = tag.toNat ∧ i.pkt.chunk = pseq.toNat

/-- A request is injected again as it was; the retransmission of a mirror is counted. -/
def State.sendAgain (s : State) (r : Req) : State :=
  (if r.pkt.typ = tMIRROR then s.recount 6 else s).inject (injKey r.point) ⟨r.pkt, true, false, r.slot, none, true⟩

theorem requeued_iff :
    ((s.injq.get [] (injKey r.point)).any fun i => i.again && i.pkt.coll = tag.toNat && i.pkt.chunk = pseq.toNat) = true ↔
      s.Requeued r tag pseq := by
  simp [State.Requeued, and_assoc]

variable (hfind : s.requests.find? (fun r => r.pkt.coll = tag.toNat && r.pkt.chunk = pseq.toNat) = some r)
include hfind

theorem execRequestRetransmit_waits (h : s.now < r.since + s.ageLimit + 1000000 ∨ s.Requeued r tag pseq) :
    execRequestRetransmit tag pseq s = .next s := by
  simp only [execRequestRetransmit, hfind]
  exact if_pos (by rwa [Bool.or_eq_true, decide_eq_true_eq, requeued_iff])

variable (hlate : ¬ s.now < r.since + s.ageLimit + 1000000) (hgone : ¬ s.Requeued r tag pseq)
include hlate hgone

/-- A request that is due is given up where it is a mirror of a cluster that has been sent three times again, else sent again. -/
theorem execRequestRetransmit_due : execRequestRetransmit tag pseq s = match r.slot with
    | some k =>
      if r.pkt.typ = tMIRROR ∧ 3 ≤ r.tries then .next ((s.dropReq r).slotAnswer r.cl k r.pkt rDECERR) else .next (s.sendAgain r)
    | none => .next (s.sendAgain r) := by
  simp only [execRequestRetransmit, hfind]
  rw [if_neg (by rw [Bool.or_eq_true, decide_eq_true_eq, requeued_iff]; exact not_or.mpr ⟨hlate, hgone⟩)]
  cases hslot : r.slot <;> simp [State.sendAgain, hslot]

theorem execRequestRetransmit_givesUp {k : Nat} (hslot : r.slot = some k) (hmirror : r.pkt.typ = tMIRROR) (htries : 3 ≤ r.tries) :
    execRequestRetransmit tag pseq s = .next ((s.dropReq r).slotAnswer r.cl k r.pkt rDECERR) := by
  rw [execRequestRetransmit_due hfind hlate hgone, hslot]
  exact if_pos ⟨hmirror, htries⟩

theorem execRequestRetransmit_again (h : ¬ (r.slot.isSome ∧ r.pkt.typ = tMIRROR ∧ 3 ≤ r.tries)) :
    execRequestRetransmit tag pseq s = .next (s.sendAgain r) := by
  rw [execRequestRetransmit_due hfind hlate hgone]
  cases hslot : r.slot with
  | none => rfl
  | some k => exact if_neg fun hlast => h ⟨by rw [hslot]; rfl, hlast⟩

end

end Sys2Proof.Machine

namespace Sys2Proof.Claims

open Sys2Proof.Machine

/-- A row that is a note's does what the row's function does. -/
theorem noteDoes_of_noteRow {i : Instr} {kinds : List Nat} {f g : State → Pkt → State} {row : State → Answer} {s : State}
    (hexec : exec i s = row s) (hrow : row s = noteRow kinds g s) (hsame : ∀ u p, g u p = f u p) : NoteDoes i kinds f s := by
  intro d t h r
  have hnote : exec i s = if r.1 then done (g r.2 d.pkt) else done r.2 := (hexec.trans hrow).trans (noteRow_taken h)
  exact ⟨fun hfresh => hsame r.2 d.pkt ▸ hnote.trans (if_pos hfresh), fun hseen => hnote.trans (if_neg (ne_true_of_eq_false hseen))⟩

/-- Each kind of note, and when a note is a copy. -/
theorem faultNotes : FaultNotes := by
  unfold FaultNotes
  intro s
  refine ⟨fun kind key => State.noteFresh_eq_false_iff, ?logged, ?probe, ?probeAck, ?lost⟩
  case logged => exact noteDoes_of_noteRow (row := execFaultNote) rfl rfl fun _ _ => rfl
  case probe => exact noteDoes_of_noteRow (row := execProbe) rfl rfl fun _ _ => rfl
  case probeAck => exact noteDoes_of_noteRow (row := execProbeAck) rfl rfl fun _ _ => rfl
  case lost =>
    refine noteDoes_of_noteRow (row := execModuleLost) rfl rfl fun u p => ?_
    by_cases hfresh : (u.noteFresh 0x05 p.subject).1 = true
    · simp only [hfresh, lostInSlice_iff, State.noteFresh_coord, Bool.not_true, Bool.false_eq_true, Bool.true_eq_false, if_false]
    · simp [hfresh]

/-- Suspected neighbours are probed, and declared lost after LOST_TIME. -/
theorem lossDeclared : LossDeclared := by
  unfold LossDeclared
  intro s dir
  refine ⟨rfl, fun m hfind => ?_⟩
  intro early ss f
  refine ⟨execLostTimeExpiry_early hfind, fun hlate hsame hslice => ?_, fun hlate hother => ?_⟩
  · exact (execLostTimeExpiry_late hfind hlate rfl).trans (if_pos ⟨hsame, hslice⟩)
  · refine (execLostTimeExpiry_late hfind hlate rfl).trans (if_neg ?_)
    rintro ⟨hsame, hslice⟩
    exact hother.elim (absurd hsame) hslice

/-- A request that is due and not on its way is sent again, or given up. -/
theorem retransmission : Retransmission := by
  unfold Retransmission
  intro s tag pseq r hfind queued early mirror
  refine ⟨execRequestRetransmit_waits hfind, fun hlate hgone => ⟨fun k => ?_, ?_⟩⟩
  · exact execRequestRetransmit_givesUp hfind hlate hgone
  · exact execRequestRetransmit_again hfind hlate hgone

/-- Settles O53, part by part. -/
theorem faultsAndLoss : Obligations.FaultsAndLoss := ⟨faultNotes, lossDeclared, retransmission⟩

end Sys2Proof.Claims
end

section
/-!
SUPPORT. The close of a generation and a restore (R311, R315, R316): what each event comes to in the mirror engine.
-/
namespace Sys2Proof.Machine

variable {s : State}

/-! ## The close of a generation (R311) -/

theorem State.mirrorSeal_closing {q : Nat} {st g : W64} (hrun : s.closingRun = some (q, st, g)) (hopen : s.mirror.opened = true)
    (hsealing : s.mirror.sealing = false) (hdone : s.mirrorsRun g = false) :
    s.mirrorSeal = if g ∈ s.mirror.bad then (s.mirrorClosed q st g false eOK).mirrorAdvance
      else ({ s with mirror := { s.mirror with sealing := true } }).mirrorHeader true st g := by
  simp [State.mirrorSeal, hrun, hopen, hsealing, hdone, State.modMirror]

/-! ## A restore (R315, R316) -/

theorem execRestoreReq_held (h : s.accHeld 0x132 = true) : execRestoreReq s = .next s := if_pos h

theorem execRestoreReq_served (h : s.accHeld 0x132 = false) : execRestoreReq s = noteRow [0x0A] State.serveRestore s :=
  if_neg (ne_true_of_eq_false h)

theorem State.serveRestore_notWard {p : Pkt} {b : MirrorBind} (hbind : s.mirror.bind = some b)
    (hward : b.wardEn = false ∨ b.ward ≠ p.reporter) : s.serveRestore p = s.restoreEnd p.reporter (p.recWord 4) 0 ePARAM := by
  simp only [State.serveRestore, hbind]
  exact if_pos (by simpa using hward)

/-- A restore has run out of time: the window is open and nothing has arrived for 10 ms. -/
def State.RestoreLate (s : State) : Prop := s.mirror.window.isSome = true ∧ s.mirror.windowAt + 10000000 ≤ s.now

theorem restoreLate_iff : (s.mirror.window.isSome && s.mirror.windowAt + 10000000 ≤ s.now) = true ↔ s.RestoreLate := by
  simp [State.RestoreLate]

theorem execRestoreTimeout_late (h : s.RestoreLate) : execRestoreTimeout s = done (s.restoreDone eFAULT s.mirror.windowBytes) :=
  if_pos (restoreLate_iff.mpr h)

theorem execRestoreTimeout_early (h : ¬ s.RestoreLate) : execRestoreTimeout s = .next s := if_neg (mt restoreLate_iff.mp h)

end Sys2Proof.Machine

namespace Sys2Proof.Claims

open Sys2Proof.Machine

/-- Settles O27, event by event. -/
theorem restoreCommands : Obligations.RestoreCommands := by
  unfold Obligations.RestoreCommands
  intro s
  refine ⟨rfl, fun q st g => State.mirrorSeal_closing, execRestoreReq_held, fun hfree => ?request, fun p b => State.serveRestore_notWard,
    ?restoreEnd, execRestoreTimeout_late, execRestoreTimeout_early⟩
  case request => exact noteDoes_of_noteRow (row := execRestoreReq) rfl (execRestoreReq_served hfree) fun _ _ => rfl
  case restoreEnd =>
    refine noteDoes_of_noteRow (row := execRestoreEnd) rfl rfl fun u p => ?_
    cases u.mirror.bind with
    | none => rfl
    | some b =>
      cases u.mirror.window with
      | none => rfl
      | some w => simp

end Sys2Proof.Claims
end

section
/-!
SUPPORT. BIND_STEP (R319-R324): what its rows and the binding of the step come to, and whether SCH takes it or it waits already.
-/
namespace Sys2Proof.Machine

variable {s : State} {q : Fin 64} {c : Cmd}

/-! ## The step's binding (R323, R324) -/

/-- Every cluster holds the step of a BIND_STEP, what belongs to earlier steps is closed, and its table is the one bound. -/
def State.stepInForce (s : State) (c : Cmd) : State :=
  { ((List.range 128).foldl (fun s n => s.wr (clJstep n) (c.word 1)) s).closeBelow (c.word 1) with stepTable := some (c.addr 2, c.nrows) }

/-- The binding record of a BIND_STEP. -/
def State.stepRecord (s : State) (c : Cmd) : List Byte :=
  wordsBytes [c.word 1, BitVec.ofNat 64 (c.addr 2), BitVec.ofNat 64 (c.nrows + c.tclr.toNat * 2 ^ 15), s.cone]

theorem stepBound_unrecorded (haddr : c.addr 3 = 0) : stepBound s c = .fin (s.stepInForce c) eOK (s.stepInForce c).cone := if_pos haddr

theorem stepBound_recorded (haddr : c.addr 3 ≠ 0) : stepBound s c =
    (s.stepInForce c).cmdWriteThen 0x122 (c.addr 3) ((s.stepInForce c).stepRecord c) fun t => .fin t eOK (s.stepInForce c).cone :=
  if_neg haddr

/-! ## The rows (R320-R322) -/

section
variable {r : State × Nat} (hcheck : s.checkRows (c.addr 2) 0 c.nrows = r)
include hcheck

theorem stepRows_invalid (hbad : r.2 ≠ eOK) : stepRows s c = .fin r.1 r.2 0 := by
  subst hcheck
  exact if_pos hbad

variable (hok : r.2 = eOK) {w : State × Nat} (hwrite : r.1.writeRows (c.addr 2) (c.word 1).toNat 0 c.nrows = w)
include hok hwrite

/-- Rows that are valid are written, and then the bitmap is cleared or the step is bound. -/
theorem stepRows_valid : stepRows s c =
    if w.2 ≠ eOK then .fin w.1 w.2 0
    else if c.tclr then .run (w.1.busWrite 0x122 (regAddr klnTouchCtrl) (bytesLE 8 (setBits (w.1.rd klnTouchCtrl) 1 1 1).toNat)).1 .bindClear
    else stepBound w.1 c := by
  subst hcheck hwrite
  exact if_neg (not_not_intro hok)

theorem stepRows_unwritten (hbad : w.2 ≠ eOK) : stepRows s c = .fin w.1 w.2 0 := by
  rw [stepRows_valid hcheck hok hwrite, if_pos hbad]

variable (hwok : w.2 = eOK)
include hwok

theorem stepRows_clear (htclr : c.tclr = true) : stepRows s c =
    .run (w.1.busWrite 0x122 (regAddr klnTouchCtrl) (bytesLE 8 (setBits (w.1.rd klnTouchCtrl) 1 1 1).toNat)).1 .bindClear := by
  rw [stepRows_valid hcheck hok hwrite, if_neg (not_not_intro hwok), if_pos htclr]

theorem stepRows_bind (htclr : c.tclr = false) : stepRows s c = stepBound w.1 c := by
  rw [stepRows_valid hcheck hok hwrite, if_neg (not_not_intro hwok), if_neg (ne_true_of_eq_false htclr)]

end

/-! ## Going on or waiting (R323) -/

/-- A BIND_STEP that SCH takes goes on at once: step 1 allows it, and no other BIND_STEP is in progress. -/
def State.StepFirst (s : State) (c : Cmd) : Prop := s.stepReady c = true ∧ ∀ r ∈ s.runs, r.op ≠ 0x13

theorem stepFirst_iff : (s.stepReady c && !(s.runs.any (·.op == 0x13))) = true ↔ s.StepFirst c := by
  simp [State.StepFirst]

theorem bindStepBody_first (h : s.StepFirst c) : bindStepBody s c = stepRows s c := if_pos (stepFirst_iff.mpr h)

theorem bindStepBody_waits (h : ¬ s.StepFirst c) : bindStepBody s c = .run s .bindWait := if_neg (mt stepFirst_iff.mp h)

/-- A BIND_STEP that SCH takes is not the one that waits at its queue's head. -/
theorem execBindStep_taken (h : SchTakes s q c) : execBindStep q s = schRow q (·.op == 0x13) bindStepBody s := by
  rw [execBindStep, schPick_runAt h.1]

theorem execBindStep_waiting {r : Run} {l : List Cmd} (hrun : s.runAt q = some r) (hkind : r.kind = .bindWait)
    (hqueue : s.queue q = c :: l) (htakes : s.schTakes = true) (hstop : s.orphanStop = false) :
    execBindStep q s = done (s.stepResume q c) := by
  rw [execBindStep, hrun, hqueue]
  simp [hkind, htakes, hstop]

/-- A BIND_STEP that waits may go on: step 1 allows it, and it is the first in progress. -/
def State.MayResume (s : State) (q : Nat) (c : Cmd) : Prop := s.stepReady c = true ∧ (s.runs.find? (·.op == 0x13)).map (·.q) = some q

theorem mayResume_iff {k : Nat} : (s.stepReady c && (s.runs.find? (·.op == 0x13)).map (·.q) == some k) = true ↔ s.MayResume k c := by
  simp only [State.MayResume, Bool.and_eq_true, beq_iff_eq]

section
variable {k : Nat}

theorem stepResume_ended (hended : s.mstate ≤ mREADY ∨ s.mstate = mFENCED) : s.stepResume k c = s.endRun k eSTATE 0 :=
  if_pos (by simpa using hended)

variable (hlives : ¬ (s.mstate ≤ mREADY ∨ s.mstate = mFENCED))
include hlives

theorem stepResume_goesOn (hmay : s.MayResume k c) : s.stepResume k c = ((stepRows s c).settle k 0x13).schReady := by
  rw [State.stepResume, if_neg (by simpa using hlives), if_pos (mayResume_iff.mpr hmay)]

theorem stepResume_waits (hmay : ¬ s.MayResume k c) : s.stepResume k c = s := by
  rw [State.stepResume, if_neg (by simpa using hlives), if_neg (mt mayResume_iff.mp hmay)]

end

end Sys2Proof.Machine

namespace Sys2Proof.Claims

open Sys2Proof.Machine

/-- Settles O30: the command as SCH takes it, by the first of its steps that ends it, and the command that waits. -/
theorem stepBinding : Obligations.StepBinding := by
  unfold Obligations.StepBinding
  intro s q c o
  refine ⟨fun hp hop => ?taken, fun r l hrun hkind hqueue htakes hstop => ?waiting⟩
  case taken =>
    intro u first
    have hrow : o = schRow q (·.op == 0x13) bindStepBody s := execBindStep_taken hp.takes
    have hwant : (c.op == 0x13) = true := beq_iff_eq.mpr hop
    have goesOn {t : State} {k : RunKind} (hbody : bindStepBody u c = .run t k) : GoesOn o t q 0x13 k := by
      have hgoes := schRow_goesOn (want := (·.op == 0x13)) hp hwant hbody
      rwa [hop, ← hrow] at hgoes
    refine ⟨fun hwait => goesOn (bindStepBody_waits hwait), fun hfirst => ?_⟩
    intro r w clr
    have ends {t : State} {code : Nat} {res : W64} (hrows : stepRows u c = .fin t code res) : Ends o t q code res :=
      hrow ▸ schRow_ends hp hwant ((bindStepBody_first hfirst).trans hrows)
    refine ⟨?_, ?_, ?_, ?_⟩
    · exact fun hbad => ends (stepRows_invalid rfl hbad)
    · exact fun hok hbad => ends (stepRows_unwritten rfl hok rfl hbad)
    · exact fun hok hwok htclr => goesOn ((bindStepBody_first hfirst).trans (stepRows_clear rfl hok rfl hwok htclr))
    · intro hok hwok htclr
      have hbind : stepRows u c = stepBound w.1 c := stepRows_bind rfl hok rfl hwok htclr
      refine ⟨fun haddr => ends (hbind.trans (stepBound_unrecorded haddr)), fun haddr hxok => ?_, fun haddr hxbad => ?_⟩
      · exact ends (hbind.trans ((stepBound_recorded haddr).trans (cmdWriteThen_ok hxok)))
      · exact ends (hbind.trans ((stepBound_recorded haddr).trans (cmdWriteThen_bad hxbad)))
  case waiting =>
    intro ended may
    have hrow : o = done (s.stepResume q c) := execBindStep_waiting hrun hkind hqueue htakes hstop
    refine ⟨fun hended => ?_, fun hlives hmay => ?_, fun hlives hmay => ?_⟩
    · exact hrow.trans (congrArg done (stepResume_ended hended))
    · exact hrow.trans (congrArg done (stepResume_goesOn hlives hmay))
    · exact hrow.trans (congrArg done (stepResume_waits hlives hmay))

end Sys2Proof.Claims
end

section
/-!
SUPPORT. mix64 (R344): f is made of functions that have inverses, and so is mix64 with either argument held.
-/
namespace Sys2Proof.Machine

/-! ## Functions of a word that have an inverse -/

/-- A function of a word that some function undoes from both sides: a bijection. -/
def HasInverse (f : W64 → W64) : Prop := ∃ g, Function.LeftInverse g f ∧ Function.RightInverse g f

section
variable {f h : W64 → W64}

theorem HasInverse.injective (hf : HasInverse f) {y z : W64} (heq : f y = f z) : y = z := by
  obtain ⟨g, hleft, _⟩ := hf
  rw [← hleft y, heq, hleft z]

theorem HasInverse.surjective (hf : HasInverse f) (z : W64) : ∃ y, f y = z := by
  obtain ⟨g, _, hright⟩ := hf
  exact ⟨g z, hright z⟩

theorem HasInverse.comp (hh : HasInverse h) (hf : HasInverse f) : HasInverse (h ∘ f) := by
  obtain ⟨k, hkh, hhk⟩ := hh
  obtain ⟨g, hgf, hfg⟩ := hf
  refine ⟨g ∘ k, fun z => ?_, fun z => ?_⟩
  · exact (congrArg g (hkh (f z))).trans (hgf z)
  · exact (congrArg h (hfg (k z))).trans (hhk z)

end

theorem hasInverse_mul {m n : W64} (hmn : m * n = 1) : HasInverse (· * m) := by
  have cancel {a b : W64} (hab : a * b = 1) (z : W64) : z * a * b = z := by
    rw [BitVec.mul_assoc, hab]
    exact BitVec.mul_one z
  exact ⟨(· * n), cancel hmn, cancel ((BitVec.mul_comm n m).trans hmn)⟩

theorem hasInverse_xor (b : W64) : HasInverse (· ^^^ b) := by
  have cancel (z : W64) : z ^^^ b ^^^ b = z := by rw [BitVec.xor_assoc, BitVec.xor_self, BitVec.xor_zero]
  exact ⟨(· ^^^ b), cancel, cancel⟩

theorem hasInverse_add (a : W64) : HasInverse (· + a) :=
  ⟨(· - a), fun z => BitVec.add_sub_cancel z a, fun z => BitVec.sub_add_cancel z a⟩

/-! ## The shifts of f -/

/-- A word xored with its own shift, as f does three times (R344). -/
def xorShift (k : Nat) (z : W64) : W64 := z ^^^ (z >>> k)

/-- Done twice, the parts that one shift moved cancel. -/
theorem xorShift_xorShift (k : Nat) (z : W64) : xorShift k (xorShift k z) = xorShift (k + k) z :=
  calc xorShift k (xorShift k z)
    _ = z ^^^ ((z >>> k) ^^^ (z >>> k)) ^^^ (z >>> k >>> k) := by
      simp only [xorShift, BitVec.ushiftRight_xor_distrib, BitVec.xor_assoc]
    _ = xorShift (k + k) z := by rw [BitVec.xor_self, BitVec.xor_zero, ← BitVec.shiftRight_add, xorShift]

theorem xorShift_wide {k : Nat} (hk : 64 ≤ k) (z : W64) : xorShift k z = z := by
  rw [xorShift, BitVec.ushiftRight_eq_zero hk, BitVec.xor_zero]

/-- Done four times, a shift by 16 or more has left the word, so that three undo one. -/
theorem hasInverse_xorShift {k : Nat} (hk : 16 ≤ k) : HasInverse (xorShift k) := by
  have four (z : W64) : xorShift k (xorShift k (xorShift k (xorShift k z))) = z := by
    rw [xorShift_xorShift, xorShift_xorShift, xorShift_xorShift, xorShift_wide (by omega)]
  exact ⟨fun z => xorShift k (xorShift k (xorShift k z)), four, four⟩

/-! ## f and mix64 -/

theorem mixF_eq :
    mixF = xorShift 31 ∘ (· * 0x94D049BB133111EB) ∘ xorShift 27 ∘ (· * 0xBF58476D1CE4E5B9) ∘ xorShift 30 := rfl

/-- f (R344): its multiplications are by odd constants, whose inverses modulo 2^64 are given. -/
theorem hasInverse_mixF : HasInverse mixF := by
  have hfirst : HasInverse (· * 0xBF58476D1CE4E5B9) := hasInverse_mul (n := 0x96DE1B173F119089) (by decide)
  have hsecond : HasInverse (· * 0x94D049BB133111EB) := hasInverse_mul (n := 0x319642B2D24D8EC3) (by decide)
  rw [mixF_eq]
  exact (hasInverse_xorShift (by decide)).comp
    (hsecond.comp ((hasInverse_xorShift (by decide)).comp (hfirst.comp (hasInverse_xorShift (by decide)))))

theorem mix64_eq_right (a : W64) : mix64 a = mixF ∘ (· ^^^ mixF (a + 0x9E3779B97F4A7C15)) :=
  funext fun b => congrArg mixF (BitVec.xor_comm _ b)

theorem mix64_eq_left (b : W64) : (mix64 · b) = mixF ∘ (· ^^^ b) ∘ mixF ∘ (· + 0x9E3779B97F4A7C15) := rfl

theorem hasInverse_mix64_right (a : W64) : HasInverse (mix64 a) := by
  rw [mix64_eq_right]
  exact hasInverse_mixF.comp (hasInverse_xor _)

theorem hasInverse_mix64_left (b : W64) : HasInverse (mix64 · b) := by
  rw [mix64_eq_left]
  exact hasInverse_mixF.comp ((hasInverse_xor b).comp (hasInverse_mixF.comp (hasInverse_add _)))

end Sys2Proof.Machine

namespace Sys2Proof.Claims

open Sys2Proof.Machine

/-- Settles O17: both functions are the rule's as they stand, and the rest is that f and mix64 have inverses. -/
theorem mix64Bijective : Obligations.Mix64Bijective := by
  unfold Obligations.Mix64Bijective
  refine ⟨fun _ => rfl, fun _ _ => rfl, fun _ _ => hasInverse_mixF.injective, hasInverse_mixF.surjective, ?_, ?_, ?_, ?_⟩
  · exact fun a _ _ => (hasInverse_mix64_right a).injective
  · exact fun _ _ c => (hasInverse_mix64_left c).injective
  · exact fun a => (hasInverse_mix64_right a).surjective
  · exact fun b => (hasInverse_mix64_left b).surjective

end Sys2Proof.Claims
end

section
/-!
SUPPORT. What SEC serves (R349-R352, R406, R407, R424, R430, R434, R435, R437, R471): what ATTEST, PROVENANCE_DONE, ZEROISE and
ACTIVATE_FW come to.
-/
namespace Sys2Proof.Machine

variable {s : State} {q : Fin 64} {c : Cmd}

/-! ## The frame of ATTEST (R350, R430, R435) -/

/-- SEC serves, and its identity key is alive to certify. -/
def State.CanAttest (s : State) : Prop := s.secServes = true ∧ s.sec.idkDead = false

theorem not_canAttest_iff : (!s.secServes || s.sec.idkDead) = true ↔ ¬ s.CanAttest := by
  simp only [State.CanAttest, Classical.not_and_iff_not_or_not, Bool.or_eq_true, Bool.not_eq_true', Bool.not_eq_true,
    Bool.not_eq_false]

theorem isAttest_of {k : Nat} (hop : c.op = 0x15) (hkind : bitsOf (c.word 1) 0 4 = k) : isAttest k c = true := by
  simp [isAttest, hop, hkind]

section
variable {k : Nat} {body : State → Cmd → CmdEnd} (hp : Passes s q c) (hkind : isAttest k c = true)
include hp hkind

theorem attestRow_cannot (hno : ¬ (served s q).CanAttest) : Ends (attestRow k body q s) (served s q) q eFAULT :=
  schRow_ends hp hkind (if_pos (not_canAttest_iff.mpr hno))

variable (hcan : (served s q).CanAttest)
include hcan

theorem attestRow_ends {t : State} {code : Nat} {res : W64} (hbody : body (served s q) c = .fin t code res) :
    Ends (attestRow k body q s) t q code res :=
  schRow_ends hp hkind ((if_neg (mt not_canAttest_iff.mp (not_not_intro hcan))).trans hbody)

theorem attestRow_goesOn {t : State} {run : RunKind} (hbody : body (served s q) c = .run t run) :
    GoesOn (attestRow k body q s) t q c.op run :=
  schRow_goesOn hp hkind ((if_neg (mt not_canAttest_iff.mp (not_not_intro hcan))).trans hbody)

end

/-! ## Kinds CERTS and MEASURE: the answer at OUT -/

/-- OUT is aligned, and the answer lies in HBM and fits MAXLEN. -/
def OutFits (req out : List Byte) : Prop :=
  tokField req 0 8 % 64 = 0 ∧ spanHbm (tokField req 0 8) out.length = true ∧ out.length ≤ tokField req 8 8

section
variable {req out : List Byte}

theorem not_outFits_iff : (tokField req 0 8 % 64 ≠ 0 || !spanHbm (tokField req 0 8) out.length
    || tokField req 8 8 < out.length) = true ↔ ¬ OutFits req out := by
  simp only [OutFits, Classical.not_and_iff_not_or_not, Bool.or_eq_true, Bool.not_eq_true', Bool.not_eq_true, decide_eq_true_eq,
    ne_eq, Nat.not_le, or_assoc]

theorem attestOut_misfit (h : ¬ OutFits req out) : attestOut s req out = .fin s ePARAM 0 := if_pos (not_outFits_iff.mpr h)

theorem attestOut_fits (h : OutFits req out) : attestOut s req out =
    s.cmdWriteThen 0x120 (tokField req 0 8) out fun t => .fin t eOK (BitVec.ofNat 64 out.length) :=
  if_neg (mt not_outFits_iff.mp (not_not_intro h))

/-- An ATTEST that comes to its answer is refused by OUT or by the write, or gives the answer's length. -/
theorem attestRow_writes {k : Nat} {body : State → Cmd → CmdEnd} {v : State} (hp : Passes s q c) (hkind : isAttest k c = true)
    (hcan : (served s q).CanAttest) (hbody : body (served s q) c = attestOut v req out) :
    let o := attestRow k body q s
    let w := v.cmdWrite 0x120 (tokField req 0 8) out
    (¬ OutFits req out → Ends o v q ePARAM) ∧ (OutFits req out → w.2 ≠ eOK → Ends o w.1 q w.2)
      ∧ (OutFits req out → w.2 = eOK → Ends o w.1 q eOK (BitVec.ofNat 64 out.length)) := by
  have ends {t : State} {code : Nat} {res : W64} (hout : attestOut v req out = .fin t code res) :
      Ends (attestRow k body q s) t q code res := attestRow_ends hp hkind hcan (hbody.trans hout)
  refine ⟨fun hbad => ?_, fun hfits hbad => ?_, fun hfits hok => ?_⟩
  · exact ends (attestOut_misfit hbad)
  · exact ends ((attestOut_fits hfits).trans (cmdWriteThen_bad hbad))
  · exact ends ((attestOut_fits hfits).trans (cmdWriteThen_ok hok))

end

/-! ## Kind ENROLL (R430, R471) -/

/-- The owner's key in the request of an ENROLL. -/
def enrolKey (b : List Byte) : List Byte := (b.drop 16).take 96

/-- The owner's key is a point of the curve. -/
def KeyValid (b : List Byte) : Prop := ecValid (beField (enrolKey b) 0 48) (beField (enrolKey b) 48 48) = true

theorem not_keyValid_iff {b : List Byte} :
    (!ecValid (beField (enrolKey b) 0 48) (beField (enrolKey b) 48 48)) = true ↔ ¬ KeyValid b := by
  rw [Bool.not_eq_true', KeyValid, Bool.not_eq_true]

/-- What an ENROLL comes to with the bytes of its request. -/
def enrolRead (s : State) (b : List Byte) : CmdEnd :=
  if !ecValid (beField (enrolKey b) 0 48) (beField (enrolKey b) 48 48) then .fin s ePARAM 0
  else if s.sec.ownerHash ≠ 0 then .fin s eAUTH 0
  else if s.flag sysState_EMERG then .fin s eBUSY 0
  else if s.fusesFree then .fin (s.enrol (sha384 (enrolKey b))) eOK 0
  else .run (s.modSec fun x => { x with enrolPend := some (sha384 (enrolKey b)) }) .enrolling

theorem enrolBody_eq : enrolBody s c = s.cmdReadThen 0x120 (c.addr 2) 128 enrolRead := rfl

section
variable {b : List Byte}

theorem enrolRead_badKey (hkey : ¬ KeyValid b) : enrolRead s b = .fin s ePARAM 0 := if_pos (not_keyValid_iff.mpr hkey)

variable (hkey : KeyValid b)
include hkey

theorem enrolRead_owned (howner : s.sec.ownerHash ≠ 0) : enrolRead s b = .fin s eAUTH 0 := by
  rw [enrolRead, if_neg (mt not_keyValid_iff.mp (not_not_intro hkey)), if_pos howner]

variable (howner : s.sec.ownerHash = 0)
include howner

theorem enrolRead_emergency (hemerg : s.flag sysState_EMERG = true) : enrolRead s b = .fin s eBUSY 0 := by
  rw [enrolRead, if_neg (mt not_keyValid_iff.mp (not_not_intro hkey)), if_neg (not_not_intro howner), if_pos hemerg]

variable (hemerg : s.flag sysState_EMERG = false)
include hemerg

/-- An ENROLL that nothing refuses blows the fuses, or waits for them. -/
theorem enrolRead_enrols : enrolRead s b = if s.fusesFree then .fin (s.enrol (sha384 (enrolKey b))) eOK 0
    else .run (s.modSec fun x => { x with enrolPend := some (sha384 (enrolKey b)) }) .enrolling := by
  rw [enrolRead, if_neg (mt not_keyValid_iff.mp (not_not_intro hkey)), if_neg (not_not_intro howner),
    if_neg (ne_true_of_eq_false hemerg)]

theorem enrolRead_fusesFree (hfree : s.fusesFree = true) : enrolRead s b = .fin (s.enrol (sha384 (enrolKey b))) eOK 0 :=
  (enrolRead_enrols hkey howner hemerg).trans (if_pos hfree)

theorem enrolRead_fusesTaken (hfree : s.fusesFree = false) : enrolRead s b =
    .run (s.modSec fun x => { x with enrolPend := some (sha384 (enrolKey b)) }) .enrolling :=
  (enrolRead_enrols hkey howner hemerg).trans (if_neg (ne_true_of_eq_false hfree))

end

/-! ## Kind PROVENANCE (R350, R352) -/

/-- What a PROVENANCE comes to with the bytes of its request. -/
def provRead (s : State) (b : List Byte) : CmdEnd :=
  if !provOk b then .fin s ePARAM 0 else .run ((s.put digProv_BUSY 1).put digProv_BYTES 0) (.provenance b)

theorem provBody_eq : provBody s c = s.cmdReadThen 0x122 (c.addr 2) 256 provRead := rfl

theorem provRead_bad {b : List Byte} (h : provOk b = false) : provRead s b = .fin s ePARAM 0 := if_pos (by rw [h]; rfl)

theorem provRead_good {b : List Byte} (h : provOk b = true) :
    provRead s b = .run ((s.put digProv_BUSY 1).put digProv_BYTES 0) (.provenance b) := if_neg (by simp [h])

/-- The end of the engine's hashing writes the record and completes the command, where HOLD does not keep the engine. -/
theorem execProvenanceDone_hashed {k : Nat} {b : List Byte}
    (hrun : (s.runs.findSome? fun r => match r.kind with | .provenance b => some (r.q, b) | _ => none) = some (k, b)) :
    execProvenanceDone s = if s.accHeld 0x130 then .next s
      else done ((((s.provWrite b).1.put digProv_BUSY 0).put digProv_STATUS (s.provWrite b).2).endRun k (s.provWrite b).2 0) := by
  unfold execProvenanceDone
  split
  · next hfound =>
    cases hfound.symm.trans hrun
    rfl
  · next hfound => cases hfound.symm.trans hrun

/-! ## ZEROISE (R434, R435, R437) -/

/-- What a ZEROISE of scope 0 comes to. -/
def zeroiseEphemeralBody (s : State) (_ : Cmd) : CmdEnd :=
  if !s.procRuns .sec then .fin s eFAULT 0 else .fin (s.zeroise 0) eOK 0

theorem execZeroiseEphemeral_eq :
    execZeroiseEphemeral q s = schRow q (fun c => c.op == 0x16 && !(c.word 1).getLsbD 0) zeroiseEphemeralBody s := rfl

theorem zeroiseEphemeralBody_stopped (h : s.procRuns .sec = false) : zeroiseEphemeralBody s c = .fin s eFAULT 0 := if_pos (by rw [h]; rfl)

theorem zeroiseEphemeralBody_runs (h : s.procRuns .sec = true) : zeroiseEphemeralBody s c = .fin (s.zeroise 0) eOK 0 :=
  if_neg (by simp [h])

/-- What a ZEROISE of scope 1 comes to with the bytes of its token. -/
def zeroiseToken (s : State) (b : List Byte) : CmdEnd :=
  let r := s.checkToken b 2 0
  if r.1 then .fin (((r.2.modSec fun x => { x with idkDead := true }).put secFuses_IDK_DEAD 1).zeroise 1) eOK 0
  else .fin r.2 eAUTH 0

theorem zeroiseToken_passes {b : List Byte} (h : (s.checkToken b 2 0).1 = true) : zeroiseToken s b =
    .fin ((((s.checkToken b 2 0).2.modSec fun x => { x with idkDead := true }).put secFuses_IDK_DEAD 1).zeroise 1) eOK 0 := if_pos h

theorem zeroiseToken_fails {b : List Byte} (h : (s.checkToken b 2 0).1 = false) :
    zeroiseToken s b = .fin (s.checkToken b 2 0).2 eAUTH 0 := if_neg (ne_true_of_eq_false h)

theorem zeroiseBody_noSec (h : s.secServes = false) : zeroiseBody s c = .fin s eFAULT 0 := if_pos (by rw [h]; rfl)

section
variable (hsec : s.secServes = true)
include hsec

theorem zeroiseBody_emergency (h : s.flag sysState_EMERG = true) : zeroiseBody s c = .fin s eBUSY 0 := by
  rw [zeroiseBody, if_neg (by simp [hsec]), if_pos h]

theorem zeroiseBody_asks (h : s.flag sysState_EMERG = false) :
    zeroiseBody s c = s.cmdReadThen 0x120 (c.addr 2) 256 zeroiseToken := by
  rw [zeroiseBody, if_neg (by simp [hsec]), if_neg (ne_true_of_eq_false h)]
  rfl

end

/-! ## ACTIVATE_FW (R406, R407, R424, R471) -/

/-- What an ACTIVATE_FW comes to; the one that goes on may complete at once. -/
def activateEnd (q : Nat) (s : State) (c : Cmd) : CmdEnd :=
  match activateBody q s c with
  | .run t k _ => .run t k State.fwSettle
  | .fin t code res => .fin t code res

theorem execActivateFw_eq : execActivateFw q s = schRow q (·.op == 0x10) (activateEnd q) s := rfl

/-- An emergency while an image operation runs: nothing can be verified. -/
def State.FwHeld (s : State) : Prop := s.flag sysState_EMERG = true ∧ s.imgRunning = true

theorem fwHeld_iff : (s.flag sysState_EMERG && s.imgRunning) = true ↔ s.FwHeld := Bool.and_eq_true_iff

section
variable {n : Nat}

theorem activateEnd_noSec (h : s.secServes = false) : activateEnd n s c = .fin s eFAULT 0 := by
  rw [activateEnd, activateBody, if_pos (by simp [h])]

variable (hsec : s.secServes = true)
include hsec

theorem activateEnd_held (h : s.FwHeld) : activateEnd n s c = .fin (s.deferFw n c) eDEFERRED 0 := by
  rw [activateEnd, activateBody, if_neg (by simp [hsec]), if_pos (fwHeld_iff.mpr h)]

variable (hfree : ¬ s.FwHeld)
include hfree

theorem activateEnd_unverified (h : s.fwVerified c = none) : activateEnd n s c = .fin s eAUTH 0 := by
  rw [activateEnd, activateBody, if_neg (by simp [hsec]), if_neg (mt fwHeld_iff.mp hfree), h]

variable {copy : Nat} (hcopy : s.fwVerified c = some copy)
include hcopy

theorem activateEnd_emergency (h : s.flag sysState_EMERG = true) : activateEnd n s c = .fin (s.deferFw n c) eDEFERRED 0 := by
  rw [activateEnd, activateBody, if_neg (by simp [hsec]), if_neg (mt fwHeld_iff.mp hfree), hcopy]
  simp only [if_pos h]

theorem activateEnd_restarts (h : s.flag sysState_EMERG = false) :
    activateEnd n s c = .run (s.fwRestart c copy) (.activating c.fwProc) State.fwSettle := by
  rw [activateEnd, activateBody, if_neg (by simp [hsec]), if_neg (mt fwHeld_iff.mp hfree), hcopy]
  simp only [if_neg (ne_true_of_eq_false h)]

end

/-! ## A held ACTIVATE_FW runs (R407) -/

/-- A held activation waits: EMERGENCY has not been clear for 1 s, an image operation runs, or SCH takes no commands. -/
def State.DeferWaits (s : State) : Prop :=
  s.flag sysState_EMERG = true ∨ s.now < s.emergClearAt.toNat + 1000000000 ∨ s.imgRunning = true ∨ s.schTakes = false

theorem deferWaits_iff :
    (s.flag sysState_EMERG || s.now < s.emergClearAt.toNat + 1000000000 || s.imgRunning || !s.schTakes) = true ↔ s.DeferWaits := by
  simp only [State.DeferWaits, Bool.or_eq_true, Bool.not_eq_true', decide_eq_true_eq, or_assoc]

/-- The held activation of a processor is no longer held. -/
def State.undefer (s : State) (p : Nat) : State :=
  { s with defers := s.defers.erase p }.put sysFwSlot_DEFER (s.get sysFwSlot_DEFER &&& (15 - 2 ^ p))

section
variable {p : Fin 4} {k : Nat} (hheld : s.defers.find p.val = some (k, c))
include hheld

theorem execActivateFwDeferredRun_waits (h : s.DeferWaits) : execActivateFwDeferredRun p s = .next s := by
  rw [execActivateFwDeferredRun, hheld]
  exact if_pos (deferWaits_iff.mpr h)

variable (hdue : ¬ s.DeferWaits)
include hdue

/-- A held activation that is due is verified as one that SCH takes. -/
theorem execActivateFwDeferredRun_due {verified : Option Nat} (h : (s.undefer p).fwVerified c = verified) :
    execActivateFwDeferredRun p s =
      if !(s.undefer p).secServes then done ((s.undefer p).completeCmd k c eFAULT 0)
      else match verified with
        | none => done ((s.undefer p).completeCmd k c eAUTH 0)
        | some copy =>
          done { (s.undefer p).fwRestart c copy with deferRuns := (s.undefer p).deferRuns.insert p.val (k, c) }.fwSettle := by
  rw [execActivateFwDeferredRun, hheld]
  refine (if_neg (mt deferWaits_iff.mp hdue)).trans (ite_congr rfl (fun _ => rfl) fun _ => ?_)
  -- branch by branch: comparing the two matches whole would evaluate the verification
  split
  · next hnone =>
    cases h.symm.trans hnone
    rfl
  · next hsome =>
    cases h.symm.trans hsome
    rfl

theorem execActivateFwDeferredRun_noSec (h : (s.undefer p).secServes = false) :
    execActivateFwDeferredRun p s = done ((s.undefer p).completeCmd k c eFAULT 0) := by
  rw [execActivateFwDeferredRun_due hheld hdue rfl, if_pos (by simp [h])]

variable (hsec : (s.undefer p).secServes = true)
include hsec

theorem execActivateFwDeferredRun_unverified (h : (s.undefer p).fwVerified c = none) :
    execActivateFwDeferredRun p s = done ((s.undefer p).completeCmd k c eAUTH 0) := by
  rw [execActivateFwDeferredRun_due hheld hdue h, if_neg (by simp [hsec])]

theorem execActivateFwDeferredRun_restarts {copy : Nat} (h : (s.undefer p).fwVerified c = some copy) :
    execActivateFwDeferredRun p s =
      done { (s.undefer p).fwRestart c copy with deferRuns := (s.undefer p).deferRuns.insert p.val (k, c) }.fwSettle := by
  rw [execActivateFwDeferredRun_due hheld hdue h, if_neg (by simp [hsec])]

end

end Sys2Proof.Machine

namespace Sys2Proof.Claims

open Sys2Proof.Machine

/-- ATTEST by its kind, ZEROISE by its scope: each answers by the first of its checks that fails. -/
theorem secServices : SecServices := by
  unfold SecServices
  intro s q c hp u can r writes
  refine ⟨fun hop => ⟨fun hkind => ?provenance, fun hkind => ?certs, fun hkind => ?measure, fun hkind => ?enrol⟩,
    fun hop hscope => ?ephemeral, fun hop hscope => ?permanent⟩
  case provenance =>
    intro o p
    have hattest : isAttest 0 c = true := isAttest_of hop hkind
    refine ⟨attestRow_cannot hp hattest, fun hcan hbad => ?_, fun hcan hok hprov => ?_, fun hcan hok hprov => ?_⟩
    · exact attestRow_ends hp hattest hcan (cmdReadThen_bad hbad)
    · exact attestRow_ends hp hattest hcan (provBody_eq.trans ((cmdReadThen_ok hok).trans (provRead_bad hprov)))
    · exact hop ▸ attestRow_goesOn hp hattest hcan (provBody_eq.trans ((cmdReadThen_ok hok).trans (provRead_good hprov)))
  case certs =>
    intro o
    have hattest : isAttest 1 c = true := isAttest_of hop hkind
    refine ⟨attestRow_cannot hp hattest, fun hcan hbad => ?_, fun hcan hok => ?_⟩
    · exact attestRow_ends hp hattest hcan (cmdReadThen_bad hbad)
    · exact attestRow_writes hp hattest hcan (cmdReadThen_ok hok)
  case measure =>
    intro o req a
    have hattest : isAttest 2 c = true := isAttest_of hop hkind
    refine ⟨attestRow_cannot hp hattest, fun hcan hbad => ?_, fun hcan hok => ?_⟩
    · exact attestRow_ends hp hattest hcan (cmdReadThen_bad hbad)
    · exact attestRow_writes hp hattest hcan (cmdReadThen_ok hok)
  case enrol =>
    intro o key onCurve v
    have hattest : isAttest 3 c = true := isAttest_of hop hkind
    refine ⟨attestRow_cannot hp hattest, fun hcan hbad => ?_, ?_⟩
    · exact attestRow_ends hp hattest hcan (cmdReadThen_bad hbad)
    have ends {t : State} {code : Nat} (hcan : can) (hok : r.2.1 = eOK) (hread : enrolRead v r.2.2 = .fin t code 0) : Ends o t q code :=
      attestRow_ends hp hattest hcan (enrolBody_eq.trans ((cmdReadThen_ok hok).trans hread))
    refine ⟨fun hcan hok hkey => ?_, fun hcan hok hkey howner => ?_, fun hcan hok hkey howner hemerg => ?_,
      fun hcan hok hkey howner hemerg => ⟨fun hfree => ?_, fun hfree => ?_⟩⟩
    · exact ends hcan hok (enrolRead_badKey hkey)
    · exact ends hcan hok (enrolRead_owned hkey howner)
    · exact ends hcan hok (enrolRead_emergency hkey howner hemerg)
    · exact ends hcan hok (enrolRead_fusesFree hkey howner hemerg hfree)
    · exact hop ▸ attestRow_goesOn hp hattest hcan
        (enrolBody_eq.trans ((cmdReadThen_ok hok).trans (enrolRead_fusesTaken hkey howner hemerg hfree)))
  case ephemeral =>
    have hrow : exec (.zeroiseEphemeral q) s = schRow q (fun c => c.op == 0x16 && !(c.word 1).getLsbD 0) zeroiseEphemeralBody s :=
      execZeroiseEphemeral_eq
    have ends {t : State} {code : Nat} (hbody : zeroiseEphemeralBody u c = .fin t code 0) :
        Ends (exec (.zeroiseEphemeral q) s) t q code := hrow ▸ schRow_ends hp (by rw [hop, hscope]; rfl) hbody
    exact ⟨fun hstopped => ends (zeroiseEphemeralBody_stopped hstopped), fun hruns => ends (zeroiseEphemeralBody_runs hruns)⟩
  case permanent =>
    intro o z k
    have ends {t : State} {code : Nat} (hbody : zeroiseBody u c = .fin t code 0) : Ends o t q code :=
      schRow_ends hp (by simp [hop, hscope]) hbody
    refine ⟨fun hsec => ?_, fun hsec hemerg => ?_, fun hsec hemerg => ⟨fun hbad => ?_, fun hok htoken => ?_, fun hok htoken => ?_⟩⟩
    · exact ends (zeroiseBody_noSec hsec)
    · exact ends (zeroiseBody_emergency hsec hemerg)
    · exact ends ((zeroiseBody_asks hsec hemerg).trans (cmdReadThen_bad hbad))
    · exact ends ((zeroiseBody_asks hsec hemerg).trans ((cmdReadThen_ok hok).trans (zeroiseToken_fails htoken)))
    · exact ends ((zeroiseBody_asks hsec hemerg).trans ((cmdReadThen_ok hok).trans (zeroiseToken_passes htoken)))

/-- ACTIVATE_FW as SCH takes it and as it runs after it was held, and the end of a provenance record. -/
theorem firmwareActivation : FirmwareActivation := by
  unfold FirmwareActivation
  refine ⟨?activate, ?deferred, ?provenance⟩
  case activate =>
    intro s q c hp hop o u held
    have hrow : o = schRow q (·.op == 0x10) (activateEnd q) s := execActivateFw_eq
    have hwant : (c.op == 0x10) = true := beq_iff_eq.mpr hop
    have ends {t : State} {code : Nat} (hbody : activateEnd q u c = .fin t code 0) : Ends o t q code :=
      hrow ▸ schRow_ends hp hwant hbody
    refine ⟨fun hsec => ?_, fun hsec hheld => ?_, fun hsec hfree hnone => ?_,
      fun copy hsec hfree hcopy => ⟨fun hemerg => ?_, fun hemerg => ?_⟩⟩
    · exact ends (activateEnd_noSec hsec)
    · exact ends (activateEnd_held hsec hheld)
    · exact ends (activateEnd_unverified hsec hfree hnone)
    · exact ends (activateEnd_emergency hsec hfree hcopy hemerg)
    · have hgoes := schRow_goesOn (want := (·.op == 0x10)) hp hwant (activateEnd_restarts (n := q) hsec hfree hcopy hemerg)
      rwa [hop, ← hrow] at hgoes
  case deferred =>
    intro s p k c hheld o waits u
    refine ⟨execActivateFwDeferredRun_waits hheld, fun hdue => ⟨?_, ?_, ?_⟩⟩
    · exact execActivateFwDeferredRun_noSec hheld hdue
    · exact execActivateFwDeferredRun_unverified hheld hdue
    · exact fun copy hsec hcopy => execActivateFwDeferredRun_restarts hheld hdue hsec hcopy
  case provenance =>
    intro s k b hrun
    have hrow := execProvenanceDone_hashed hrun
    exact ⟨fun hheld => hrow.trans (if_pos hheld), fun hfree => hrow.trans (if_neg (ne_true_of_eq_false hfree))⟩

/-- Settles O57, command by command. -/
theorem attestationAndFirmware : Obligations.AttestationAndFirmware := ⟨secServices, firmwareActivation⟩

end Sys2Proof.Claims
end
